-- ==== Sys2Proof/Word.lean ====
section
/-! DEFINITION. The plain data the model is written in: bytes, 32-bit program words, 64-bit registers, 2 048-bit
vector registers, and sparse maps held as sorted lists of key and value pairs. -/

namespace Sys2Proof

/-- A byte of storage (R5). -/
abbrev Byte := BitVec 8
/-- A 32-bit program word (R135). -/
abbrev W32 := BitVec 32
/-- A 64-bit register (R28). -/
abbrev Word := BitVec 64
/-- A 2 048-bit vector register or queue entry (R188, R165). -/
abbrev Vec := BitVec 2048
/-- A sparse map in one canonical form: keys strictly rising, no entry equal to the default of its key. -/
abbrev Map (α : Type) := List (Nat × α)

end Sys2Proof
end

