-- ==== Sys2Proof/Syntax.lean ====
section
/-! DEFINITION. The instruction and event syntax of the Relmeic Z9: one constructor for each row of the
opcode table. A word carries the fields the spec names (reserved fields are dropped, R138); a device or host
event carries the operands that say which unit, object or value it concerns. -/

namespace Sys2Proof

/-- One constructor per row of the opcode table.
Rows 0 to 189 are core words (R139 to R150), rows 190 to 210 words of near-bank units (R266), rows 211 to 226
gleaner command words (R255), and the others are events and host commands, which have no encoding. -/
inductive Instr where
  /-- ADD_A (R159): A-word add: d := a + b, wrapping modulo 2^64. -/
  | addA (d : BitVec 5) (a : BitVec 5) (b : BitVec 5)
  /-- SUB_A (R159): A-word subtract: d := a - b. -/
  | subA (d : BitVec 5) (a : BitVec 5) (b : BitVec 5)
  /-- AND_A (R159): A-word bitwise AND. -/
  | andA (d : BitVec 5) (a : BitVec 5) (b : BitVec 5)
  /-- OR_A (R159): A-word bitwise OR. -/
  | orA (d : BitVec 5) (a : BitVec 5) (b : BitVec 5)
  /-- XOR_A (R159): A-word bitwise XOR. -/
  | xorA (d : BitVec 5) (a : BitVec 5) (b : BitVec 5)
  /-- SLL_A (R159): A-word shift left by b<5:0>. -/
  | sllA (d : BitVec 5) (a : BitVec 5) (b : BitVec 5)
  /-- SRL_A (R159): A-word logical shift right by b<5:0>. -/
  | srlA (d : BitVec 5) (a : BitVec 5) (b : BitVec 5)
  /-- SRA_A (R159): A-word arithmetic shift right by b<5:0>. -/
  | sraA (d : BitVec 5) (a : BitVec 5) (b : BitVec 5)
  /-- SLT_A (R159): A-word signed set-less-than. -/
  | sltA (d : BitVec 5) (a : BitVec 5) (b : BitVec 5)
  /-- SLTN_A (R159): A-word unsigned set-less-than. -/
  | sltnA (d : BitVec 5) (a : BitVec 5) (b : BitVec 5)
  /-- MIN_A (R159): A-word signed minimum. -/
  | minA (d : BitVec 5) (a : BitVec 5) (b : BitVec 5)
  /-- MAX_A (R159): A-word signed maximum. -/
  | maxA (d : BitVec 5) (a : BitVec 5) (b : BitVec 5)
  /-- MINN_A (R159): A-word unsigned minimum. -/
  | minnA (d : BitVec 5) (a : BitVec 5) (b : BitVec 5)
  /-- MAXN_A (R159): A-word unsigned maximum. -/
  | maxnA (d : BitVec 5) (a : BitVec 5) (b : BitVec 5)
  /-- MUL_A (R159): A-word low 64 bits of the product. -/
  | mulA (d : BitVec 5) (a : BitVec 5) (b : BitVec 5)
  /-- MULH_A (R159): A-word high 64 bits of the signed product. -/
  | mulhA (d : BitVec 5) (a : BitVec 5) (b : BitVec 5)
  /-- MULHN_A (R159): A-word high 64 bits of the unsigned product. -/
  | mulhnA (d : BitVec 5) (a : BitVec 5) (b : BitVec 5)
  /-- DIV_A (R159): A-word signed quotient by R69, no trap. -/
  | divA (d : BitVec 5) (a : BitVec 5) (b : BitVec 5)
  /-- DIVN_A (R159): A-word unsigned quotient by R69. -/
  | divnA (d : BitVec 5) (a : BitVec 5) (b : BitVec 5)
  /-- REM_A (R159): A-word signed remainder by R69. -/
  | remA (d : BitVec 5) (a : BitVec 5) (b : BitVec 5)
  /-- REMN_A (R159): A-word unsigned remainder by R69. -/
  | remnA (d : BitVec 5) (a : BitVec 5) (b : BitVec 5)
  /-- CLZ_A (R159): A-word count of leading zero bits. -/
  | clzA (d : BitVec 5) (a : BitVec 5)
  /-- POPC_A (R159): A-word count of one bits. -/
  | popcA (d : BitVec 5) (a : BitVec 5)
  /-- CSEL_A (R159): A-word select a if old d is non-zero, else b. -/
  | cselA (d : BitVec 5) (a : BitVec 5) (b : BitVec 5)
  /-- ADDI_A (R160): A-word add sign-extended imm13. -/
  | addiA (d : BitVec 5) (a : BitVec 5) (i : BitVec 13)
  /-- ANDI_A (R160): A-word AND with sign-extended imm13. -/
  | andiA (d : BitVec 5) (a : BitVec 5) (i : BitVec 13)
  /-- ORI_A (R160): A-word OR with sign-extended imm13. -/
  | oriA (d : BitVec 5) (a : BitVec 5) (i : BitVec 13)
  /-- XORI_A (R160): A-word XOR with sign-extended imm13. -/
  | xoriA (d : BitVec 5) (a : BitVec 5) (i : BitVec 13)
  /-- SLLI_A (R160): A-word shift left by immediate count. -/
  | slliA (d : BitVec 5) (a : BitVec 5) (c : BitVec 6)
  /-- SRLI_A (R160): A-word logical shift right by immediate count. -/
  | srliA (d : BitVec 5) (a : BitVec 5) (c : BitVec 6)
  /-- SRAI_A (R160): A-word arithmetic shift right by immediate count. -/
  | sraiA (d : BitVec 5) (a : BitVec 5) (c : BitVec 6)
  /-- SLTI_A (R160): A-word signed compare with sign-extended imm13. -/
  | sltiA (d : BitVec 5) (a : BitVec 5) (i : BitVec 13)
  /-- LI_A (R160): A-word load sign-extended imm18. -/
  | liA (d : BitVec 5) (i : BitVec 18)
  /-- LIX_A (R160): A-word shift d left 18 and insert imm18. -/
  | lixA (d : BitVec 5) (i : BitVec 18)
  /-- ADD_X (R159): X-word add on x registers. -/
  | addX (d : BitVec 5) (a : BitVec 5) (b : BitVec 5)
  /-- SUB_X (R159): X-word subtract. -/
  | subX (d : BitVec 5) (a : BitVec 5) (b : BitVec 5)
  /-- AND_X (R159): X-word bitwise AND. -/
  | andX (d : BitVec 5) (a : BitVec 5) (b : BitVec 5)
  /-- OR_X (R159): X-word bitwise OR. -/
  | orX (d : BitVec 5) (a : BitVec 5) (b : BitVec 5)
  /-- XOR_X (R159): X-word bitwise XOR. -/
  | xorX (d : BitVec 5) (a : BitVec 5) (b : BitVec 5)
  /-- SLL_X (R159): X-word shift left. -/
  | sllX (d : BitVec 5) (a : BitVec 5) (b : BitVec 5)
  /-- SRL_X (R159): X-word logical shift right. -/
  | srlX (d : BitVec 5) (a : BitVec 5) (b : BitVec 5)
  /-- SRA_X (R159): X-word arithmetic shift right. -/
  | sraX (d : BitVec 5) (a : BitVec 5) (b : BitVec 5)
  /-- SLT_X (R159): X-word signed set-less-than. -/
  | sltX (d : BitVec 5) (a : BitVec 5) (b : BitVec 5)
  /-- SLTN_X (R159): X-word unsigned set-less-than. -/
  | sltnX (d : BitVec 5) (a : BitVec 5) (b : BitVec 5)
  /-- MIN_X (R159): X-word signed minimum. -/
  | minX (d : BitVec 5) (a : BitVec 5) (b : BitVec 5)
  /-- MAX_X (R159): X-word signed maximum. -/
  | maxX (d : BitVec 5) (a : BitVec 5) (b : BitVec 5)
  /-- MINN_X (R159): X-word unsigned minimum. -/
  | minnX (d : BitVec 5) (a : BitVec 5) (b : BitVec 5)
  /-- MAXN_X (R159): X-word unsigned maximum. -/
  | maxnX (d : BitVec 5) (a : BitVec 5) (b : BitVec 5)
  /-- MUL_X (R159): X-word low product, latency 3. -/
  | mulX (d : BitVec 5) (a : BitVec 5) (b : BitVec 5)
  /-- MULH_X (R159): X-word high signed product. -/
  | mulhX (d : BitVec 5) (a : BitVec 5) (b : BitVec 5)
  /-- MULHN_X (R159): X-word high unsigned product. -/
  | mulhnX (d : BitVec 5) (a : BitVec 5) (b : BitVec 5)
  /-- DIV_X (R159): X-word signed quotient, latency 18. -/
  | divX (d : BitVec 5) (a : BitVec 5) (b : BitVec 5)
  /-- DIVN_X (R159): X-word unsigned quotient. -/
  | divnX (d : BitVec 5) (a : BitVec 5) (b : BitVec 5)
  /-- REM_X (R159): X-word signed remainder. -/
  | remX (d : BitVec 5) (a : BitVec 5) (b : BitVec 5)
  /-- REMN_X (R159): X-word unsigned remainder. -/
  | remnX (d : BitVec 5) (a : BitVec 5) (b : BitVec 5)
  /-- CLZ_X (R159): X-word leading zero count. -/
  | clzX (d : BitVec 5) (a : BitVec 5)
  /-- POPC_X (R159): X-word population count. -/
  | popcX (d : BitVec 5) (a : BitVec 5)
  /-- CSEL_X (R159): X-word conditional select on old d. -/
  | cselX (d : BitVec 5) (a : BitVec 5) (b : BitVec 5)
  /-- ADDI_X (R160): X-word add immediate. -/
  | addiX (d : BitVec 5) (a : BitVec 5) (i : BitVec 13)
  /-- ANDI_X (R160): X-word AND immediate. -/
  | andiX (d : BitVec 5) (a : BitVec 5) (i : BitVec 13)
  /-- ORI_X (R160): X-word OR immediate. -/
  | oriX (d : BitVec 5) (a : BitVec 5) (i : BitVec 13)
  /-- XORI_X (R160): X-word XOR immediate. -/
  | xoriX (d : BitVec 5) (a : BitVec 5) (i : BitVec 13)
  /-- SLLI_X (R160): X-word shift left immediate. -/
  | slliX (d : BitVec 5) (a : BitVec 5) (c : BitVec 6)
  /-- SRLI_X (R160): X-word logical shift right immediate. -/
  | srliX (d : BitVec 5) (a : BitVec 5) (c : BitVec 6)
  /-- SRAI_X (R160): X-word arithmetic shift right immediate. -/
  | sraiX (d : BitVec 5) (a : BitVec 5) (c : BitVec 6)
  /-- SLTI_X (R160): X-word signed compare immediate. -/
  | sltiX (d : BitVec 5) (a : BitVec 5) (i : BitVec 13)
  /-- LI_X (R160): X-word load sign-extended imm18. -/
  | liX (d : BitVec 5) (i : BitVec 18)
  /-- LIX_X (R160): X-word shift and insert imm18. -/
  | lixX (d : BitVec 5) (i : BitVec 18)
  /-- LDS (R163): Scratchpad load, range-checked, sign or zero extended. -/
  | lds (d : BitVec 5) (a : BitVec 5) (s : BitVec 3) (o : BitVec 10)
  /-- STS (R163): Scratchpad store of the low bytes of d. -/
  | sts (d : BitVec 5) (a : BitVec 5) (s : BitVec 3) (o : BitVec 10)
  /-- LDG (R163): Global load through translation, ordered by page kind. -/
  | ldg (d : BitVec 5) (a : BitVec 5) (s : BitVec 3) (o : BitVec 10)
  /-- STG (R163): Global store, held in the write set of a guarded task. -/
  | stg (d : BitVec 5) (a : BitVec 5) (s : BitVec 3) (o : BitVec 10)
  /-- STDL (R164): Global store with delivered copies offered to a core set. -/
  | stdl (d : BitVec 5) (a : BitVec 5) (b : BitVec 5) (s : BitVec 3)
  /-- QLD (R165): Load 256 scratchpad bytes into a load queue entry. -/
  | qld (q : BitVec 5) (a : BitVec 5) (o : BitVec 13)
  /-- QLDG (R165): Load 256 global bytes into a load queue entry. -/
  | qldg (q : BitVec 5) (a : BitVec 5) (o : BitVec 13)
  /-- QST (R165): Write the head store-queue entry to scratchpad. -/
  | qst (q : BitVec 5) (a : BitVec 5) (o : BitVec 13)
  /-- AMO (R168): Atomic read-modify-write at the home slice returning the old value. -/
  | amo (d : BitVec 5) (a : BitVec 5) (p : BitVec 4) (f : BitVec 2) (o : BitVec 2) (s : BitVec 3)
  /-- CAS (R169): Compare and swap at the home slice. -/
  | cas (d : BitVec 5) (a : BitVec 5) (b : BitVec 5) (w : BitVec 1) (o : BitVec 2) (s : BitVec 3)
  /-- REDW (R168): Reduce-on-write atomic with no return value. -/
  | redw (d : BitVec 5) (a : BitVec 5) (p : BitVec 4) (f : BitVec 2) (o : BitVec 2) (s : BitVec 3)
  /-- FENCE (R170): Ordering fence of a kind, agent scope and storage mask. -/
  | fence (k : BitVec 2) (s : BitVec 3) (m : BitVec 3)
  /-- SRSET (R171): Write one stream-register field. -/
  | srset (s : BitVec 5) (a : BitVec 5) (f : BitVec 6)
  /-- SRGET (R171): Read one stream-register field. -/
  | srget (d : BitVec 5) (s : BitVec 5) (f : BitVec 6)
  /-- ABFREE (R173): Free consumed ring slots in ring order. -/
  | abfree (a : BitVec 5) (c : BitVec 6)
  /-- QPOP (R166): Pop low 64 bits of a load-queue entry into an x register. -/
  | qpop (d : BitVec 5) (q : BitVec 5)
  /-- QPUSH (R166): Push an x register as a store-queue entry. -/
  | qpush (q : BitVec 5) (a : BitVec 5)
  /-- XMODE (R174): Select interlocked or exposed ESQ timing mode. -/
  | xmode (m : BitVec 1)
  /-- CSRR (R338): Read a CSR at a rendezvous. -/
  | csrr (d : BitVec 5) (c : BitVec 12)
  /-- CSRW (R338): Write a CSR, returning the old value. -/
  | csrw (d : BitVec 5) (a : BitVec 5) (c : BitVec 12)
  /-- CSRS (R338): Set CSR bits, returning the old value. -/
  | csrs (d : BitVec 5) (a : BitVec 5) (c : BitVec 12)
  /-- CSRC (R338): Clear CSR bits, returning the old value. -/
  | csrc (d : BitVec 5) (a : BitVec 5) (c : BitVec 12)
  /-- TRAP (R342): Enter the user-level handler with cause 0x02 and a code. -/
  | trap (c : BitVec 13)
  /-- UTRET (R341): Return from the user-level handler to UEPC or UEPC + 4. -/
  | utret (t : BitVec 1)
  /-- SRET (R353): Management core returns from its supervisor handler. -/
  | sret
  /-- PRIO (R345): Set the slot's own priority class, capped at CMAX. -/
  | prio (a : BitVec 5) (g : BitVec 1) (n : BitVec 2)
  /-- TSPAWN (R346): Enter a task record into the ready pool. -/
  | tspawn (a : BitVec 5)
  /-- FGET (R343): Read a full future or trap with cause 0x01. -/
  | fget (d : BitVec 5) (a : BitVec 5)
  /-- FPUT (R344): Write a future's value then set it full, as a release. -/
  | fput (a : BitVec 5) (b : BitVec 5)
  /-- CUTPOST (R348): Publish a cut with its bound after a release fence. -/
  | cutpost (a : BitVec 5) (b : BitVec 5)
  /-- CUTSTOP (R349): Cast a vote that freezes the consumer's cut on one CUT edge. -/
  | cutstop (a : BitVec 5)
  /-- CUTGET (R350): Read cut state of an input edge or of the task itself. -/
  | cutget (d : BitVec 5) (a : BitVec 5)
  /-- YIELD (R347): Offer the slot; checkpoint without cost if a waiting task needs it. -/
  | yield
  /-- TINV (R352): Management core removes cached translations by mode. -/
  | tinv (a : BitVec 5) (b : BitVec 5) (m : BitVec 2)
  /-- HALT (R353): Management core stops fetch until an interrupt or doorbell. -/
  | halt
  /-- PARAMPUBLISH (R351): Set the publish request bit of the issuer's graph. -/
  | parampublish (a : BitVec 5)
  /-- BR (R176): Branch on a register compared with zero, shared or private. -/
  | br (o : BitVec 2) (c : BitVec 3) (r : BitVec 5) (f : BitVec 14)
  /-- JMP (R177): Unconditional jump. -/
  | jmp (o : BitVec 2) (f : BitVec 22)
  /-- CALL (R177): Push return address and jump. -/
  | call (o : BitVec 2) (f : BitVec 22)
  /-- RET (R177): Pop the return stack and go there. -/
  | ret (o : BitVec 2)
  /-- LOOP (R178): Run the following body a register-given number of times. -/
  | loop (o : BitVec 2) (r : BitVec 5) (l : BitVec 17)
  /-- BRNONE (R179): Branch when the top mask has no active lane. -/
  | brnone (o : BitVec 2) (f : BitVec 22)
  /-- BAR (R182): Arrive at a native barrier and wait for its phase. -/
  | bar (o : BitVec 2) (s : BitVec 2) (i : BitVec 5)
  /-- BARA (R182): Arrive at a native barrier without waiting. -/
  | bara (o : BitVec 2) (s : BitVec 2) (i : BitVec 5)
  /-- BARW (R182): Wait for the phase of the slot's last BARA. -/
  | barw (o : BitVec 2) (s : BitVec 2) (i : BitVec 5)
  /-- BARG (R183): Barrier on a global word, arriving and waiting for GEN to change. -/
  | barg (o : BitVec 2) (a : BitVec 5) (c : BitVec 5) (s : BitVec 3)
  /-- WAITV (R184): Wait until a global word satisfies a comparison. -/
  | waitv (o : BitVec 2) (a : BitVec 5) (v : BitVec 5) (m : BitVec 3)
  /-- ABWAIT (R186): Wait until a ring slot is filled. -/
  | abwait (o : BitVec 2) (c : BitVec 6) (i : BitVec 16)
  /-- END (R187): Stop the sequencers that act on it. -/
  | endW (o : BitVec 2)
  /-- WAITC (R185): Wait until a local counter reaches a target, then subtract it. -/
  | waitc (o : BitVec 2) (c : BitVec 6) (i : BitVec 16)
  /-- HINT (R137): Hint-region word, a no-operation passed by every sequencer. -/
  | hint (n : BitVec 29)
  /-- VSHAPE (R190): Write SHAPE from an immediate in V-queue order. -/
  | vshape (tk : BitVec 4) (x : BitVec 2) (s : BitVec 1) (m : BitVec 2) (t : BitVec 4)
  /-- VADD (R197): Element-wise add under mask. -/
  | vadd (tk : BitVec 4) (d : BitVec 5) (a : BitVec 5) (b : BitVec 5) (v : BitVec 4)
  /-- VSUB (R197): Element-wise subtract. -/
  | vsub (tk : BitVec 4) (d : BitVec 5) (a : BitVec 5) (b : BitVec 5) (v : BitVec 4)
  /-- VMUL (R197): Element-wise multiply. -/
  | vmul (tk : BitVec 4) (d : BitVec 5) (a : BitVec 5) (b : BitVec 5) (v : BitVec 4)
  /-- VFMA (R197): Fused multiply-add into vd. -/
  | vfma (tk : BitVec 4) (d : BitVec 5) (a : BitVec 5) (b : BitVec 5) (v : BitVec 4)
  /-- VFMS (R197): Fused multiply-subtract from vd. -/
  | vfms (tk : BitVec 4) (d : BitVec 5) (a : BitVec 5) (b : BitVec 5) (v : BitVec 4)
  /-- VMIN (R197): Element-wise minimum. -/
  | vmin (tk : BitVec 4) (d : BitVec 5) (a : BitVec 5) (b : BitVec 5) (v : BitVec 4)
  /-- VMAX (R197): Element-wise maximum. -/
  | vmax (tk : BitVec 4) (d : BitVec 5) (a : BitVec 5) (b : BitVec 5) (v : BitVec 4)
  /-- VABS (R197): Element-wise absolute value. -/
  | vabs (tk : BitVec 4) (d : BitVec 5) (a : BitVec 5) (v : BitVec 4)
  /-- VNEG (R197): Element-wise negation. -/
  | vneg (tk : BitVec 4) (d : BitVec 5) (a : BitVec 5) (v : BitVec 4)
  /-- VDIV (R197): Element-wise divide. -/
  | vdiv (tk : BitVec 4) (d : BitVec 5) (a : BitVec 5) (b : BitVec 5) (v : BitVec 4)
  /-- VSQRT (R197): Correctly rounded square root. -/
  | vsqrt (tk : BitVec 4) (d : BitVec 5) (a : BitVec 5) (v : BitVec 4)
  /-- VRCP (R197): Table-based reciprocal. -/
  | vrcp (tk : BitVec 4) (d : BitVec 5) (a : BitVec 5) (v : BitVec 4)
  /-- VRSQ (R197): Table-based reciprocal square root. -/
  | vrsq (tk : BitVec 4) (d : BitVec 5) (a : BitVec 5) (v : BitVec 4)
  /-- VEXP2 (R197): Table-based base-2 exponential. -/
  | vexp2 (tk : BitVec 4) (d : BitVec 5) (a : BitVec 5) (v : BitVec 4)
  /-- VLOG2 (R197): Table-based base-2 logarithm. -/
  | vlog2 (tk : BitVec 4) (d : BitVec 5) (a : BitVec 5) (v : BitVec 4)
  /-- VAND (R198): Element-wise bitwise AND. -/
  | vand (tk : BitVec 4) (d : BitVec 5) (a : BitVec 5) (b : BitVec 5) (v : BitVec 4)
  /-- VOR (R198): Element-wise bitwise OR. -/
  | vor (tk : BitVec 4) (d : BitVec 5) (a : BitVec 5) (b : BitVec 5) (v : BitVec 4)
  /-- VXOR (R198): Element-wise bitwise XOR. -/
  | vxor (tk : BitVec 4) (d : BitVec 5) (a : BitVec 5) (b : BitVec 5) (v : BitVec 4)
  /-- VSHL (R198): Element-wise shift left. -/
  | vshl (tk : BitVec 4) (d : BitVec 5) (a : BitVec 5) (b : BitVec 5) (v : BitVec 4)
  /-- VSHR (R198): Element-wise shift right. -/
  | vshr (tk : BitVec 4) (d : BitVec 5) (a : BitVec 5) (b : BitVec 5) (v : BitVec 4)
  /-- VCMP (R194): Compare lanes and push the result mask. -/
  | vcmp (tk : BitVec 4) (c : BitVec 5) (a : BitVec 5) (b : BitVec 5) (v : BitVec 4)
  /-- MINV (R194): Invert the top mask against its parent. -/
  | minv (tk : BitVec 4)
  /-- MPOP (R194): Pop the top mask. -/
  | mpop (tk : BitVec 4)
  /-- MGET (R194): Copy the top mask into a vector register. -/
  | mget (tk : BitVec 4) (d : BitVec 5)
  /-- MSET (R194): Set the top mask from a vector register AND parent. -/
  | mset (tk : BitVec 4) (a : BitVec 5)
  /-- VSEL (R202): Select lanes from va or vb by the mask. -/
  | vsel (tk : BitVec 4) (d : BitVec 5) (a : BitVec 5) (b : BitVec 5) (v : BitVec 4)
  /-- VRSUM (R199): Pairwise tree sum into lane 0. -/
  | vrsum (tk : BitVec 4) (d : BitVec 5) (a : BitVec 5) (v : BitVec 4)
  /-- VRMAX (R199): Pairwise tree maximum into lane 0. -/
  | vrmax (tk : BitVec 4) (d : BitVec 5) (a : BitVec 5) (v : BitVec 4)
  /-- VRMIN (R199): Pairwise tree minimum into lane 0. -/
  | vrmin (tk : BitVec 4) (d : BitVec 5) (a : BitVec 5) (v : BitVec 4)
  /-- VARGMAX (R200): Value and lowest index of the maximum. -/
  | vargmax (tk : BitVec 4) (d : BitVec 5) (a : BitVec 5) (v : BitVec 4)
  /-- VSCAN (R201): Inclusive prefix sum in lane order. -/
  | vscan (tk : BitVec 4) (d : BitVec 5) (a : BitVec 5) (v : BitVec 4)
  /-- VBCST (R202): Broadcast an x register to active lanes. -/
  | vbcst (tk : BitVec 4) (d : BitVec 5) (a : BitVec 5) (v : BitVec 4)
  /-- VMOV (R202): Masked register copy. -/
  | vmov (tk : BitVec 4) (d : BitVec 5) (a : BitVec 5) (v : BitVec 4)
  /-- VXTR (R202): Extract one lane into an x register. -/
  | vxtr (tk : BitVec 4) (d : BitVec 5) (a : BitVec 5) (b : BitVec 5) (v : BitVec 4)
  /-- VINS (R202): Insert an x register into one lane. -/
  | vins (tk : BitVec 4) (d : BitVec 5) (a : BitVec 5) (b : BitVec 5) (v : BitVec 4)
  /-- VPERM (R202): Permute lanes by index vector. -/
  | vperm (tk : BitVec 4) (d : BitVec 5) (a : BitVec 5) (b : BitVec 5) (v : BitVec 4)
  /-- VSLIDE (R202): Slide lanes by a signed count. -/
  | vslide (tk : BitVec 4) (d : BitVec 5) (a : BitVec 5) (b : BitVec 5) (v : BitVec 4)
  /-- VCVT (R203): Convert lanes between vector types. -/
  | vcvt (tk : BitVec 4) (d : BitVec 5) (a : BitVec 5) (t : BitVec 4) (v : BitVec 4)
  /-- VQMX (R205): Requantise float lanes into MX blocks. -/
  | vqmx (tk : BitVec 4) (d : BitVec 5) (a : BitVec 5) (v : BitVec 4)
  /-- VDQMX (R205): Dequantise MX blocks into float lanes. -/
  | vdqmx (tk : BitVec 4) (d : BitVec 5) (a : BitVec 5) (v : BitVec 4)
  /-- VPACK (R204): Narrow two registers into one. -/
  | vpack (tk : BitVec 4) (d : BitVec 5) (a : BitVec 5) (b : BitVec 5) (v : BitVec 4)
  /-- VUNPK (R204): Widen half of a register. -/
  | vunpk (tk : BitVec 4) (d : BitVec 5) (a : BitVec 5) (h : BitVec 1) (v : BitVec 4)
  /-- VQPOP (R206): Pop a whole load-queue entry into a vector register. -/
  | vqpop (tk : BitVec 4) (d : BitVec 5) (q : BitVec 2)
  /-- VQPUSH (R206): Push a vector register as a store-queue entry. -/
  | vqpush (tk : BitVec 4) (q : BitVec 1) (a : BitVec 5)
  /-- VACCR (R207): Read an accumulator row into a vector register. -/
  | vaccr (tk : BitVec 4) (d : BitVec 5) (c : BitVec 11)
  /-- VACCW (R207): Write a vector register into an accumulator row. -/
  | vaccw (tk : BitVec 4) (a : BitVec 5) (c : BitVec 11)
  /-- VIOTA (R202): Write xa + lane index into active lanes. -/
  | viota (tk : BitVec 4) (d : BitVec 5) (a : BitVec 5) (v : BitVec 4)
  /-- MLEASE (R225): Request a set of array sections. -/
  | mlease (tk : BitVec 4) (m : BitVec 4)
  /-- MFREE (R225): Release held sections. -/
  | mfree (tk : BitVec 4) (m : BitVec 4)
  /-- MPLANE (R226): Write shadow planes of macros from a weight stream. -/
  | mplane (tk : BitVec 4) (s : BitVec 4) (a : BitVec 5)
  /-- MSWAP (R227): Exchange active and shadow planes of macros whose tag matches. -/
  | mswap (tk : BitVec 4) (f : BitVec 6) (c : BitVec 6) (a : BitVec 5)
  /-- MSTEP (R228): Asynchronous matrix step into accumulator rows. -/
  | mstep (tk : BitVec 4) (s : BitVec 4) (a : BitVec 5) (c : BitVec 11)
  /-- MCOMMIT (R231): Close the open batch, optionally naming a completion object. -/
  | mcommit (tk : BitVec 4) (s : BitVec 1) (o : BitVec 6)
  /-- MWAITB (R232): Hold until at most k committed batches remain incomplete. -/
  | mwaitb (tk : BitVec 4) (k : BitVec 4)
  /-- MDRAIN (R233): Convert accumulator rows and write them to scratchpad. -/
  | mdrain (tk : BitVec 4) (s : BitVec 4) (a : BitVec 5) (c : BitVec 11)
  /-- MZERO (R234): Zero a run of accumulator rows. -/
  | mzero (tk : BitVec 4) (n : BitVec 9) (c : BitVec 11)
  /-- MSTAT (R235): Read and optionally clear the matrix status. -/
  | mstat (tk : BitVec 4) (d : BitVec 5) (c : BitVec 1)
  /-- COPY (R245): Copy a stream to scratchpad, global memory or a ring slot. -/
  | copy (tk : BitVec 4) (s : BitVec 4) (a : BitVec 5) (d : BitVec 2) (g : BitVec 1) (t : BitVec 1) (c : BitVec 6)
  /-- GATH (R246): Gather rows by an index stream into scratchpad. -/
  | gath (tk : BitVec 4) (s : BitVec 4) (m : BitVec 4) (a : BitVec 5) (t : BitVec 1) (c : BitVec 6)
  /-- SCAT (R246): Scatter scratchpad rows by an index stream. -/
  | scat (tk : BitVec 4) (s : BitVec 4) (m : BitVec 4) (a : BitVec 5) (t : BitVec 1) (c : BitVec 6)
  /-- HALO (R247): Read another gang member's window after a barrier phase. -/
  | halo (tk : BitVec 4) (s : BitVec 4) (a : BitVec 5) (i : BitVec 5) (c : BitVec 6)
  /-- GLKICK (R254): Start a gleaner context on a command list. -/
  | glkick (tk : BitVec 4) (a : BitVec 5) (b : BitVec 5) (t : BitVec 1) (c : BitVec 6)
  /-- GLLINK (R254): Bind a gleaner link to an arrival barrier. -/
  | gllink (tk : BitVec 4) (b : BitVec 5) (l : BitVec 3) (c : BitVec 6)
  /-- ATTN (R290): Issue an attention operation from a parameter block. -/
  | attn (tk : BitVec 4) (a : BitVec 5) (t : BitVec 1) (c : BitVec 6)
  /-- PIMLD (R276): Load NBU code stores from global memory. -/
  | pimld (tk : BitVec 4) (a : BitVec 5) (t : BitVec 1) (c : BitVec 6)
  /-- PIMRUN (R277): Start NBU threads from a run block. -/
  | pimrun (tk : BitVec 4) (a : BitVec 5) (t : BitVec 1) (c : BitVec 6)
  /-- REDUCE (R287): Issue a buffer reduction to a reduction engine. -/
  | reduce (tk : BitVec 4) (a : BitVec 5) (t : BitVec 1) (c : BitVec 6)
  /-- SAMPLE (R290): Issue a sampling operation. -/
  | sample (tk : BitVec 4) (a : BitVec 5) (t : BitVec 1) (c : BitVec 6)
  /-- WNSTEP (R290): Issue a winnow-engine operation. -/
  | wnstep (tk : BitVec 4) (a : BitVec 5) (t : BitVec 1) (c : BitVec 6)
  /-- HSPAWN (R248): Start the slot's helper sequencer. -/
  | hspawn (tk : BitVec 4) (a : BitVec 5) (b : BitVec 5) (d : BitVec 5)
  /-- NADD (R267): NBU 32-bit add. -/
  | nadd (d : BitVec 4) (a : BitVec 4) (b : BitVec 4)
  /-- NADDI (R267): NBU add sign-extended imm18. -/
  | naddi (d : BitVec 4) (a : BitVec 4) (i : BitVec 18)
  /-- NSUB (R267): NBU subtract. -/
  | nsub (d : BitVec 4) (a : BitVec 4) (b : BitVec 4)
  /-- NAND (R267): NBU bitwise AND. -/
  | nand (d : BitVec 4) (a : BitVec 4) (b : BitVec 4)
  /-- NOR (R267): NBU bitwise OR. -/
  | nor (d : BitVec 4) (a : BitVec 4) (b : BitVec 4)
  /-- NSHL (R267): NBU shift left. -/
  | nshl (d : BitVec 4) (a : BitVec 4) (b : BitVec 4)
  /-- NSHR (R267): NBU logical shift right. -/
  | nshr (d : BitVec 4) (a : BitVec 4) (b : BitVec 4)
  /-- NLI (R267): NBU load immediate low or high part. -/
  | nli (d : BitVec 4) (h : BitVec 1) (i : BitVec 21)
  /-- NMUL (R267): NBU low 32 bits of product. -/
  | nmul (d : BitVec 4) (a : BitVec 4) (b : BitVec 4)
  /-- NBNZ (R268): NBU branch if register non-zero. -/
  | nbnz (a : BitVec 4) (f : BitVec 18)
  /-- NJMP (R268): NBU jump. -/
  | njmp (f : BitVec 18)
  /-- NLOOP (R268): NBU counted loop. -/
  | nloop (r : BitVec 4) (a : BitVec 4) (l : BitVec 10)
  /-- NACT (R269): Set a bank's row pointer and open the row. -/
  | nact (b : BitVec 2) (a : BitVec 4)
  /-- NPRE (R269): Close the thread's pointed row in one or all banks. -/
  | npre (b : BitVec 2) (g : BitVec 1)
  /-- NRDW (R270): Read a column word into a w register. -/
  | nrdw (b : BitVec 2) (w : BitVec 1) (a : BitVec 4) (i : BitVec 6)
  /-- NDOT (R271): Dot a w register with activations into accumulators. -/
  | ndot (q : BitVec 3) (w : BitVec 1) (g : BitVec 2) (f : BitVec 1) (s : BitVec 4) (o : BitVec 5)
  /-- NDOTB (R272): Stream 32 column words of a bank pair through the datapath. -/
  | ndotb (q : BitVec 3) (p : BitVec 1) (a : BitVec 4) (l : BitVec 3) (f : BitVec 1) (o : BitVec 5) (e : BitVec 4)
  /-- NWRQ (R273): Write accumulators as one column word. -/
  | nwrq (b : BitVec 2) (a : BitVec 4) (s : BitVec 3) (w : BitVec 1) (c : BitVec 1)
  /-- NLDA (R274): Copy a w register into the activation buffer. -/
  | nlda (w : BitVec 1) (o : BitVec 5)
  /-- NSYNC (R274): Hold until datapath results land and writes are performed. -/
  | nsync
  /-- NDONE (R274): Sync then make the thread idle. -/
  | ndone
  /-- GNEST (R256): Set a pattern's loop count (short form without extension). -/
  | gnest (p : BitVec 2) (l : BitVec 3) (ext : BitVec 1) (c : BitVec 21) (cx : BitVec 32)
  /-- GSTRD (R256): Set a pattern stride (short form without extension). -/
  | gstrd (p : BitVec 2) (l : BitVec 3) (ext : BitVec 1) (s : BitVec 1) (i : BitVec 20) (sx : BitVec 64)
  /-- GBASE (R256): Set BASE or SCALE from a 64-bit extension value. -/
  | gbase (p : BitVec 2) (w : BitVec 1) (ext : BitVec 64)
  /-- GBASE_ADD (R256): Add a signed immediate to BASE or SCALE. -/
  | gbaseAdd (p : BitVec 2) (w : BitVec 1) (i : BitVec 22)
  /-- GBASE_IND (R256): Load BASE or SCALE from memory as an acquire. -/
  | gbaseInd (p : BitVec 2) (w : BitVec 1) (ext : BitVec 64)
  /-- GFMT (R256): Set pattern type, scale copy and scale offset. -/
  | gfmt (p : BitVec 2) (t : BitVec 4) (s : BitVec 1) (d : BitVec 20)
  /-- GWAIT_DRAIN (R256): Wait for every earlier push to retire. -/
  | gwaitDrain
  /-- GWAIT_GEN (R256): Wait until a global word reaches a value. -/
  | gwaitGen (i : BitVec 22) (ext : BitVec 64)
  /-- GPUSH (R257): Claim a ring slot and push the pattern's walk into it. -/
  | gpush (p : BitVec 2) (l : BitVec 3)
  /-- GPOST_WORD (R256): Release-increment a completion word after earlier pushes. -/
  | gpostWord (ext : BitVec 64)
  /-- GPOST_TGU (R256): Decrement a dependence counter after earlier pushes. -/
  | gpostTgu (c : BitVec 16)
  /-- GLINK (R256): Continue fetching at a new list address. -/
  | glink (ext : BitVec 64)
  /-- GLINK_IND (R256): Continue at a pointer read as an acquire, waiting while it is 0. -/
  | glinkInd (ext : BitVec 64)
  /-- GLOOP (R256): Repeat the next words a number of times. -/
  | gloop (l : BitVec 10) (c : BitVec 17)
  /-- GFLAG (R256): Release-write an immediate after earlier pushes. -/
  | gflag (i : BitVec 22) (ext : BitVec 64)
  /-- GEND (R256): Wait for pushes, unbind links, signal and go idle. -/
  | gend
  /-- NOT_AN_INSTRUCTION (R422): A sequencer, helper, gleaner context or NBU thread takes a word whose opcode, func, owner or condition names no instruction and raises cause 0x10. -/
  | notAnInstruction (reason : Nat)
  /-- USER_TRAP_DELIVER (R404): A pending asynchronous delegable cause is delivered at a Y or shared wait word. -/
  | userTrapDeliver (slot : Nat)
  /-- ENGINE_QUEUE_ISSUE (R42): A V, M or T word leaves its queue once tokens, checker and engine allow. -/
  | engineQueueIssue (slot : Nat) (queue : Nat)
  /-- RESULT_WRITE_BACK (R58): An X or V word's result lands in its register at tick t + L, or in order in interlocked mode, and the word retires and posts its token. -/
  | resultWriteBack (slot : Nat)
  /-- ACCESS_PERFORMED (R122): A slot's load, store or queue load reaches its visibility point or returns its data, some clk after issue. -/
  | accessPerformed (slot : Nat) (id : Nat)
  /-- WAIT_CONDITION_MET (R54): A waiting slot's condition is met and it fetches again. -/
  | waitConditionMet (slot : Nat)
  /-- HOME_SLICE_ATOMIC (R127): The home slice's atomic unit performs an AMO, CAS, REDW or BARG. -/
  | homeSliceAtomic (slot : Nat) (id : Nat)
  /-- PAGE_WALK (R105): A translation miss walks the page table and caches a valid leaf. -/
  | pageWalk (space : Nat) (va : Nat)
  /-- TASK_RETIRE (R32): Task retires once sequencers ended and all work completed. -/
  | taskRetire (slot : Nat)
  /-- TGU_DISPATCH (R324): Per-clk dispatch of up to four pool entries by class and age. -/
  | tguDispatch (pick : Nat)
  /-- TRANSFER_OP_RETIRE (R240): A COPY, GATH, SCAT or HALO retires and signals its object. -/
  | transferOpRetire (core : Nat) (id : Nat)
  /-- MATRIX_OP_RETIRE (R221): An MSTEP, MDRAIN or other M word finishes and retires. -/
  | matrixOpRetire (slot : Nat) (id : Nat)
  /-- HELPER_END (R48): Helper END takes effect after its T words retire and writes its flag. -/
  | helperEnd (slot : Nat)
  /-- WAITV_REREAD (R184): Home slice re-reads a waited word on each change of its line. -/
  | waitvReread (slot : Nat)
  /-- CHECKPOINT (R473): Halt, save and code a slot image into the save pool. -/
  | checkpoint (slot : Nat)
  /-- LAUNCH_WRITE (R319): A 64-byte launch record written to the launch port enters the queue. -/
  | launchWrite (rec : BitVec 512)
  /-- REPLAY_START (R320): Next replay starts after STOP is read, binding a bank and readying sources. -/
  | replayStart (g : Nat)
  /-- PLOAD (R262): MCS command writing words into an NBU code store. -/
  | pload (ch : Nat)
  /-- PACTB (R262): MCS command writing activation buffers of threads. -/
  | pactb (ch : Nat)
  /-- PSTART (R262): MCS command starting a set of NBU threads. -/
  | pstart (ch : Nat)
  /-- PGRANT (R262): MCS command giving banks to the NBU. -/
  | pgrant (ch : Nat)
  /-- PREVOKE (R262): MCS command withdrawing banks; NBU precharges and acknowledges. -/
  | prevoke (ch : Nat)
  /-- PSTAT (R262): MCS command returning the NBU done mask, flags and correction count. -/
  | pstat (ch : Nat)
  /-- GRAM (R309): Winnow operation loading a grammar descriptor into a slot. -/
  | gram
  /-- INIT (R309): Winnow operation binding a context to a slot at the start state. -/
  | initW
  /-- STEP (R309): Winnow operation applying a token to a context and fetching its mask. -/
  | stepW
  /-- STEPR (R309): Winnow operation applying the token of a SAMPLE result word. -/
  | steprW
  /-- LAUNCH_ACTIVATE (R320): Oldest queued launch of an idle graph becomes active and starts replay 0. -/
  | launchActivate (g : Nat)
  /-- REPLAY_SETTLE (R335): Replay settles; DONE is incremented and the host signalled. -/
  | replaySettle (g : Nat) (n : Nat)
  /-- TASK_RESTORE (R487): Place a saved task and reload its image. -/
  | taskRestore (task : Nat) (pick : Nat)
  /-- CORE_WAKE_COMPLETE (R24): A power-gated core finishes waking. -/
  | coreWakeComplete (core : Nat)
  /-- TGU_COUNTER_SIGNAL (R315): A dependence counter is decremented and may make its target ready. -/
  | tguCounterSignal
  /-- BARRIER_RELEASE (R51): Barrier phase flips after the last arrival and waiters are released. -/
  | barrierRelease (key : Nat)
  /-- WATCHDOG_EXPIRE (R416): A slot without progress for a period is reported with cause 0x48. -/
  | watchdogExpire (slot : Nat)
  /-- TLB_EVICT (R105): A translation tier evicts a cached translation at any time. -/
  | tlbEvict (tier : Nat) (idx : Nat)
  /-- TINV_COMPLETE (R352): An invalidation completes once accesses using removed translations are performed. -/
  | tinvComplete
  /-- DELIVERED_COPY_OFFER (R364): A delivered copy is offered after the write's visibility point and installed or refused. -/
  | deliveredCopyOffer (idx : Nat)
  /-- LEASE_GRANT (R216): Arbiter grants a whole lease request when its sections are free. -/
  | leaseGrant (cluster : Nat) (idx : Nat)
  /-- SECTION_REARBITRATE (R216): A section used 256 times is re-arbitrated among waiting requests. -/
  | sectionRearbitrate (cluster : Nat) (sec : Nat)
  /-- RECALIBRATION_START (R217): Scheduled converter recalibration of a section begins. -/
  | recalibrationStart (cluster : Nat) (sec : Nat)
  /-- RECALIBRATION_END (R217): Recalibration ends; a failure disables the section. -/
  | recalibrationEnd (cluster : Nat) (sec : Nat) (ok : Bool) (bad : List Nat)
  /-- RING_CLAIM (R250): A filler claims the next ring slot once FREE > 0. -/
  | ringClaim (filler : Nat)
  /-- GLEANER_PUSH_RETIRE (R257): A gleaner push finishes its writes and fills its slot. -/
  | gleanerPushRetire (ctx : Nat) (id : Nat)
  /-- COCFG_WRITE (R239): CSR write of a completion object waits for idleness then resets its state. -/
  | cocfgWrite (slot : Nat)
  /-- SHAPE_CSR_WRITE (R190): CSR write to SHAPE waits for an empty V queue then writes. -/
  | shapeCsrWrite (slot : Nat)
  /-- ATTN_COMPLETE (R300): Attention merges all triples and writes the result. -/
  | attnComplete (id : Nat) (parity : Bool)
  /-- ATTN_ABSENT_RETRY (R298): An attention unit retries an absent KV block. -/
  | attnAbsentRetry (id : Nat)
  /-- ATTN_ABSENT_TIMEOUT (R471): An absent block not arrived within the timeout parks its ATTN. -/
  | attnAbsentTimeout (id : Nat)
  /-- SAMPLE_COMPLETE (R303): The sampling engine chooses a token and writes the result word. -/
  | sampleComplete
  /-- REDUCE_COMPLETE (R289): Reduction writes its outputs and releases its flag. -/
  | reduceComplete (engine : Nat) (parity : Bool)
  /-- PIMLD_APPLY (R276): PIMLD copies code into selected NBU stores once they are idle. -/
  | pimldApply (ch : Nat)
  /-- PIM_RUN_START (R278): A run starts on an NBU once its threads are idle and region writes done. -/
  | pimRunStart (ch : Nat)
  /-- PIM_RUN_COMPLETE (R279): All threads pass NDONE; status and SEQ released, PIMRUN signals. -/
  | pimRunComplete (id : Nat)
  /-- NBU_DATAPATH_LAND (R264): NDOT or NDOTB results land in the accumulators. -/
  | nbuDatapathLand (nbu : Nat) (thread : Nat)
  /-- MCS_LATENCY_CUT (R280): Latency bound expires; MCS revokes NBU banks and serves the access. -/
  | mcsLatencyCut (ch : Nat) (nbu : Nat) (banks : BitVec 4)
  /-- MCS_BANK_REGRANT (R280): MCS grants banks back after serving a cut access. -/
  | mcsBankRegrant (ch : Nat) (nbu : Nat)
  /-- MCS_REFRESH (R281): MCS interleaves refresh and maintenance commands. -/
  | mcsRefresh (ch : Nat)
  /-- NBU_REVOKE_TIMEOUT (R462): PREVOKE unacknowledged for 64 nclk resets the NBU. -/
  | nbuRevokeTimeout (nbu : Nat)
  /-- NBU_STALL_TIMEOUT (R462): Held thread issues nothing for 8 192 nclk after regrant. -/
  | nbuStallTimeout (nbu : Nat)
  /-- PATROL_SCRUB (R457): Patrol reads, corrects and writes back column words. -/
  | patrolScrub (ch : Nat)
  /-- HOST_MEM_READ (R358): Host CXL.mem read served by the home slice. -/
  | hostMemRead (dec1 : Bool) (off : Nat) (len : Nat) (cached : Option Bool)
  /-- HOST_MEM_WRITE (R359): Host CXL.mem write completes and becomes visible. -/
  | hostMemWrite (dec1 : Bool) (off : Nat) (data : List (BitVec 8))
  /-- HOST_SNOOP (R360): Host snoop of host memory served after gathering tokens. -/
  | hostSnoop (line : Nat)
  /-- BISNP_RESPONSE (R358): Host answers a back-invalidation snoop; the device access completes. -/
  | bisnpResponse (line : Nat) (data : Option (List (BitVec 8)))
  /-- PERSISTENT_REQUEST (R361): A miss unsatisfied for 512 clk registers a persistent request. -/
  | persistentRequest (line : Nat) (core : Nat)
  /-- DIRECTORY_SILENT_DROP (R362): A single-bit sharer entry is dropped without a message. -/
  | directorySilentDrop (cluster : Option Nat) (key : Nat)
  /-- DISCOVERY_STORM_HOLD (R498): Discovery limit pressure stops silent drops for 100 µs. -/
  | discoveryStormHold (slice : Nat)
  /-- DISCOVERY_STORM_END (R498): Silent drops resume after 100 µs. -/
  | discoveryStormEnd
  /-- DLVQ_WINDOW_START (R364): A new delivered-copy quota window begins. -/
  | dlvqWindowStart (core : Nat)
  /-- POWER_STATE_ENTER (R372): Device enters the deepest allowed idle state. -/
  | powerStateEnter
  /-- POWER_STATE_EXIT (R372): A launch, host access or doorbell starts an exit to S0. -/
  | powerStateExit
  /-- POWER_EXIT_COMPLETE (R371): Exit completes and held accesses are served. -/
  | powerExitComplete
  /-- CORE_GATE (R372): A core idle for COREIDLE is power-gated. -/
  | coreGate (core : Nat)
  /-- POWER_LIMIT_WINDOW (R374): 1 ms power average adjusts issue duty and THR. -/
  | powerLimitWindow (avg : Nat)
  /-- SUPPLY_SAG (R375): Droop detector lengthens clk and counts the event. -/
  | supplySag
  /-- SAG_END (R375): Nominal clk returns after 1 µs of normal supply. -/
  | sagEnd
  /-- SUPPLY_CRITICAL (R500): Critical supply puts PMDs in self-refresh and stops clocks. -/
  | supplyCritical
  /-- CLOCK_RESTART (R500): Clocks restart after 10 µs of normal supply, with a record. -/
  | clockRestart
  /-- SUPPLY_RETENTION_LOSS (R500): Supply below retention resets the logic die. -/
  | supplyRetentionLoss (pmdHeld : Bool)
  /-- POWER_ON_BOOT (R376): Boot ROM verifies the firmware image and starts it or stays in recovery. -/
  | powerOnBoot (flash : List (BitVec 8))
  /-- FIRMWARE_READY (R376): Firmware trains channels, extends MR1 and reports ready. -/
  | firmwareReady (trained : Bool) (digest : BitVec 256)
  /-- GET_VERSION (R377): SPDM request for versions. -/
  | getVersion
  /-- GET_CAPABILITIES (R377): SPDM request for capabilities. -/
  | getCapabilities
  /-- NEGOTIATE_ALGORITHMS (R377): SPDM algorithm negotiation. -/
  | negotiateAlgorithms
  /-- GET_DIGESTS (R377): SPDM request for certificate digests. -/
  | getDigests
  /-- GET_CERTIFICATE (R377): SPDM request for the certificate chain. -/
  | getCertificate
  /-- CHALLENGE (R377): SPDM challenge signed by the alias key, or ERROR in recovery. -/
  | challenge (nonce : BitVec 256)
  /-- GET_MEASUREMENTS (R377): SPDM request for signed MR0 to MR3, or ERROR in recovery. -/
  | getMeasurements (nonce : BitVec 256)
  /-- LEASE_PROBE (R494): Persistent request active for one lease probes named agents. -/
  | leaseProbe (line : Nat)
  /-- LEASE_EXPIRE (R494): Agent silent through a second lease is declared dead. -/
  | leaseExpire (line : Nat) (agent : Nat)
  /-- HEARTBEAT_POLL (R495): Management core polls each awake core; misses may declare it dead. -/
  | heartbeatPoll (answered : BitVec 17)
  /-- FLIT_ERROR (R499): Flit error corrected by FEC or replay. -/
  | flitError
  /-- LINK_DOWN (R499): Host link goes down and requests wait. -/
  | linkDown
  /-- LINK_RETRAINED (R499): Link retrains within LINKTO and requests proceed. -/
  | linkRetrained
  /-- LINK_DOWN_TIMEOUT (R499): Link down beyond LINKTO declares the host dead. -/
  | linkDownTimeout
  /-- CXL_CACHE_TIMEOUT (R499): CXL.cache completion timeout of 50 ms handled as poison. -/
  | cxlCacheTimeout (line : Nat)
  /-- HOT_RESET (R499): Hot reset or link disable resets logic-die state. -/
  | hotReset
  /-- FWLOAD (R367): Mailbox command reading and verifying a firmware image. -/
  | fwload (readOk : Bool)
  /-- MREXTEND (R367): Mailbox command extending MR2 or MR3 with a digest. -/
  | mrextend (readOk : Bool)
  /-- NOP (R367): Mailbox command with no effect. -/
  | nopM
  /-- MAILBOX_COMMAND_DONE (R367): Mailbox command finishes, BUSY clears and MSI-X vector 2 is sent. -/
  | mailboxCommandDone
  /-- LOAD (R368): GCMD loads a graph after checking its structures. -/
  | loadG
  /-- UNLOAD (R368): GCMD frees a graph once no launch is queued or active. -/
  | unloadG
  /-- PUBLISH (R368): GCMD sets a graph's publish request. -/
  | publishG
  /-- STRIPE (R285): Layout command copying plain frames into a striped region. -/
  | stripe
  /-- UNSTRIPE (R285): Layout command copying a region into plain frames. -/
  | unstripe
  /-- RESTRIPE (R285): Layout command moving a region to another descriptor's placement. -/
  | restripe
  /-- REQUANT (R285): Layout command requantising an INT8 region into MXINT4. -/
  | requant
  /-- TINVCMD_WRITE (R369): Host write starting a translation invalidation. -/
  | tinvcmdWrite (value : BitVec 64)
  /-- RESUME (R415): Fault-queue action resuming a stopped task or parked operation. -/
  | resumeA (record : Nat)
  /-- REQUEUE (R415): Fault-queue action discarding a write set and requeuing the task. -/
  | requeueA (record : Nat)
  /-- ABORT (R415): Fault-queue action stopping the task's graph. -/
  | abortA (record : Nat)
  /-- FQHEAD_WRITE (R413): Write of FQHEAD consumes records and may send MSI-X. -/
  | fqheadWrite (value : BitVec 64)
  /-- DEADACK_WRITE (R497): Write clearing the LOST flag of one region. -/
  | deadackWrite (value : BitVec 64)
  /-- ARRDIS_WRITE (R468): Write clearing a disabled section and starting recalibration. -/
  | arrdisWrite (cluster : Nat) (value : BitVec 64)
  /-- SAVEPOOL_WRITE (R478): Write setting the save pool when no image is stored. -/
  | savepoolWrite (value : BitVec 64)
  /-- REGISTER_WRITE (R6): Write of a register or table entry without behaviour of its own. -/
  | registerWrite (bar2 : Bool) (off : Nat) (len : Nat) (value : BitVec 64)
deriving DecidableEq, Repr, Inhabited

end Sys2Proof
end

