-- ==== Sys2Proof/WellFormed.lean ====
section
/-! DEFINITION. Which instructions are well formed: every field at a value that the instruction's description gives
a meaning to, so that no check of the word's bits alone refuses it (R422, R425, R427 to R430, R435, R436). -/

namespace Sys2Proof

/-- An agent scope code of R111. -/
def WellFormed.scope (s : BitVec 3) : Bool := s.toNat < 6

/-- An AMO or REDW operation (R167): the bitwise and unsigned operations take integer formats only. -/
def WellFormed.amo (op : BitVec 4) (fmt ord : BitVec 2) (sc : BitVec 3) : Bool :=
  op.toNat ≤ 8 && (fmt.toNat < 2 || [0, 1, 5, 6].contains op.toNat) && (ord == 0 || WellFormed.scope sc)

/-- A vector variant that names a type of the kinds allowed, or leaves the type to SHAPE (R191, R210).
Kinds: float allowed, integer allowed. -/
def WellFormed.variant (fl int : Bool) (v : BitVec 4) : Bool :=
  if v == 15 then false
  else if 1 ≤ v.toNat && v.toNat ≤ 3 then fl
  else if 4 ≤ v.toNat && v.toNat ≤ 9 then int
  else true

/-- A destination code of VCVT: a vector type (R188, R96). -/
def WellFormed.vecType (t : BitVec 4) : Bool := [0, 1, 2, 4, 5, 6, 8, 9, 10].contains t.toNat

/-- The narrow type of a VPACK or VUNPK (R204): 8- or 16-bit, or left to SHAPE. -/
def WellFormed.narrow (v : BitVec 4) : Bool :=
  WellFormed.variant true true v && !([1, 6, 9].contains v.toNat)

/-- A shared or private barrier word (R141, R182). -/
def WellFormed.barScope (s : BitVec 2) : Bool := s.toNat < 3

/-- An instruction whose fields hold values that have a meaning. Events carry operands, not encoded fields. -/
def Instr.wf (i : Instr) : Bool :=
  match i with
  | .lds _ _ s _ | .sts _ _ s _ | .ldg _ _ s _ | .stg _ _ s _ => s != 7
  | .stdl _ _ _ s => s != 7
  | .qld q _ _ | .qldg q _ _ => q.toNat < 4
  | .qst q _ _ => q.toNat < 2
  | .amo _ _ p f o s => WellFormed.amo p f o s
  | .redw _ _ p f o s => WellFormed.amo p f o s
  | .cas _ _ _ _ o s => o == 0 || WellFormed.scope s
  | .fence _ s _ => WellFormed.scope s
  | .srset s _ f => s.toNat < 16 && f.toNat < 22
  | .srget _ s f => s.toNat < 16 && f.toNat < 22
  | .qpop _ q => q.toNat < 4
  | .qpush q _ => q.toNat < 2
  | .br _ c _ _ => c.toNat < 6
  | .brnone o _ => o == 1 || o == 3
  | .bar _ s _ | .bara _ s _ | .barw _ s _ => WellFormed.barScope s
  | .barg _ _ _ s => WellFormed.scope s
  | .waitv _ _ _ m => m.toNat < 6
  | .vadd _ _ _ _ v | .vsub _ _ _ _ v | .vmul _ _ _ _ v | .vfma _ _ _ _ v | .vfms _ _ _ _ v
  | .vmin _ _ _ _ v | .vmax _ _ _ _ v | .vdiv _ _ _ _ v | .vand _ _ _ _ v | .vor _ _ _ _ v
  | .vxor _ _ _ _ v | .vsel _ _ _ _ v | .vxtr _ _ _ _ v | .vins _ _ _ _ v | .vperm _ _ _ _ v
  | .vslide _ _ _ _ v => WellFormed.variant true true v
  | .vshl _ _ _ _ v | .vshr _ _ _ _ v => WellFormed.variant false true v
  | .vabs _ _ _ v | .vneg _ _ _ v | .vrsum _ _ _ v | .vrmax _ _ _ v | .vrmin _ _ _ v
  | .vargmax _ _ _ v | .vscan _ _ _ v | .vbcst _ _ _ v | .vmov _ _ _ v | .viota _ _ _ v =>
    WellFormed.variant true true v
  | .vsqrt _ _ _ v | .vrcp _ _ _ v | .vrsq _ _ _ v | .vexp2 _ _ _ v | .vlog2 _ _ _ v
  | .vqmx _ _ _ v | .vdqmx _ _ _ v => WellFormed.variant true false v
  | .vcmp _ c _ _ v => c.toNat < 6 && WellFormed.variant true true v
  | .vcvt _ _ _ t v => WellFormed.vecType t && WellFormed.variant true true v
  | .vpack _ _ _ _ v => WellFormed.narrow v
  | .vunpk _ _ _ _ v => WellFormed.narrow v
  | .mswap _ f c _ => f.toNat + c.toNat + 1 ≤ 64
  | .copy _ _ _ d g t _ => if g == 1 then d == 0 && t == 1 else d.toNat < 2
  | .ndot _ _ g _ _ _ => g != 3
  | .ndotb _ _ _ l f _ _ => 2 ≤ l.toNat && l.toNat ≤ (if f == 1 then 4 else 5)
  | .gnest _ l e _ cx => l.toNat ≤ 5 && (e == 1 || cx == 0)
  | .gstrd _ l e _ _ sx => l.toNat ≤ 6 && (e == 1 || sx == 0)
  | .gfmt _ t _ _ => t != 15
  | .gloop l _ => l != 0
  | _ => true

end Sys2Proof
end

