-- ==== Sys2Proof/Decode.lean ====
section
/-! DEFINITION. Decoding of core words (R135 to R150), of near-bank words (R266) and of gleaner command words (R255)
from their bits, total on any bits and rejecting by the reasons of R422, R435 and R436; and after it an encoder
written from the same layouts. The three texts are separate: their bit patterns overlap, and which decoder reads a
word is decided by who takes it (R33, R253, R263).
Readings and choices of the model: DESIGN CHOICE log entry 9; DEDUCED log entry 59. -/

namespace Sys2Proof

/-- The outcome of decoding one word: an instruction, or a rejection with the reason of the class's table:
0x01 opcode, 0x02 func, 0x03 condition or comparison (R422). -/
inductive Dec where
  | ok (i : Instr)
  | bad (reason : Nat)
deriving DecidableEq, Repr, Inhabited

/-- The tag of a core word, bits 31:29 (R136). -/
def wordTag (w : W32) : Nat := (w.extractLsb' 29 3).toNat

/-- A words with opcode 0x00, by func (R147). -/
def decodeAFunc (w : W32) : Dec :=
  match (w.extractLsb' 0 8).toNat with
  | 0 => .ok (.addA (w.extractLsb' 18 5) (w.extractLsb' 13 5) (w.extractLsb' 8 5))
  | 1 => .ok (.subA (w.extractLsb' 18 5) (w.extractLsb' 13 5) (w.extractLsb' 8 5))
  | 2 => .ok (.andA (w.extractLsb' 18 5) (w.extractLsb' 13 5) (w.extractLsb' 8 5))
  | 3 => .ok (.orA (w.extractLsb' 18 5) (w.extractLsb' 13 5) (w.extractLsb' 8 5))
  | 4 => .ok (.xorA (w.extractLsb' 18 5) (w.extractLsb' 13 5) (w.extractLsb' 8 5))
  | 5 => .ok (.sllA (w.extractLsb' 18 5) (w.extractLsb' 13 5) (w.extractLsb' 8 5))
  | 6 => .ok (.srlA (w.extractLsb' 18 5) (w.extractLsb' 13 5) (w.extractLsb' 8 5))
  | 7 => .ok (.sraA (w.extractLsb' 18 5) (w.extractLsb' 13 5) (w.extractLsb' 8 5))
  | 8 => .ok (.sltA (w.extractLsb' 18 5) (w.extractLsb' 13 5) (w.extractLsb' 8 5))
  | 9 => .ok (.sltnA (w.extractLsb' 18 5) (w.extractLsb' 13 5) (w.extractLsb' 8 5))
  | 10 => .ok (.minA (w.extractLsb' 18 5) (w.extractLsb' 13 5) (w.extractLsb' 8 5))
  | 11 => .ok (.maxA (w.extractLsb' 18 5) (w.extractLsb' 13 5) (w.extractLsb' 8 5))
  | 12 => .ok (.minnA (w.extractLsb' 18 5) (w.extractLsb' 13 5) (w.extractLsb' 8 5))
  | 13 => .ok (.maxnA (w.extractLsb' 18 5) (w.extractLsb' 13 5) (w.extractLsb' 8 5))
  | 16 => .ok (.mulA (w.extractLsb' 18 5) (w.extractLsb' 13 5) (w.extractLsb' 8 5))
  | 17 => .ok (.mulhA (w.extractLsb' 18 5) (w.extractLsb' 13 5) (w.extractLsb' 8 5))
  | 18 => .ok (.mulhnA (w.extractLsb' 18 5) (w.extractLsb' 13 5) (w.extractLsb' 8 5))
  | 20 => .ok (.divA (w.extractLsb' 18 5) (w.extractLsb' 13 5) (w.extractLsb' 8 5))
  | 21 => .ok (.divnA (w.extractLsb' 18 5) (w.extractLsb' 13 5) (w.extractLsb' 8 5))
  | 22 => .ok (.remA (w.extractLsb' 18 5) (w.extractLsb' 13 5) (w.extractLsb' 8 5))
  | 23 => .ok (.remnA (w.extractLsb' 18 5) (w.extractLsb' 13 5) (w.extractLsb' 8 5))
  | 24 => .ok (.clzA (w.extractLsb' 18 5) (w.extractLsb' 13 5))
  | 25 => .ok (.popcA (w.extractLsb' 18 5) (w.extractLsb' 13 5))
  | 26 => .ok (.cselA (w.extractLsb' 18 5) (w.extractLsb' 13 5) (w.extractLsb' 8 5))
  | _ => .bad 2

/-- A words (R146). -/
def decodeA (w : W32) : Dec :=
  match (w.extractLsb' 23 6).toNat with
  | 0 => decodeAFunc w
  | 1 => .ok (.addiA (w.extractLsb' 18 5) (w.extractLsb' 13 5) (w.extractLsb' 0 13))
  | 2 => .ok (.andiA (w.extractLsb' 18 5) (w.extractLsb' 13 5) (w.extractLsb' 0 13))
  | 3 => .ok (.oriA (w.extractLsb' 18 5) (w.extractLsb' 13 5) (w.extractLsb' 0 13))
  | 4 => .ok (.xoriA (w.extractLsb' 18 5) (w.extractLsb' 13 5) (w.extractLsb' 0 13))
  | 5 => .ok (.slliA (w.extractLsb' 18 5) (w.extractLsb' 13 5) (w.extractLsb' 0 6))
  | 6 => .ok (.srliA (w.extractLsb' 18 5) (w.extractLsb' 13 5) (w.extractLsb' 0 6))
  | 7 => .ok (.sraiA (w.extractLsb' 18 5) (w.extractLsb' 13 5) (w.extractLsb' 0 6))
  | 8 => .ok (.sltiA (w.extractLsb' 18 5) (w.extractLsb' 13 5) (w.extractLsb' 0 13))
  | 9 => .ok (.liA (w.extractLsb' 18 5) (w.extractLsb' 0 18))
  | 10 => .ok (.lixA (w.extractLsb' 18 5) (w.extractLsb' 0 18))
  | 16 => .ok (.lds (w.extractLsb' 18 5) (w.extractLsb' 13 5) (w.extractLsb' 10 3) (w.extractLsb' 0 10))
  | 17 => .ok (.sts (w.extractLsb' 18 5) (w.extractLsb' 13 5) (w.extractLsb' 10 3) (w.extractLsb' 0 10))
  | 18 => .ok (.ldg (w.extractLsb' 18 5) (w.extractLsb' 13 5) (w.extractLsb' 10 3) (w.extractLsb' 0 10))
  | 19 => .ok (.stg (w.extractLsb' 18 5) (w.extractLsb' 13 5) (w.extractLsb' 10 3) (w.extractLsb' 0 10))
  | 20 => .ok (.stdl (w.extractLsb' 18 5) (w.extractLsb' 13 5) (w.extractLsb' 8 5) (w.extractLsb' 5 3))
  | 21 => .ok (.qld (w.extractLsb' 18 5) (w.extractLsb' 13 5) (w.extractLsb' 0 13))
  | 22 => .ok (.qldg (w.extractLsb' 18 5) (w.extractLsb' 13 5) (w.extractLsb' 0 13))
  | 23 => .ok (.qst (w.extractLsb' 18 5) (w.extractLsb' 13 5) (w.extractLsb' 0 13))
  | 24 => .ok (.amo (w.extractLsb' 18 5) (w.extractLsb' 13 5) (w.extractLsb' 9 4) (w.extractLsb' 7 2) (w.extractLsb' 5 2) (w.extractLsb' 2 3))
  | 25 => .ok (.cas (w.extractLsb' 18 5) (w.extractLsb' 13 5) (w.extractLsb' 8 5) (w.extractLsb' 7 1) (w.extractLsb' 5 2) (w.extractLsb' 2 3))
  | 26 => .ok (.redw (w.extractLsb' 18 5) (w.extractLsb' 13 5) (w.extractLsb' 9 4) (w.extractLsb' 7 2) (w.extractLsb' 5 2) (w.extractLsb' 2 3))
  | 27 => .ok (.fence (w.extractLsb' 6 2) (w.extractLsb' 3 3) (w.extractLsb' 0 3))
  | 28 => .ok (.srset (w.extractLsb' 18 5) (w.extractLsb' 13 5) (w.extractLsb' 0 6))
  | 29 => .ok (.srget (w.extractLsb' 18 5) (w.extractLsb' 13 5) (w.extractLsb' 0 6))
  | 30 => .ok (.abfree (w.extractLsb' 13 5) (w.extractLsb' 0 6))
  | _ => .bad 1

/-- X words with opcode 0x00, by func (R147). -/
def decodeXFunc (w : W32) : Dec :=
  match (w.extractLsb' 0 8).toNat with
  | 0 => .ok (.addX (w.extractLsb' 18 5) (w.extractLsb' 13 5) (w.extractLsb' 8 5))
  | 1 => .ok (.subX (w.extractLsb' 18 5) (w.extractLsb' 13 5) (w.extractLsb' 8 5))
  | 2 => .ok (.andX (w.extractLsb' 18 5) (w.extractLsb' 13 5) (w.extractLsb' 8 5))
  | 3 => .ok (.orX (w.extractLsb' 18 5) (w.extractLsb' 13 5) (w.extractLsb' 8 5))
  | 4 => .ok (.xorX (w.extractLsb' 18 5) (w.extractLsb' 13 5) (w.extractLsb' 8 5))
  | 5 => .ok (.sllX (w.extractLsb' 18 5) (w.extractLsb' 13 5) (w.extractLsb' 8 5))
  | 6 => .ok (.srlX (w.extractLsb' 18 5) (w.extractLsb' 13 5) (w.extractLsb' 8 5))
  | 7 => .ok (.sraX (w.extractLsb' 18 5) (w.extractLsb' 13 5) (w.extractLsb' 8 5))
  | 8 => .ok (.sltX (w.extractLsb' 18 5) (w.extractLsb' 13 5) (w.extractLsb' 8 5))
  | 9 => .ok (.sltnX (w.extractLsb' 18 5) (w.extractLsb' 13 5) (w.extractLsb' 8 5))
  | 10 => .ok (.minX (w.extractLsb' 18 5) (w.extractLsb' 13 5) (w.extractLsb' 8 5))
  | 11 => .ok (.maxX (w.extractLsb' 18 5) (w.extractLsb' 13 5) (w.extractLsb' 8 5))
  | 12 => .ok (.minnX (w.extractLsb' 18 5) (w.extractLsb' 13 5) (w.extractLsb' 8 5))
  | 13 => .ok (.maxnX (w.extractLsb' 18 5) (w.extractLsb' 13 5) (w.extractLsb' 8 5))
  | 16 => .ok (.mulX (w.extractLsb' 18 5) (w.extractLsb' 13 5) (w.extractLsb' 8 5))
  | 17 => .ok (.mulhX (w.extractLsb' 18 5) (w.extractLsb' 13 5) (w.extractLsb' 8 5))
  | 18 => .ok (.mulhnX (w.extractLsb' 18 5) (w.extractLsb' 13 5) (w.extractLsb' 8 5))
  | 20 => .ok (.divX (w.extractLsb' 18 5) (w.extractLsb' 13 5) (w.extractLsb' 8 5))
  | 21 => .ok (.divnX (w.extractLsb' 18 5) (w.extractLsb' 13 5) (w.extractLsb' 8 5))
  | 22 => .ok (.remX (w.extractLsb' 18 5) (w.extractLsb' 13 5) (w.extractLsb' 8 5))
  | 23 => .ok (.remnX (w.extractLsb' 18 5) (w.extractLsb' 13 5) (w.extractLsb' 8 5))
  | 24 => .ok (.clzX (w.extractLsb' 18 5) (w.extractLsb' 13 5))
  | 25 => .ok (.popcX (w.extractLsb' 18 5) (w.extractLsb' 13 5))
  | 26 => .ok (.cselX (w.extractLsb' 18 5) (w.extractLsb' 13 5) (w.extractLsb' 8 5))
  | _ => .bad 2

/-- X words (R146). -/
def decodeX (w : W32) : Dec :=
  match (w.extractLsb' 23 6).toNat with
  | 0 => decodeXFunc w
  | 1 => .ok (.addiX (w.extractLsb' 18 5) (w.extractLsb' 13 5) (w.extractLsb' 0 13))
  | 2 => .ok (.andiX (w.extractLsb' 18 5) (w.extractLsb' 13 5) (w.extractLsb' 0 13))
  | 3 => .ok (.oriX (w.extractLsb' 18 5) (w.extractLsb' 13 5) (w.extractLsb' 0 13))
  | 4 => .ok (.xoriX (w.extractLsb' 18 5) (w.extractLsb' 13 5) (w.extractLsb' 0 13))
  | 5 => .ok (.slliX (w.extractLsb' 18 5) (w.extractLsb' 13 5) (w.extractLsb' 0 6))
  | 6 => .ok (.srliX (w.extractLsb' 18 5) (w.extractLsb' 13 5) (w.extractLsb' 0 6))
  | 7 => .ok (.sraiX (w.extractLsb' 18 5) (w.extractLsb' 13 5) (w.extractLsb' 0 6))
  | 8 => .ok (.sltiX (w.extractLsb' 18 5) (w.extractLsb' 13 5) (w.extractLsb' 0 13))
  | 9 => .ok (.liX (w.extractLsb' 18 5) (w.extractLsb' 0 18))
  | 10 => .ok (.lixX (w.extractLsb' 18 5) (w.extractLsb' 0 18))
  | 16 => .ok (.qpop (w.extractLsb' 18 5) (w.extractLsb' 13 5))
  | 17 => .ok (.qpush (w.extractLsb' 18 5) (w.extractLsb' 13 5))
  | 18 => .ok (.xmode (w.extractLsb' 0 1))
  | _ => .bad 1

/-- Y words (R146, R336). -/
def decodeY (w : W32) : Dec :=
  match (w.extractLsb' 23 6).toNat with
  | 0 => .ok (.csrr (w.extractLsb' 18 5) (w.extractLsb' 1 12))
  | 1 => .ok (.csrw (w.extractLsb' 18 5) (w.extractLsb' 13 5) (w.extractLsb' 1 12))
  | 2 => .ok (.csrs (w.extractLsb' 18 5) (w.extractLsb' 13 5) (w.extractLsb' 1 12))
  | 3 => .ok (.csrc (w.extractLsb' 18 5) (w.extractLsb' 13 5) (w.extractLsb' 1 12))
  | 4 => .ok (.trap (w.extractLsb' 0 13))
  | 5 => .ok (.utret (w.extractLsb' 0 1))
  | 6 => .ok .sret
  | 7 => .ok (.prio (w.extractLsb' 13 5) (w.extractLsb' 12 1) (w.extractLsb' 0 2))
  | 8 => .ok (.tspawn (w.extractLsb' 13 5))
  | 9 => .ok (.fget (w.extractLsb' 18 5) (w.extractLsb' 13 5))
  | 10 => .ok (.fput (w.extractLsb' 13 5) (w.extractLsb' 8 5))
  | 11 => .ok (.cutpost (w.extractLsb' 13 5) (w.extractLsb' 8 5))
  | 12 => .ok (.cutstop (w.extractLsb' 13 5))
  | 13 => .ok (.cutget (w.extractLsb' 18 5) (w.extractLsb' 13 5))
  | 14 => .ok .yield
  | 15 => .ok (.tinv (w.extractLsb' 13 5) (w.extractLsb' 8 5) (w.extractLsb' 0 2))
  | 16 => .ok .halt
  | 17 => .ok (.parampublish (w.extractLsb' 13 5))
  | _ => .bad 1

/-- C words (R141, R148). -/
def decodeC (w : W32) : Dec :=
  match (w.extractLsb' 22 5).toNat with
  | 0 => if (w.extractLsb' 19 3).toNat < 6 then .ok (.br (w.extractLsb' 27 2) (w.extractLsb' 19 3) (w.extractLsb' 14 5) (w.extractLsb' 0 14)) else .bad 3
  | 1 => .ok (.jmp (w.extractLsb' 27 2) (w.extractLsb' 0 22))
  | 2 => .ok (.call (w.extractLsb' 27 2) (w.extractLsb' 0 22))
  | 3 => .ok (.ret (w.extractLsb' 27 2))
  | 4 => .ok (.loop (w.extractLsb' 27 2) (w.extractLsb' 17 5) (w.extractLsb' 0 17))
  | 5 => if w.extractLsb' 27 1 = 1 then .ok (.brnone (w.extractLsb' 27 2) (w.extractLsb' 0 22)) else .bad 4
  | 7 => .ok (.bar (w.extractLsb' 27 2) (w.extractLsb' 20 2) (w.extractLsb' 15 5))
  | 8 => .ok (.bara (w.extractLsb' 27 2) (w.extractLsb' 20 2) (w.extractLsb' 15 5))
  | 9 => .ok (.barw (w.extractLsb' 27 2) (w.extractLsb' 20 2) (w.extractLsb' 15 5))
  | 10 => .ok (.barg (w.extractLsb' 27 2) (w.extractLsb' 17 5) (w.extractLsb' 12 5) (w.extractLsb' 9 3))
  | 11 => if (w.extractLsb' 9 3).toNat < 6 then .ok (.waitv (w.extractLsb' 27 2) (w.extractLsb' 17 5) (w.extractLsb' 12 5) (w.extractLsb' 9 3)) else .bad 3
  | 12 => .ok (.abwait (w.extractLsb' 27 2) (w.extractLsb' 16 6) (w.extractLsb' 0 16))
  | 13 => .ok (.endW (w.extractLsb' 27 2))
  | 14 => .ok (.waitc (w.extractLsb' 27 2) (w.extractLsb' 16 6) (w.extractLsb' 0 16))
  | _ => .bad 1

/-- V words (R149, R192). -/
def decodeV (w : W32) : Dec :=
  match (w.extractLsb' 19 6).toNat with
  | 0 => .ok (.vshape (w.extractLsb' 25 4) (w.extractLsb' 10 2) (w.extractLsb' 9 1) (w.extractLsb' 6 2) (w.extractLsb' 0 4))
  | 1 => .ok (.vadd (w.extractLsb' 25 4) (w.extractLsb' 14 5) (w.extractLsb' 9 5) (w.extractLsb' 4 5) (w.extractLsb' 0 4))
  | 2 => .ok (.vsub (w.extractLsb' 25 4) (w.extractLsb' 14 5) (w.extractLsb' 9 5) (w.extractLsb' 4 5) (w.extractLsb' 0 4))
  | 3 => .ok (.vmul (w.extractLsb' 25 4) (w.extractLsb' 14 5) (w.extractLsb' 9 5) (w.extractLsb' 4 5) (w.extractLsb' 0 4))
  | 4 => .ok (.vfma (w.extractLsb' 25 4) (w.extractLsb' 14 5) (w.extractLsb' 9 5) (w.extractLsb' 4 5) (w.extractLsb' 0 4))
  | 5 => .ok (.vfms (w.extractLsb' 25 4) (w.extractLsb' 14 5) (w.extractLsb' 9 5) (w.extractLsb' 4 5) (w.extractLsb' 0 4))
  | 6 => .ok (.vmin (w.extractLsb' 25 4) (w.extractLsb' 14 5) (w.extractLsb' 9 5) (w.extractLsb' 4 5) (w.extractLsb' 0 4))
  | 7 => .ok (.vmax (w.extractLsb' 25 4) (w.extractLsb' 14 5) (w.extractLsb' 9 5) (w.extractLsb' 4 5) (w.extractLsb' 0 4))
  | 8 => .ok (.vabs (w.extractLsb' 25 4) (w.extractLsb' 14 5) (w.extractLsb' 9 5) (w.extractLsb' 0 4))
  | 9 => .ok (.vneg (w.extractLsb' 25 4) (w.extractLsb' 14 5) (w.extractLsb' 9 5) (w.extractLsb' 0 4))
  | 10 => .ok (.vdiv (w.extractLsb' 25 4) (w.extractLsb' 14 5) (w.extractLsb' 9 5) (w.extractLsb' 4 5) (w.extractLsb' 0 4))
  | 11 => .ok (.vsqrt (w.extractLsb' 25 4) (w.extractLsb' 14 5) (w.extractLsb' 9 5) (w.extractLsb' 0 4))
  | 12 => .ok (.vrcp (w.extractLsb' 25 4) (w.extractLsb' 14 5) (w.extractLsb' 9 5) (w.extractLsb' 0 4))
  | 13 => .ok (.vrsq (w.extractLsb' 25 4) (w.extractLsb' 14 5) (w.extractLsb' 9 5) (w.extractLsb' 0 4))
  | 14 => .ok (.vexp2 (w.extractLsb' 25 4) (w.extractLsb' 14 5) (w.extractLsb' 9 5) (w.extractLsb' 0 4))
  | 15 => .ok (.vlog2 (w.extractLsb' 25 4) (w.extractLsb' 14 5) (w.extractLsb' 9 5) (w.extractLsb' 0 4))
  | 16 => .ok (.vand (w.extractLsb' 25 4) (w.extractLsb' 14 5) (w.extractLsb' 9 5) (w.extractLsb' 4 5) (w.extractLsb' 0 4))
  | 17 => .ok (.vor (w.extractLsb' 25 4) (w.extractLsb' 14 5) (w.extractLsb' 9 5) (w.extractLsb' 4 5) (w.extractLsb' 0 4))
  | 18 => .ok (.vxor (w.extractLsb' 25 4) (w.extractLsb' 14 5) (w.extractLsb' 9 5) (w.extractLsb' 4 5) (w.extractLsb' 0 4))
  | 19 => .ok (.vshl (w.extractLsb' 25 4) (w.extractLsb' 14 5) (w.extractLsb' 9 5) (w.extractLsb' 4 5) (w.extractLsb' 0 4))
  | 20 => .ok (.vshr (w.extractLsb' 25 4) (w.extractLsb' 14 5) (w.extractLsb' 9 5) (w.extractLsb' 4 5) (w.extractLsb' 0 4))
  | 21 => if (w.extractLsb' 14 5).toNat < 6 then .ok (.vcmp (w.extractLsb' 25 4) (w.extractLsb' 14 5) (w.extractLsb' 9 5) (w.extractLsb' 4 5) (w.extractLsb' 0 4)) else .bad 3
  | 22 => .ok (.minv (w.extractLsb' 25 4))
  | 23 => .ok (.mpop (w.extractLsb' 25 4))
  | 24 => .ok (.mget (w.extractLsb' 25 4) (w.extractLsb' 14 5))
  | 25 => .ok (.mset (w.extractLsb' 25 4) (w.extractLsb' 9 5))
  | 26 => .ok (.vsel (w.extractLsb' 25 4) (w.extractLsb' 14 5) (w.extractLsb' 9 5) (w.extractLsb' 4 5) (w.extractLsb' 0 4))
  | 27 => .ok (.vrsum (w.extractLsb' 25 4) (w.extractLsb' 14 5) (w.extractLsb' 9 5) (w.extractLsb' 0 4))
  | 28 => .ok (.vrmax (w.extractLsb' 25 4) (w.extractLsb' 14 5) (w.extractLsb' 9 5) (w.extractLsb' 0 4))
  | 29 => .ok (.vrmin (w.extractLsb' 25 4) (w.extractLsb' 14 5) (w.extractLsb' 9 5) (w.extractLsb' 0 4))
  | 30 => .ok (.vargmax (w.extractLsb' 25 4) (w.extractLsb' 14 5) (w.extractLsb' 9 5) (w.extractLsb' 0 4))
  | 31 => .ok (.vscan (w.extractLsb' 25 4) (w.extractLsb' 14 5) (w.extractLsb' 9 5) (w.extractLsb' 0 4))
  | 32 => .ok (.vbcst (w.extractLsb' 25 4) (w.extractLsb' 14 5) (w.extractLsb' 9 5) (w.extractLsb' 0 4))
  | 33 => .ok (.vmov (w.extractLsb' 25 4) (w.extractLsb' 14 5) (w.extractLsb' 9 5) (w.extractLsb' 0 4))
  | 34 => .ok (.vxtr (w.extractLsb' 25 4) (w.extractLsb' 14 5) (w.extractLsb' 9 5) (w.extractLsb' 4 5) (w.extractLsb' 0 4))
  | 35 => .ok (.vins (w.extractLsb' 25 4) (w.extractLsb' 14 5) (w.extractLsb' 9 5) (w.extractLsb' 4 5) (w.extractLsb' 0 4))
  | 36 => .ok (.vperm (w.extractLsb' 25 4) (w.extractLsb' 14 5) (w.extractLsb' 9 5) (w.extractLsb' 4 5) (w.extractLsb' 0 4))
  | 37 => .ok (.vslide (w.extractLsb' 25 4) (w.extractLsb' 14 5) (w.extractLsb' 9 5) (w.extractLsb' 4 5) (w.extractLsb' 0 4))
  | 38 => .ok (.vcvt (w.extractLsb' 25 4) (w.extractLsb' 14 5) (w.extractLsb' 9 5) (w.extractLsb' 5 4) (w.extractLsb' 0 4))
  | 39 => .ok (.vqmx (w.extractLsb' 25 4) (w.extractLsb' 14 5) (w.extractLsb' 9 5) (w.extractLsb' 0 4))
  | 40 => .ok (.vdqmx (w.extractLsb' 25 4) (w.extractLsb' 14 5) (w.extractLsb' 9 5) (w.extractLsb' 0 4))
  | 41 => .ok (.vpack (w.extractLsb' 25 4) (w.extractLsb' 14 5) (w.extractLsb' 9 5) (w.extractLsb' 4 5) (w.extractLsb' 0 4))
  | 42 => .ok (.vunpk (w.extractLsb' 25 4) (w.extractLsb' 14 5) (w.extractLsb' 9 5) (w.extractLsb' 4 1) (w.extractLsb' 0 4))
  | 43 => .ok (.vqpop (w.extractLsb' 25 4) (w.extractLsb' 14 5) (w.extractLsb' 9 2))
  | 44 => .ok (.vqpush (w.extractLsb' 25 4) (w.extractLsb' 14 1) (w.extractLsb' 9 5))
  | 45 => .ok (.vaccr (w.extractLsb' 25 4) (w.extractLsb' 14 5) (w.extractLsb' 0 11))
  | 46 => .ok (.vaccw (w.extractLsb' 25 4) (w.extractLsb' 14 5) (w.extractLsb' 0 11))
  | 47 => .ok (.viota (w.extractLsb' 25 4) (w.extractLsb' 14 5) (w.extractLsb' 9 5) (w.extractLsb' 0 4))
  | _ => .bad 1

/-- M words (R150, R223). -/
def decodeM (w : W32) : Dec :=
  match (w.extractLsb' 20 5).toNat with
  | 0 => .ok (.mlease (w.extractLsb' 25 4) (w.extractLsb' 16 4))
  | 1 => .ok (.mfree (w.extractLsb' 25 4) (w.extractLsb' 16 4))
  | 2 => .ok (.mplane (w.extractLsb' 25 4) (w.extractLsb' 16 4) (w.extractLsb' 11 5))
  | 3 => .ok (.mswap (w.extractLsb' 25 4) (w.extractLsb' 14 6) (w.extractLsb' 8 6) (w.extractLsb' 3 5))
  | 4 => .ok (.mstep (w.extractLsb' 25 4) (w.extractLsb' 16 4) (w.extractLsb' 11 5) (w.extractLsb' 0 11))
  | 5 => .ok (.mcommit (w.extractLsb' 25 4) (w.extractLsb' 19 1) (w.extractLsb' 13 6))
  | 6 => .ok (.mwaitb (w.extractLsb' 25 4) (w.extractLsb' 16 4))
  | 7 => .ok (.mdrain (w.extractLsb' 25 4) (w.extractLsb' 16 4) (w.extractLsb' 11 5) (w.extractLsb' 0 11))
  | 8 => .ok (.mzero (w.extractLsb' 25 4) (w.extractLsb' 11 9) (w.extractLsb' 0 11))
  | 9 => .ok (.mstat (w.extractLsb' 25 4) (w.extractLsb' 15 5) (w.extractLsb' 14 1))
  | _ => .bad 1

/-- T words (R150, R244 to R254, R275, R290). -/
def decodeT (w : W32) : Dec :=
  match (w.extractLsb' 20 5).toNat with
  | 0 => .ok (.copy (w.extractLsb' 25 4) (w.extractLsb' 16 4) (w.extractLsb' 11 5) (w.extractLsb' 9 2) (w.extractLsb' 8 1) (w.extractLsb' 6 1) (w.extractLsb' 0 6))
  | 1 => .ok (.gath (w.extractLsb' 25 4) (w.extractLsb' 16 4) (w.extractLsb' 12 4) (w.extractLsb' 7 5) (w.extractLsb' 6 1) (w.extractLsb' 0 6))
  | 2 => .ok (.scat (w.extractLsb' 25 4) (w.extractLsb' 16 4) (w.extractLsb' 12 4) (w.extractLsb' 7 5) (w.extractLsb' 6 1) (w.extractLsb' 0 6))
  | 3 => .ok (.halo (w.extractLsb' 25 4) (w.extractLsb' 16 4) (w.extractLsb' 11 5) (w.extractLsb' 6 5) (w.extractLsb' 0 6))
  | 4 => .ok (.glkick (w.extractLsb' 25 4) (w.extractLsb' 15 5) (w.extractLsb' 10 5) (w.extractLsb' 6 1) (w.extractLsb' 0 6))
  | 5 => .ok (.gllink (w.extractLsb' 25 4) (w.extractLsb' 15 5) (w.extractLsb' 12 3) (w.extractLsb' 0 6))
  | 6 => .ok (.attn (w.extractLsb' 25 4) (w.extractLsb' 15 5) (w.extractLsb' 6 1) (w.extractLsb' 0 6))
  | 7 => .ok (.pimld (w.extractLsb' 25 4) (w.extractLsb' 15 5) (w.extractLsb' 6 1) (w.extractLsb' 0 6))
  | 8 => .ok (.pimrun (w.extractLsb' 25 4) (w.extractLsb' 15 5) (w.extractLsb' 6 1) (w.extractLsb' 0 6))
  | 9 => .ok (.reduce (w.extractLsb' 25 4) (w.extractLsb' 15 5) (w.extractLsb' 6 1) (w.extractLsb' 0 6))
  | 10 => .ok (.sample (w.extractLsb' 25 4) (w.extractLsb' 15 5) (w.extractLsb' 6 1) (w.extractLsb' 0 6))
  | 11 => .ok (.wnstep (w.extractLsb' 25 4) (w.extractLsb' 15 5) (w.extractLsb' 6 1) (w.extractLsb' 0 6))
  | 12 => .ok (.hspawn (w.extractLsb' 25 4) (w.extractLsb' 15 5) (w.extractLsb' 10 5) (w.extractLsb' 5 5))
  | _ => .bad 1

/-- A core word by its tag (R136). Every pattern of the hint region is a HINT (R137). -/
def decodeCore (w : W32) : Dec :=
  match wordTag w with
  | 0 => decodeA w
  | 1 => decodeT w
  | 2 => decodeX w
  | 3 => decodeV w
  | 4 => decodeM w
  | 5 => decodeC w
  | 6 => decodeY w
  | _ => .ok (.hint (w.extractLsb' 0 29))

/-- Words of a near-bank unit by bits 31:26 (R266). -/
def decodeNbu (w : W32) : Dec :=
  match (w.extractLsb' 26 6).toNat with
  | 0 => .ok (.nadd (w.extractLsb' 22 4) (w.extractLsb' 18 4) (w.extractLsb' 14 4))
  | 1 => .ok (.naddi (w.extractLsb' 22 4) (w.extractLsb' 18 4) (w.extractLsb' 0 18))
  | 2 => .ok (.nsub (w.extractLsb' 22 4) (w.extractLsb' 18 4) (w.extractLsb' 14 4))
  | 3 => .ok (.nand (w.extractLsb' 22 4) (w.extractLsb' 18 4) (w.extractLsb' 14 4))
  | 4 => .ok (.nor (w.extractLsb' 22 4) (w.extractLsb' 18 4) (w.extractLsb' 14 4))
  | 5 => .ok (.nshl (w.extractLsb' 22 4) (w.extractLsb' 18 4) (w.extractLsb' 14 4))
  | 6 => .ok (.nshr (w.extractLsb' 22 4) (w.extractLsb' 18 4) (w.extractLsb' 14 4))
  | 7 => .ok (.nli (w.extractLsb' 22 4) (w.extractLsb' 21 1) (w.extractLsb' 0 21))
  | 8 => .ok (.nmul (w.extractLsb' 22 4) (w.extractLsb' 18 4) (w.extractLsb' 14 4))
  | 9 => .ok (.nbnz (w.extractLsb' 18 4) (w.extractLsb' 0 18))
  | 10 => .ok (.njmp (w.extractLsb' 0 18))
  | 11 => .ok (.nloop (w.extractLsb' 22 4) (w.extractLsb' 18 4) (w.extractLsb' 0 10))
  | 12 => .ok (.nact (w.extractLsb' 24 2) (w.extractLsb' 18 4))
  | 13 => .ok (.npre (w.extractLsb' 24 2) (w.extractLsb' 23 1))
  | 14 => .ok (.nrdw (w.extractLsb' 24 2) (w.extractLsb' 23 1) (w.extractLsb' 18 4) (w.extractLsb' 0 6))
  | 15 => .ok (.ndot (w.extractLsb' 23 3) (w.extractLsb' 22 1) (w.extractLsb' 20 2) (w.extractLsb' 19 1) (w.extractLsb' 14 4) (w.extractLsb' 9 5))
  | 16 => .ok (.ndotb (w.extractLsb' 23 3) (w.extractLsb' 22 1) (w.extractLsb' 18 4) (w.extractLsb' 15 3) (w.extractLsb' 14 1) (w.extractLsb' 9 5) (w.extractLsb' 5 4))
  | 17 => .ok (.nwrq (w.extractLsb' 24 2) (w.extractLsb' 18 4) (w.extractLsb' 15 3) (w.extractLsb' 14 1) (w.extractLsb' 13 1))
  | 18 => .ok (.nlda (w.extractLsb' 22 1) (w.extractLsb' 9 5))
  | 19 => .ok .nsync
  | 20 => .ok .ndone
  | _ => .bad 1

/-- Two extension words joined, low word first (R255). -/
def ext64 (lo hi : W32) : Word := hi ++ lo

/-- A gleaner command word with its extension words (R255): the words are those from the command on; the answer is
the instruction and how many words it takes, or the reason of R435. A missing extension word reads as 0. -/
def decodeGlean (ws : List W32) : Dec × Nat :=
  let w := ws.getD 0 0
  let e := ext64 (ws.getD 1 0) (ws.getD 2 0)
  match (w.extractLsb' 27 5).toNat with
  | 0 =>
    let ext := w.extractLsb' 21 1
    (.ok (.gnest (w.extractLsb' 25 2) (w.extractLsb' 22 3) ext (w.extractLsb' 0 21)
      (if ext = 1 then ws.getD 1 0 else 0)), if ext = 1 then 2 else 1)
  | 1 =>
    let ext := w.extractLsb' 21 1
    (.ok (.gstrd (w.extractLsb' 25 2) (w.extractLsb' 22 3) ext (w.extractLsb' 20 1) (w.extractLsb' 0 20)
      (if ext = 1 then e else 0)), if ext = 1 then 3 else 1)
  | 2 =>
    match (w.extractLsb' 22 2).toNat with
    | 0 => (.ok (.gbase (w.extractLsb' 25 2) (w.extractLsb' 24 1) e), 3)
    | 1 => (.ok (.gbaseAdd (w.extractLsb' 25 2) (w.extractLsb' 24 1) (w.extractLsb' 0 22)), 1)
    | 2 => (.ok (.gbaseInd (w.extractLsb' 25 2) (w.extractLsb' 24 1) e), 3)
    | _ => (.bad 3, 1)
  | 3 => (.ok (.gfmt (w.extractLsb' 25 2) (w.extractLsb' 21 4) (w.extractLsb' 20 1) (w.extractLsb' 0 20)), 1)
  | 4 =>
    match (w.extractLsb' 25 2).toNat with
    | 0 => (.ok .gwaitDrain, 1)
    | 1 => (.ok (.gwaitGen (w.extractLsb' 0 22) e), 3)
    | _ => (.bad 3, 1)
  | 5 => (.ok (.gpush (w.extractLsb' 25 2) (w.extractLsb' 22 3)), 1)
  | 6 =>
    match (w.extractLsb' 25 2).toNat with
    | 0 => (.ok (.gpostWord e), 3)
    | 1 => (.ok (.gpostTgu (w.extractLsb' 0 16)), 1)
    | _ => (.bad 3, 1)
  | 7 => if w.extractLsb' 26 1 = 1 then (.ok (.glinkInd e), 3) else (.ok (.glink e), 3)
  | 8 => (.ok (.gloop (w.extractLsb' 17 10) (w.extractLsb' 0 17)), 1)
  | 9 => (.ok (.gflag (w.extractLsb' 0 22) e), 3)
  | 10 => (.ok .gend, 1)
  | _ => (.bad 1, 1)

/-- A program word from its bytes, lowest address first (R5, R135): none when fewer than four are left. -/
def wordOfBytes : List Byte → Option (W32 × List Byte)
  | b0 :: b1 :: b2 :: b3 :: rest => some (b3 ++ b2 ++ b1 ++ b0, rest)
  | _ => none

/-- Core text from its bytes: the decoded word and the bytes left; a tail of fewer than four bytes is rejected. -/
def decodeBytes (bs : List Byte) : Dec × List Byte :=
  match wordOfBytes bs with
  | some (w, rest) => (decodeCore w, rest)
  | none => (.bad 0, [])

/-- The four bytes of a program word, lowest address first (R135). -/
def bytesOfWord (w : W32) : List Byte :=
  [w.extractLsb' 0 8, w.extractLsb' 8 8, w.extractLsb' 16 8, w.extractLsb' 24 8]

/-- The instruction that the decoder of core text reads from an instruction whose bits are w. The part's texts are
texts of 32-bit words; NBU and gleaner words stand in texts of their own, which this function does not read. -/
def decodeTableWord (nbits w : Nat) : Option Instr :=
  match nbits with
  | 32 =>
    match (decodeBytes (bytesOfWord (BitVec.ofNat 32 w))).1 with
    | .ok i => some i
    | .bad _ => none
  | _ => none

/-- The core word of an instruction, reserved bits zero (R138); none for what has no core encoding. -/
def encodeCore (i : Instr) : Option W32 :=
  match i with
  | .addA d a b => some ((0 : BitVec 9) ++ d ++ a ++ b ++ (0 : BitVec 8))
  | .subA d a b => some ((0 : BitVec 9) ++ d ++ a ++ b ++ (1 : BitVec 8))
  | .andA d a b => some ((0 : BitVec 9) ++ d ++ a ++ b ++ (2 : BitVec 8))
  | .orA d a b => some ((0 : BitVec 9) ++ d ++ a ++ b ++ (3 : BitVec 8))
  | .xorA d a b => some ((0 : BitVec 9) ++ d ++ a ++ b ++ (4 : BitVec 8))
  | .sllA d a b => some ((0 : BitVec 9) ++ d ++ a ++ b ++ (5 : BitVec 8))
  | .srlA d a b => some ((0 : BitVec 9) ++ d ++ a ++ b ++ (6 : BitVec 8))
  | .sraA d a b => some ((0 : BitVec 9) ++ d ++ a ++ b ++ (7 : BitVec 8))
  | .sltA d a b => some ((0 : BitVec 9) ++ d ++ a ++ b ++ (8 : BitVec 8))
  | .sltnA d a b => some ((0 : BitVec 9) ++ d ++ a ++ b ++ (9 : BitVec 8))
  | .minA d a b => some ((0 : BitVec 9) ++ d ++ a ++ b ++ (10 : BitVec 8))
  | .maxA d a b => some ((0 : BitVec 9) ++ d ++ a ++ b ++ (11 : BitVec 8))
  | .minnA d a b => some ((0 : BitVec 9) ++ d ++ a ++ b ++ (12 : BitVec 8))
  | .maxnA d a b => some ((0 : BitVec 9) ++ d ++ a ++ b ++ (13 : BitVec 8))
  | .mulA d a b => some ((0 : BitVec 9) ++ d ++ a ++ b ++ (16 : BitVec 8))
  | .mulhA d a b => some ((0 : BitVec 9) ++ d ++ a ++ b ++ (17 : BitVec 8))
  | .mulhnA d a b => some ((0 : BitVec 9) ++ d ++ a ++ b ++ (18 : BitVec 8))
  | .divA d a b => some ((0 : BitVec 9) ++ d ++ a ++ b ++ (20 : BitVec 8))
  | .divnA d a b => some ((0 : BitVec 9) ++ d ++ a ++ b ++ (21 : BitVec 8))
  | .remA d a b => some ((0 : BitVec 9) ++ d ++ a ++ b ++ (22 : BitVec 8))
  | .remnA d a b => some ((0 : BitVec 9) ++ d ++ a ++ b ++ (23 : BitVec 8))
  | .clzA d a => some ((0 : BitVec 9) ++ d ++ a ++ (24 : BitVec 13))
  | .popcA d a => some ((0 : BitVec 9) ++ d ++ a ++ (25 : BitVec 13))
  | .cselA d a b => some ((0 : BitVec 9) ++ d ++ a ++ b ++ (26 : BitVec 8))
  | .addiA d a i => some ((1 : BitVec 9) ++ d ++ a ++ i)
  | .andiA d a i => some ((2 : BitVec 9) ++ d ++ a ++ i)
  | .oriA d a i => some ((3 : BitVec 9) ++ d ++ a ++ i)
  | .xoriA d a i => some ((4 : BitVec 9) ++ d ++ a ++ i)
  | .slliA d a c => some ((5 : BitVec 9) ++ d ++ a ++ (0 : BitVec 7) ++ c)
  | .srliA d a c => some ((6 : BitVec 9) ++ d ++ a ++ (0 : BitVec 7) ++ c)
  | .sraiA d a c => some ((7 : BitVec 9) ++ d ++ a ++ (0 : BitVec 7) ++ c)
  | .sltiA d a i => some ((8 : BitVec 9) ++ d ++ a ++ i)
  | .liA d i => some ((9 : BitVec 9) ++ d ++ i)
  | .lixA d i => some ((10 : BitVec 9) ++ d ++ i)
  | .addX d a b => some ((128 : BitVec 9) ++ d ++ a ++ b ++ (0 : BitVec 8))
  | .subX d a b => some ((128 : BitVec 9) ++ d ++ a ++ b ++ (1 : BitVec 8))
  | .andX d a b => some ((128 : BitVec 9) ++ d ++ a ++ b ++ (2 : BitVec 8))
  | .orX d a b => some ((128 : BitVec 9) ++ d ++ a ++ b ++ (3 : BitVec 8))
  | .xorX d a b => some ((128 : BitVec 9) ++ d ++ a ++ b ++ (4 : BitVec 8))
  | .sllX d a b => some ((128 : BitVec 9) ++ d ++ a ++ b ++ (5 : BitVec 8))
  | .srlX d a b => some ((128 : BitVec 9) ++ d ++ a ++ b ++ (6 : BitVec 8))
  | .sraX d a b => some ((128 : BitVec 9) ++ d ++ a ++ b ++ (7 : BitVec 8))
  | .sltX d a b => some ((128 : BitVec 9) ++ d ++ a ++ b ++ (8 : BitVec 8))
  | .sltnX d a b => some ((128 : BitVec 9) ++ d ++ a ++ b ++ (9 : BitVec 8))
  | .minX d a b => some ((128 : BitVec 9) ++ d ++ a ++ b ++ (10 : BitVec 8))
  | .maxX d a b => some ((128 : BitVec 9) ++ d ++ a ++ b ++ (11 : BitVec 8))
  | .minnX d a b => some ((128 : BitVec 9) ++ d ++ a ++ b ++ (12 : BitVec 8))
  | .maxnX d a b => some ((128 : BitVec 9) ++ d ++ a ++ b ++ (13 : BitVec 8))
  | .mulX d a b => some ((128 : BitVec 9) ++ d ++ a ++ b ++ (16 : BitVec 8))
  | .mulhX d a b => some ((128 : BitVec 9) ++ d ++ a ++ b ++ (17 : BitVec 8))
  | .mulhnX d a b => some ((128 : BitVec 9) ++ d ++ a ++ b ++ (18 : BitVec 8))
  | .divX d a b => some ((128 : BitVec 9) ++ d ++ a ++ b ++ (20 : BitVec 8))
  | .divnX d a b => some ((128 : BitVec 9) ++ d ++ a ++ b ++ (21 : BitVec 8))
  | .remX d a b => some ((128 : BitVec 9) ++ d ++ a ++ b ++ (22 : BitVec 8))
  | .remnX d a b => some ((128 : BitVec 9) ++ d ++ a ++ b ++ (23 : BitVec 8))
  | .clzX d a => some ((128 : BitVec 9) ++ d ++ a ++ (24 : BitVec 13))
  | .popcX d a => some ((128 : BitVec 9) ++ d ++ a ++ (25 : BitVec 13))
  | .cselX d a b => some ((128 : BitVec 9) ++ d ++ a ++ b ++ (26 : BitVec 8))
  | .addiX d a i => some ((129 : BitVec 9) ++ d ++ a ++ i)
  | .andiX d a i => some ((130 : BitVec 9) ++ d ++ a ++ i)
  | .oriX d a i => some ((131 : BitVec 9) ++ d ++ a ++ i)
  | .xoriX d a i => some ((132 : BitVec 9) ++ d ++ a ++ i)
  | .slliX d a c => some ((133 : BitVec 9) ++ d ++ a ++ (0 : BitVec 7) ++ c)
  | .srliX d a c => some ((134 : BitVec 9) ++ d ++ a ++ (0 : BitVec 7) ++ c)
  | .sraiX d a c => some ((135 : BitVec 9) ++ d ++ a ++ (0 : BitVec 7) ++ c)
  | .sltiX d a i => some ((136 : BitVec 9) ++ d ++ a ++ i)
  | .liX d i => some ((137 : BitVec 9) ++ d ++ i)
  | .lixX d i => some ((138 : BitVec 9) ++ d ++ i)
  | .lds d a s o => some ((16 : BitVec 9) ++ d ++ a ++ s ++ o)
  | .sts d a s o => some ((17 : BitVec 9) ++ d ++ a ++ s ++ o)
  | .ldg d a s o => some ((18 : BitVec 9) ++ d ++ a ++ s ++ o)
  | .stg d a s o => some ((19 : BitVec 9) ++ d ++ a ++ s ++ o)
  | .stdl d a b s => some ((20 : BitVec 9) ++ d ++ a ++ b ++ s ++ (0 : BitVec 5))
  | .qld q a o => some ((21 : BitVec 9) ++ q ++ a ++ o)
  | .qldg q a o => some ((22 : BitVec 9) ++ q ++ a ++ o)
  | .qst q a o => some ((23 : BitVec 9) ++ q ++ a ++ o)
  | .amo d a p f o s => some ((24 : BitVec 9) ++ d ++ a ++ p ++ f ++ o ++ s ++ (0 : BitVec 2))
  | .cas d a b w o s => some ((25 : BitVec 9) ++ d ++ a ++ b ++ w ++ o ++ s ++ (0 : BitVec 2))
  | .redw d a p f o s => some ((26 : BitVec 9) ++ d ++ a ++ p ++ f ++ o ++ s ++ (0 : BitVec 2))
  | .fence k s m => some ((884736 : BitVec 24) ++ k ++ s ++ m)
  | .srset s a f => some ((28 : BitVec 9) ++ s ++ a ++ (0 : BitVec 7) ++ f)
  | .srget d s f => some ((29 : BitVec 9) ++ d ++ s ++ (0 : BitVec 7) ++ f)
  | .abfree a c => some ((960 : BitVec 14) ++ a ++ (0 : BitVec 7) ++ c)
  | .qpop d q => some ((144 : BitVec 9) ++ d ++ q ++ (0 : BitVec 13))
  | .qpush q a => some ((145 : BitVec 9) ++ q ++ a ++ (0 : BitVec 13))
  | .xmode m => some ((612368384 : BitVec 31) ++ m)
  | .csrr d c => some ((384 : BitVec 9) ++ d ++ (0 : BitVec 5) ++ c ++ (0 : BitVec 1))
  | .csrw d a c => some ((385 : BitVec 9) ++ d ++ a ++ c ++ (0 : BitVec 1))
  | .csrs d a c => some ((386 : BitVec 9) ++ d ++ a ++ c ++ (0 : BitVec 1))
  | .csrc d a c => some ((387 : BitVec 9) ++ d ++ a ++ c ++ (0 : BitVec 1))
  | .trap c => some ((397312 : BitVec 19) ++ c)
  | .utret t => some ((1631584256 : BitVec 31) ++ t)
  | .sret => some ((3271557120 : BitVec 32))
  | .prio a g n => some ((12512 : BitVec 14) ++ a ++ g ++ (0 : BitVec 10) ++ n)
  | .tspawn a => some ((12544 : BitVec 14) ++ a ++ (0 : BitVec 13))
  | .fget d a => some ((393 : BitVec 9) ++ d ++ a ++ (0 : BitVec 13))
  | .fput a b => some ((12608 : BitVec 14) ++ a ++ b ++ (0 : BitVec 8))
  | .cutpost a b => some ((12640 : BitVec 14) ++ a ++ b ++ (0 : BitVec 8))
  | .cutstop a => some ((12672 : BitVec 14) ++ a ++ (0 : BitVec 13))
  | .cutget d a => some ((397 : BitVec 9) ++ d ++ a ++ (0 : BitVec 13))
  | .yield => some ((3338665984 : BitVec 32))
  | .tinv a b m => some ((12768 : BitVec 14) ++ a ++ b ++ (0 : BitVec 6) ++ m)
  | .halt => some ((3355443200 : BitVec 32))
  | .parampublish a => some ((12832 : BitVec 14) ++ a ++ (0 : BitVec 13))
  | .br o c r f => some ((5 : BitVec 3) ++ o ++ (0 : BitVec 5) ++ c ++ r ++ f)
  | .jmp o f => some ((5 : BitVec 3) ++ o ++ (1 : BitVec 5) ++ f)
  | .call o f => some ((5 : BitVec 3) ++ o ++ (2 : BitVec 5) ++ f)
  | .ret o => some ((5 : BitVec 3) ++ o ++ (12582912 : BitVec 27))
  | .loop o r l => some ((5 : BitVec 3) ++ o ++ (4 : BitVec 5) ++ r ++ l)
  | .brnone o f => some ((5 : BitVec 3) ++ o ++ (5 : BitVec 5) ++ f)
  | .bar o s i => some ((5 : BitVec 3) ++ o ++ (7 : BitVec 5) ++ s ++ i ++ (0 : BitVec 15))
  | .bara o s i => some ((5 : BitVec 3) ++ o ++ (8 : BitVec 5) ++ s ++ i ++ (0 : BitVec 15))
  | .barw o s i => some ((5 : BitVec 3) ++ o ++ (9 : BitVec 5) ++ s ++ i ++ (0 : BitVec 15))
  | .barg o a c s => some ((5 : BitVec 3) ++ o ++ (10 : BitVec 5) ++ a ++ c ++ s ++ (0 : BitVec 9))
  | .waitv o a v m => some ((5 : BitVec 3) ++ o ++ (11 : BitVec 5) ++ a ++ v ++ m ++ (0 : BitVec 9))
  | .abwait o c i => some ((5 : BitVec 3) ++ o ++ (12 : BitVec 5) ++ c ++ i)
  | .endW o => some ((5 : BitVec 3) ++ o ++ (54525952 : BitVec 27))
  | .waitc o c i => some ((5 : BitVec 3) ++ o ++ (14 : BitVec 5) ++ c ++ i)
  | .hint n => some ((7 : BitVec 3) ++ n)
  | .vshape tk x s m t => some ((3 : BitVec 3) ++ tk ++ (0 : BitVec 13) ++ x ++ s ++ (0 : BitVec 1) ++ m ++ (0 : BitVec 2) ++ t)
  | .vadd tk d a b v => some ((3 : BitVec 3) ++ tk ++ (1 : BitVec 6) ++ d ++ a ++ b ++ v)
  | .vsub tk d a b v => some ((3 : BitVec 3) ++ tk ++ (2 : BitVec 6) ++ d ++ a ++ b ++ v)
  | .vmul tk d a b v => some ((3 : BitVec 3) ++ tk ++ (3 : BitVec 6) ++ d ++ a ++ b ++ v)
  | .vfma tk d a b v => some ((3 : BitVec 3) ++ tk ++ (4 : BitVec 6) ++ d ++ a ++ b ++ v)
  | .vfms tk d a b v => some ((3 : BitVec 3) ++ tk ++ (5 : BitVec 6) ++ d ++ a ++ b ++ v)
  | .vmin tk d a b v => some ((3 : BitVec 3) ++ tk ++ (6 : BitVec 6) ++ d ++ a ++ b ++ v)
  | .vmax tk d a b v => some ((3 : BitVec 3) ++ tk ++ (7 : BitVec 6) ++ d ++ a ++ b ++ v)
  | .vabs tk d a v => some ((3 : BitVec 3) ++ tk ++ (8 : BitVec 6) ++ d ++ a ++ (0 : BitVec 5) ++ v)
  | .vneg tk d a v => some ((3 : BitVec 3) ++ tk ++ (9 : BitVec 6) ++ d ++ a ++ (0 : BitVec 5) ++ v)
  | .vdiv tk d a b v => some ((3 : BitVec 3) ++ tk ++ (10 : BitVec 6) ++ d ++ a ++ b ++ v)
  | .vsqrt tk d a v => some ((3 : BitVec 3) ++ tk ++ (11 : BitVec 6) ++ d ++ a ++ (0 : BitVec 5) ++ v)
  | .vrcp tk d a v => some ((3 : BitVec 3) ++ tk ++ (12 : BitVec 6) ++ d ++ a ++ (0 : BitVec 5) ++ v)
  | .vrsq tk d a v => some ((3 : BitVec 3) ++ tk ++ (13 : BitVec 6) ++ d ++ a ++ (0 : BitVec 5) ++ v)
  | .vexp2 tk d a v => some ((3 : BitVec 3) ++ tk ++ (14 : BitVec 6) ++ d ++ a ++ (0 : BitVec 5) ++ v)
  | .vlog2 tk d a v => some ((3 : BitVec 3) ++ tk ++ (15 : BitVec 6) ++ d ++ a ++ (0 : BitVec 5) ++ v)
  | .vand tk d a b v => some ((3 : BitVec 3) ++ tk ++ (16 : BitVec 6) ++ d ++ a ++ b ++ v)
  | .vor tk d a b v => some ((3 : BitVec 3) ++ tk ++ (17 : BitVec 6) ++ d ++ a ++ b ++ v)
  | .vxor tk d a b v => some ((3 : BitVec 3) ++ tk ++ (18 : BitVec 6) ++ d ++ a ++ b ++ v)
  | .vshl tk d a b v => some ((3 : BitVec 3) ++ tk ++ (19 : BitVec 6) ++ d ++ a ++ b ++ v)
  | .vshr tk d a b v => some ((3 : BitVec 3) ++ tk ++ (20 : BitVec 6) ++ d ++ a ++ b ++ v)
  | .vcmp tk c a b v => some ((3 : BitVec 3) ++ tk ++ (21 : BitVec 6) ++ c ++ a ++ b ++ v)
  | .minv tk => some ((3 : BitVec 3) ++ tk ++ (11534336 : BitVec 25))
  | .mpop tk => some ((3 : BitVec 3) ++ tk ++ (12058624 : BitVec 25))
  | .mget tk d => some ((3 : BitVec 3) ++ tk ++ (24 : BitVec 6) ++ d ++ (0 : BitVec 14))
  | .mset tk a => some ((3 : BitVec 3) ++ tk ++ (800 : BitVec 11) ++ a ++ (0 : BitVec 9))
  | .vsel tk d a b v => some ((3 : BitVec 3) ++ tk ++ (26 : BitVec 6) ++ d ++ a ++ b ++ v)
  | .vrsum tk d a v => some ((3 : BitVec 3) ++ tk ++ (27 : BitVec 6) ++ d ++ a ++ (0 : BitVec 5) ++ v)
  | .vrmax tk d a v => some ((3 : BitVec 3) ++ tk ++ (28 : BitVec 6) ++ d ++ a ++ (0 : BitVec 5) ++ v)
  | .vrmin tk d a v => some ((3 : BitVec 3) ++ tk ++ (29 : BitVec 6) ++ d ++ a ++ (0 : BitVec 5) ++ v)
  | .vargmax tk d a v => some ((3 : BitVec 3) ++ tk ++ (30 : BitVec 6) ++ d ++ a ++ (0 : BitVec 5) ++ v)
  | .vscan tk d a v => some ((3 : BitVec 3) ++ tk ++ (31 : BitVec 6) ++ d ++ a ++ (0 : BitVec 5) ++ v)
  | .vbcst tk d a v => some ((3 : BitVec 3) ++ tk ++ (32 : BitVec 6) ++ d ++ a ++ (0 : BitVec 5) ++ v)
  | .vmov tk d a v => some ((3 : BitVec 3) ++ tk ++ (33 : BitVec 6) ++ d ++ a ++ (0 : BitVec 5) ++ v)
  | .vxtr tk d a b v => some ((3 : BitVec 3) ++ tk ++ (34 : BitVec 6) ++ d ++ a ++ b ++ v)
  | .vins tk d a b v => some ((3 : BitVec 3) ++ tk ++ (35 : BitVec 6) ++ d ++ a ++ b ++ v)
  | .vperm tk d a b v => some ((3 : BitVec 3) ++ tk ++ (36 : BitVec 6) ++ d ++ a ++ b ++ v)
  | .vslide tk d a b v => some ((3 : BitVec 3) ++ tk ++ (37 : BitVec 6) ++ d ++ a ++ b ++ v)
  | .vcvt tk d a t v => some ((3 : BitVec 3) ++ tk ++ (38 : BitVec 6) ++ d ++ a ++ t ++ (0 : BitVec 1) ++ v)
  | .vqmx tk d a v => some ((3 : BitVec 3) ++ tk ++ (39 : BitVec 6) ++ d ++ a ++ (0 : BitVec 5) ++ v)
  | .vdqmx tk d a v => some ((3 : BitVec 3) ++ tk ++ (40 : BitVec 6) ++ d ++ a ++ (0 : BitVec 5) ++ v)
  | .vpack tk d a b v => some ((3 : BitVec 3) ++ tk ++ (41 : BitVec 6) ++ d ++ a ++ b ++ v)
  | .vunpk tk d a h v => some ((3 : BitVec 3) ++ tk ++ (42 : BitVec 6) ++ d ++ a ++ (0 : BitVec 4) ++ h ++ v)
  | .vqpop tk d q => some ((3 : BitVec 3) ++ tk ++ (43 : BitVec 6) ++ d ++ (0 : BitVec 3) ++ q ++ (0 : BitVec 9))
  | .vqpush tk q a => some ((3 : BitVec 3) ++ tk ++ (704 : BitVec 10) ++ q ++ a ++ (0 : BitVec 9))
  | .vaccr tk d c => some ((3 : BitVec 3) ++ tk ++ (45 : BitVec 6) ++ d ++ (0 : BitVec 3) ++ c)
  | .vaccw tk a c => some ((3 : BitVec 3) ++ tk ++ (46 : BitVec 6) ++ a ++ (0 : BitVec 3) ++ c)
  | .viota tk d a v => some ((3 : BitVec 3) ++ tk ++ (47 : BitVec 6) ++ d ++ a ++ (0 : BitVec 5) ++ v)
  | .mlease tk m => some ((4 : BitVec 3) ++ tk ++ (0 : BitVec 5) ++ m ++ (0 : BitVec 16))
  | .mfree tk m => some ((4 : BitVec 3) ++ tk ++ (1 : BitVec 5) ++ m ++ (0 : BitVec 16))
  | .mplane tk s a => some ((4 : BitVec 3) ++ tk ++ (2 : BitVec 5) ++ s ++ a ++ (0 : BitVec 11))
  | .mswap tk f c a => some ((4 : BitVec 3) ++ tk ++ (3 : BitVec 5) ++ f ++ c ++ a ++ (0 : BitVec 3))
  | .mstep tk s a c => some ((4 : BitVec 3) ++ tk ++ (4 : BitVec 5) ++ s ++ a ++ c)
  | .mcommit tk s o => some ((4 : BitVec 3) ++ tk ++ (5 : BitVec 5) ++ s ++ o ++ (0 : BitVec 13))
  | .mwaitb tk k => some ((4 : BitVec 3) ++ tk ++ (6 : BitVec 5) ++ k ++ (0 : BitVec 16))
  | .mdrain tk s a c => some ((4 : BitVec 3) ++ tk ++ (7 : BitVec 5) ++ s ++ a ++ c)
  | .mzero tk n c => some ((4 : BitVec 3) ++ tk ++ (8 : BitVec 5) ++ n ++ c)
  | .mstat tk d c => some ((4 : BitVec 3) ++ tk ++ (9 : BitVec 5) ++ d ++ c ++ (0 : BitVec 14))
  | .copy tk s a d g t c => some ((1 : BitVec 3) ++ tk ++ (0 : BitVec 5) ++ s ++ a ++ d ++ g ++ (0 : BitVec 1) ++ t ++ c)
  | .gath tk s m a t c => some ((1 : BitVec 3) ++ tk ++ (1 : BitVec 5) ++ s ++ m ++ a ++ t ++ c)
  | .scat tk s m a t c => some ((1 : BitVec 3) ++ tk ++ (2 : BitVec 5) ++ s ++ m ++ a ++ t ++ c)
  | .halo tk s a i c => some ((1 : BitVec 3) ++ tk ++ (3 : BitVec 5) ++ s ++ a ++ i ++ c)
  | .glkick tk a b t c => some ((1 : BitVec 3) ++ tk ++ (4 : BitVec 5) ++ a ++ b ++ (0 : BitVec 3) ++ t ++ c)
  | .gllink tk b l c => some ((1 : BitVec 3) ++ tk ++ (5 : BitVec 5) ++ b ++ l ++ (0 : BitVec 6) ++ c)
  | .attn tk a t c => some ((1 : BitVec 3) ++ tk ++ (6 : BitVec 5) ++ a ++ (0 : BitVec 8) ++ t ++ c)
  | .pimld tk a t c => some ((1 : BitVec 3) ++ tk ++ (7 : BitVec 5) ++ a ++ (0 : BitVec 8) ++ t ++ c)
  | .pimrun tk a t c => some ((1 : BitVec 3) ++ tk ++ (8 : BitVec 5) ++ a ++ (0 : BitVec 8) ++ t ++ c)
  | .reduce tk a t c => some ((1 : BitVec 3) ++ tk ++ (9 : BitVec 5) ++ a ++ (0 : BitVec 8) ++ t ++ c)
  | .sample tk a t c => some ((1 : BitVec 3) ++ tk ++ (10 : BitVec 5) ++ a ++ (0 : BitVec 8) ++ t ++ c)
  | .wnstep tk a t c => some ((1 : BitVec 3) ++ tk ++ (11 : BitVec 5) ++ a ++ (0 : BitVec 8) ++ t ++ c)
  | .hspawn tk a b d => some ((1 : BitVec 3) ++ tk ++ (12 : BitVec 5) ++ a ++ b ++ d ++ (0 : BitVec 5))
  | _ => none

/-- The word of a near-bank unit (R266), reserved bits zero; none for what has no such encoding. -/
def encodeNbu (i : Instr) : Option W32 :=
  match i with
  | .nadd d a b => some ((0 : BitVec 6) ++ d ++ a ++ b ++ (0 : BitVec 14))
  | .naddi d a i => some ((1 : BitVec 6) ++ d ++ a ++ i)
  | .nsub d a b => some ((2 : BitVec 6) ++ d ++ a ++ b ++ (0 : BitVec 14))
  | .nand d a b => some ((3 : BitVec 6) ++ d ++ a ++ b ++ (0 : BitVec 14))
  | .nor d a b => some ((4 : BitVec 6) ++ d ++ a ++ b ++ (0 : BitVec 14))
  | .nshl d a b => some ((5 : BitVec 6) ++ d ++ a ++ b ++ (0 : BitVec 14))
  | .nshr d a b => some ((6 : BitVec 6) ++ d ++ a ++ b ++ (0 : BitVec 14))
  | .nli d h i => some ((7 : BitVec 6) ++ d ++ h ++ i)
  | .nmul d a b => some ((8 : BitVec 6) ++ d ++ a ++ b ++ (0 : BitVec 14))
  | .nbnz a f => some ((144 : BitVec 10) ++ a ++ f)
  | .njmp f => some ((2560 : BitVec 14) ++ f)
  | .nloop r a l => some ((11 : BitVec 6) ++ r ++ a ++ (0 : BitVec 8) ++ l)
  | .nact b a => some ((12 : BitVec 6) ++ b ++ (0 : BitVec 2) ++ a ++ (0 : BitVec 18))
  | .npre b g => some ((13 : BitVec 6) ++ b ++ g ++ (0 : BitVec 23))
  | .nrdw b w a i => some ((14 : BitVec 6) ++ b ++ w ++ (0 : BitVec 1) ++ a ++ (0 : BitVec 12) ++ i)
  | .ndot q w g f s o => some ((15 : BitVec 6) ++ q ++ w ++ g ++ f ++ (0 : BitVec 1) ++ s ++ o ++ (0 : BitVec 9))
  | .ndotb q p a l f o e => some ((16 : BitVec 6) ++ q ++ p ++ a ++ l ++ f ++ o ++ e ++ (0 : BitVec 5))
  | .nwrq b a s w c => some ((17 : BitVec 6) ++ b ++ (0 : BitVec 2) ++ a ++ s ++ w ++ c ++ (0 : BitVec 13))
  | .nlda w o => some ((144 : BitVec 9) ++ w ++ (0 : BitVec 8) ++ o ++ (0 : BitVec 9))
  | .nsync => some ((1275068416 : BitVec 32))
  | .ndone => some ((1342177280 : BitVec 32))
  | _ => none

/-- The command word and extension words of a gleaner instruction (R255); empty for what has no such encoding. -/
def encodeGlean (i : Instr) : List W32 :=
  let lo := fun (e : Word) => e.extractLsb' 0 32
  let hi := fun (e : Word) => e.extractLsb' 32 32
  match i with
  | .gnest p l ext c cx =>
    ((0 : BitVec 5) ++ p ++ l ++ ext ++ c) :: (if ext = 1 then [cx] else [])
  | .gstrd p l ext s i sx =>
    ((1 : BitVec 5) ++ p ++ l ++ ext ++ s ++ i) :: (if ext = 1 then [lo sx, hi sx] else [])
  | .gbase p w e => [(2 : BitVec 5) ++ p ++ w ++ (0 : BitVec 24), lo e, hi e]
  | .gbaseAdd p w i => [(2 : BitVec 5) ++ p ++ w ++ (1 : BitVec 2) ++ i]
  | .gbaseInd p w e => [(2 : BitVec 5) ++ p ++ w ++ (2 : BitVec 2) ++ (0 : BitVec 22), lo e, hi e]
  | .gfmt p t s d => [(3 : BitVec 5) ++ p ++ t ++ s ++ d]
  | .gwaitDrain => [(4 : BitVec 5) ++ (0 : BitVec 27)]
  | .gwaitGen i e => [(4 : BitVec 5) ++ (1 : BitVec 2) ++ (0 : BitVec 3) ++ i, lo e, hi e]
  | .gpush p l => [(5 : BitVec 5) ++ p ++ l ++ (0 : BitVec 22)]
  | .gpostWord e => [(6 : BitVec 5) ++ (0 : BitVec 27), lo e, hi e]
  | .gpostTgu c => [(6 : BitVec 5) ++ (1 : BitVec 2) ++ (0 : BitVec 9) ++ c]
  | .glink e => [(7 : BitVec 5) ++ (0 : BitVec 27), lo e, hi e]
  | .glinkInd e => [(7 : BitVec 5) ++ (1 : BitVec 1) ++ (0 : BitVec 26), lo e, hi e]
  | .gloop l c => [(8 : BitVec 5) ++ l ++ c]
  | .gflag i e => [(9 : BitVec 5) ++ (0 : BitVec 5) ++ i, lo e, hi e]
  | .gend => [(10 : BitVec 5) ++ (0 : BitVec 27)]
  | _ => []

/-- The words of an instruction in its own text: core, near-bank or gleaner; events have none. -/
def encode (i : Instr) : List W32 :=
  match encodeCore i with
  | some w => [w]
  | none =>
    match encodeNbu i with
    | some w => [w]
    | none => encodeGlean i

end Sys2Proof
end

