-- ==== Sys2Proof/Config.lean ====
section
/-! DEFINITION. What the spec leaves to an implementation or to the outside world: whose turn it is next, the
values the spec leaves open, and the outcome of the public-key checks. Each is an opaque constant with no body, so
that no proof can see a value of it.
Readings and choices of the model: DESIGN CHOICE log entries 3, 4, 5, 7, 10, 11, 63. -/

namespace Sys2Proof

/-- The three instruction streams of a slot (R28). -/
inductive Party where
  | asq | esq | helper
deriving DecidableEq, Repr, Inhabited

/-- What moves next. A turn is one indivisible step of one agent, the passing of time, a cell error, or one of the
events and host commands of the opcode table. -/
inductive Turn where
  /-- A sequencer or helper of a slot takes or passes the word at its pc (R33, R34). -/
  | seq (slot : Nat) (p : Party)
  /-- The queue entry that ENGINE_QUEUE_ISSUE has just removed takes effect (R42). -/
  | issue (slot : Nat)
  /-- A transfer of a core moves on: act 0 checks its next piece, 1 reads piece k, 2 writes piece k (R242, R444). -/
  | xfer (core id act k : Nat)
  /-- An M word of a slot does its next row (R228, R233); bad says that a conversion of the row, by bit-plane, group
  and macro, has failed its check more often than it is repeated (R466). -/
  | mrow (slot id : Nat) (bad : Option (Nat × Nat × Nat))
  /-- A gleaner push moves on, as a transfer does (R257). -/
  | push (ctx id act k : Nat)
  /-- A gleaner context takes its next command word (R253). -/
  | glean (ctx : Nat)
  /-- One nclk of an NBU: the thread whose turn it is issues at most one word (R264). -/
  | nbu (n : Nat)
  /-- The management core takes its next word (R353, R431). -/
  | mgmt
  /-- n clk pass (R4). -/
  | clk (n : Nat)
  /-- The L1 of a core evicts a line (R108, R361). -/
  | evict (core line : Nat)
  /-- A stored bit of a column word, or of its check bits, flips (R456). -/
  | flip (col pos : Nat)
  /-- The next CXL.cache read of a line of host memory comes poisoned (R499). -/
  | hostErr (line : Nat)
  /-- The L1 of a core stops answering (R133, R493). -/
  | mute (core : Nat)
  /-- A transient request of a core for a line finds too few tokens, and its one retry by broadcast too (R361). -/
  | retry (core line : Nat)
  /-- An interrupt of the management core, of which the spec names no source (R353). -/
  | mgmtIrq
  /-- The management core writes a CSR of a slot, SLIPW or a COCFG (R38, R237, R437). -/
  | mgmtCsr (slot csr : Nat) (v : Word)
  /-- The host reads a register of BAR2 or BAR0 (R355, R366, R502). -/
  | regRead (bar2 : Bool) (off n : Nat)
  /-- The host sets its enable of the link state L1.2 (R354, R372). -/
  | aspm (l12 : Bool)
  /-- Slot slot looks at the word ahead places after one that waits for a page walk, and may read unit of it early (R440). -/
  | ahead (slot ahead unit : Nat)
  /-- A row of the opcode table that is an event or a host command. -/
  | event (i : Instr)
deriving DecidableEq, Repr, Inhabited

/-- The free choice of the next turn, applied to the choice counter of State: agents interleave freely, and the
outside world acts freely, as far as the rules leave the order open (log entry 3). -/
opaque Config.nextTurn : Nat → Turn
/-- The set of its home slice in which the LLC keeps a line (R106, R455); the spec gives no mapping (log entry 10). -/
opaque Config.llcSet : Nat → Nat
/-- The set of an L1 that keeps a line (R106, R364); the spec gives no mapping (log entry 10). -/
opaque Config.l1Set : Nat → Nat
/-- Requests that an engine's queue holds besides one, by executor class (R326): an empty queue has room; the spec gives no
number (log entry 11). -/
opaque Config.engineDepth : Nat → Nat
/-- A value the spec leaves open, applied to the counter of open values of State (log entry 4). -/
opaque Config.freeWord : Nat → Word
/-- The h register that a register field above 7 names in a word the helper executes (R139; log entry 7). -/
opaque Config.helperReg : BitVec 5 → BitVec 3
/-- The public key with which an image is verified (R376, R501; log entry 5). -/
opaque Config.imageKey : List Byte → List Byte
/-- Whether the ECDSA P-256 signature of an image, over its digest, verifies with a key (R376; log entry 5). -/
opaque Config.ecdsaVerify : List Byte → BitVec 256 → List Byte → Bool
/-- The digest of the key, the minimum version, and the secret, that are fused into the part (R376, R377). -/
opaque Config.fusedKeyDigest : BitVec 256
opaque Config.fusedVersion : BitVec 32
opaque Config.fusedSecret : BitVec 256
/-- The version number that an image carries (R365). -/
opaque Config.imageVersion : List Byte → BitVec 32
/-- The alias key derived from the fused secret and MR0 (R377). -/
opaque Config.deriveAlias : BitVec 256 → BitVec 256 → BitVec 256
/-- The signature of an SPDM response by a key over the host's nonce and the measurements (R377). -/
opaque Config.spdmSign : BitVec 256 → BitVec 256 → List (BitVec 256) → List Byte
/-- The identity certificate chain held in flash (R377). -/
opaque Config.certChain : List Byte
/-- The certificate of an alias key, signed by the identity key (R377). -/
opaque Config.aliasCert : BitVec 256 → List Byte
/-- The algorithms that SPDM offers (R377). -/
inductive SpdmAlg where
  | ecdsaP256 | sha256
deriving DecidableEq, Repr, Inhabited

/-- The body of an SPDM response that offers these algorithms (R377). -/
opaque Config.spdmAlgorithms : List SpdmAlg → List Byte
/-- The body of the SPDM responses whose content the SPDM standard gives: request, by its place in R377's list, to bytes (R377). -/
opaque Config.spdmBody : Nat → List Byte

/-- The ranges in the host window, by first byte and length, where the host's address map places the memory of peers (R357). -/
opaque Config.peerRanges : Nat → List (Nat × Nat)

end Sys2Proof
end

