-- ==== Sys2Proof/Machine/State.lean ====
section
/-! DEFINITION. The state of the machine as plain data: every piece of state the spec gives the part, and, marked
MODEL, the few fields the model adds. Default values are the values at reset.
Readings and choices of the model: DESIGN CHOICE log entries 1, 2, 3, 4, 6, 45, 49, 61, 70, 71; DEDUCED log entry 8. -/

namespace Sys2Proof.Machine

/-- Bytes by address, in canonical form: addresses strictly rising, no entry equal to 0, which is what an unlisted
address reads as (log entry 2). -/
abbrev Memory := List Host.Cell

/-- Reasons for which a step stops. -/
inductive Fault where
  /-- Raised by step when a turn names a unit the part does not have (R11, R12, R14).
  Safe: no agent of the part takes such a turn. -/
  | noSuchUnit
deriving DecidableEq, Repr, Inhabited

/-- Reasons for which an instruction has no meaning here. -/
inductive Refusal where
  /-- Raised by exec for an instruction without a meaning in the model. Safe: nothing is claimed of it. -/
  | notModelled (mnemonic : String)
deriving DecidableEq, Repr, Inhabited

/-- A level of a loop stack (R178): first and last word of the body, iterations left, and whether the loop is
private to its sequencer (R40). -/
structure LoopLv where
  start : Word := 0
  stop : Word := 0
  left : Nat := 0
  priv : Bool := false
  /-- The body has been begun a second time (R424). -/
  again : Bool := false
deriving DecidableEq, Repr, Inhabited

/-- The span of a private C word, recorded where it must be checked (R424): the words from lo to hi, and the
address of the C word. -/
structure Span where
  lo : Word := 0
  hi : Word := 0
  cword : Word := 0
  /-- Walk index of the C word, and whether the span counts only if the owner took the branch there. -/
  walk : Int := 0
  cond : Bool := false
deriving DecidableEq, Repr, Inhabited

/-- A sequencer of a slot. -/
structure Seq where
  /-- Program counter; 64 bits; R28; reset 0, the task's code address at start (R30). -/
  pc : Word := 0
  /-- Walk position; R36; reset 0. -/
  walk : Int := 0
  /-- Return stack, top first, at most 16 entries of 64 bits; R177; reset empty. -/
  ret : List Word := []
  /-- Loop stack, innermost first, at most 8 levels; R178; reset empty. -/
  loops : List LoopLv := []
  /-- The sequencer has passed END; R187; reset true (no task). -/
  ended : Bool := true
  /-- Spans of the other sequencer's private C words that this one has passed; R424; reset empty. -/
  spans : List Span := []
  /-- Private forward branches and jumps taken, by address and walk index; R424; reset empty. -/
  taken : List (Word × Int) := []
  /-- Private backward branches and jumps taken and not passed again; R424; reset empty. -/
  back : List Span := []
  /-- Private calls whose return entry stands: depth of the return stack and address; R424; reset empty. -/
  calls : List (Nat × Word) := []
  /-- Held at a wait or barrier word; R181; reset false. -/
  waiting : Bool := false
deriving DecidableEq, Repr, Inhabited

/-- The helper sequencer of a slot (R47, R48). -/
structure Helper where
  /-- Program counter; 64 bits; R28; reset 0. -/
  pc : Word := 0
  /-- h0 to h7, 64 bits each, h0 reads as zero; R28; reset 0. -/
  h : Map Word := []
  /-- Loop stack, at most 4 levels; R178; reset empty. -/
  loops : List LoopLv := []
  /-- Running, as against idle; R47; reset idle. -/
  run : Bool := false
  /-- The helper has reached END and waits for its T words to retire; R48; reset false. -/
  ending : Bool := false
  /-- Window-relative address of the flag that END writes; R248; reset 0. -/
  flag : Word := 0
  /-- Token field of the HSPAWN that started the stream; R248; reset 0. -/
  tok : BitVec 4 := 0
deriving DecidableEq, Repr, Inhabited

/-- A word waiting in an engine queue, with what it captured at dispatch (R484). -/
structure QEnt where
  word : W32 := 0
  pc : Word := 0
  /-- Walk index, none for a helper word (R48). -/
  walk : Option Int := none
  /-- Dispatch number in the slot, which names its range-checker intervals (R45). -/
  id : Nat := 0
  /-- Register values captured at dispatch (R223, R242). -/
  regs : List Word := []
  /-- Stream snapshots captured by R172, 22 fields each. -/
  s1 : List Word := []
  s2 : List Word := []
  /-- The ESQ was in exposed mode at dispatch (R66). -/
  exposed : Bool := false
  /-- The ring slot already claimed for a COPY.RING (R250). -/
  claim : Option Nat := none
  /-- Batch number of an M word (R220). -/
  batch : Nat := 0
deriving DecidableEq, Repr, Inhabited

/-- A change of the mask stack (R194). -/
inductive MaskOp where
  /-- A mask pushed with its recorded width. -/
  | push (m : BitVec 256) (w : Nat)
  /-- The mask at height h of the stack, which was its top when the word issued, removed (R195). -/
  | pop (h : Nat)
  /-- The mask at height h replaced; its width stays. -/
  | repl (h : Nat) (m : BitVec 256)
deriving DecidableEq, Repr, Inhabited

/-- A result in flight of an X or V word (R58): the registers, mask stack and SHAPE it will write. -/
structure Res where
  /-- Tick at which it lands in exposed mode (R58). -/
  due : Nat := 0
  /-- The word was issued in interlocked mode and lands in text order (R57). -/
  inter : Bool := false
  x : Option (Nat × Word) := none
  /-- Vector register, value, and the bits that the word writes (R193). -/
  v : Option (Nat × Vec × Vec) := none
  /-- Accumulator row written, relative to the window (R207). -/
  acc : Option (Nat × Vec) := none
  /-- Change of the mask stack (R194). -/
  masks : Option MaskOp := none
  /-- Entry appended to a store queue (R166, R206). -/
  sq : Option (Nat × Vec) := none
  /-- Token field of the V word, whose P token is posted when it lands (R209). -/
  tok : BitVec 4 := 0
deriving DecidableEq, Repr, Inhabited

/-- Kinds of a pending memory event of a slot (R109). -/
inductive AccKind where
  | load | store | amo | fence | queueLoad | spLoad | spStore | queueStore | barg | bar
deriving DecidableEq, Repr, Inhabited

/-- A memory event that an ASQ word has issued and that is not yet performed (R114 to R122). -/
structure Acc where
  id : Nat := 0
  kind : AccKind := .load
  pc : Word := 0
  word : W32 := 0
  walk : Int := 0
  /-- Virtual or window-relative address. -/
  va : Nat := 0
  /-- Physical parts of a global access: address, length, ordering kind, GEX (R103, R101). -/
  parts : List (Nat × Nat × BitVec 2 × Bool) := []
  len : Nat := 0
  /-- Data of a store, operands of an atomic. -/
  data : Word := 0
  data2 : Word := 0
  /-- Destination register or queue number. -/
  dst : Nat := 0
  /-- Size code of a load (R162). -/
  sz : BitVec 3 := 0
  /-- Core set of an STDL (R164), zero otherwise. -/
  dset : BitVec 16 := 0
  /-- Kind, scope and storage mask of a fence (R113). -/
  fk : BitVec 2 := 0
  scope : BitVec 3 := 0
  stor : BitVec 3 := 0
  /-- Queue entry number of a queue load (R165). -/
  qid : Nat := 0
  /-- Data of a queue store, or of a load the bytes read so far in their places (R92, R110). -/
  qdata : Vec := 0
  /-- Single-copy atomic units already performed (R92, R110). -/
  did : List Nat := []
  /-- The target page of a REDW has STR = 1 (R454). -/
  str : Bool := false
  /-- The clk in which it was issued (R361). -/
  since : Nat := 0
deriving DecidableEq, Repr, Inhabited

/-- A unit of a global read performed before its word is taken (R440): the access, the unit's number and its bytes. -/
structure Early where
  acc : Acc := {}
  unit : Nat := 0
  bits : Vec := 0
deriving DecidableEq, Repr, Inhabited

/-- A release that a store happens before (R118, R120): the core it was made on, the agents that may acquire it, and those that the
scopes of the whole chain cover; bits 15:0 are the cores, 16 the units of the logic die, 17 the MCS, NBUs and reduction engines (R111). -/
structure Passed where
  core : Nat := 0
  reach : BitVec 18 := 0
  chain : BitVec 18 := 0
deriving DecidableEq, Repr, Inhabited

/-- A store that its core's slots may already read, not yet at its visibility point (R122). -/
structure L1Store where
  slot : Nat := 0
  id : Nat := 0
  va : Nat := 0
  parts : List (Nat × Nat × BitVec 2 × Bool) := []
  data : Word := 0
  dset : BitVec 16 := 0
  pc : Word := 0
  /-- The clk in which its word was issued (R361). -/
  since : Nat := 0
  /-- Releases that it happens before (R118). -/
  out : List Passed := []
  /-- Slots with an acquire that it happens before, and the agents that the chain to it covers (R120). -/
  due : List (Nat × BitVec 18) := []
deriving DecidableEq, Repr, Inhabited

/-- An interval of the range checker (R45). -/
structure Ival where
  /-- Number of the word that holds it. -/
  owner : Nat := 0
  lo : Nat := 0
  hi : Nat := 0
  write : Bool := false
  walk : Option Int := none
  /-- Order of recording. -/
  seq : Nat := 0
deriving DecidableEq, Repr, Inhabited

/-- A completion object (R237, R238). -/
structure Co where
  /-- COCFG; 64 bits; R237; reset 0. -/
  cfg : Word := 0
  /-- Count of a local counter, or signals sent; 32 bits; R238; reset 0. -/
  count : BitVec 32 := 0
  /-- Free-slot counter; R238; reset 0. -/
  free : Nat := 0
  /-- Oldest slot not yet freed; R238; reset 0. -/
  oldest : Nat := 0
  /-- Next slot to be claimed; R238; reset 0. -/
  next : Nat := 0
  /-- One filled bit per ring slot; R250; reset 0. -/
  filled : BitVec 256 := 0
deriving DecidableEq, Repr, Inhabited

/-- What a held wait word waits for (R54, R181). -/
inductive WaitFor where
  | none
  /-- A native barrier: key and the phase count it waits to see passed (R182). -/
  | bar (key phase : Nat)
  /-- A BARG whose arrival is on its way (R183). -/
  | arrive
  /-- BARG: virtual address, physical address once it is translated, generation, and whether a re-read found another one (R183). -/
  | barg (va : Nat) (pa : Option Nat) (gen : BitVec 32) (ready : Bool)
  /-- WAITV: physical address, comparison and value; ready once a re-read satisfied it (R184). -/
  | wordv (pa : Nat) (cmp : BitVec 3) (value : Word) (ready : Bool)
  /-- WAITC: object and target (R185). -/
  | count (co target : Nat)
  /-- ABWAIT: object and ring slot (R186). -/
  | ring (co slot : Nat)
deriving DecidableEq, Repr, Inhabited

/-- A translation miss waiting for its walk, or the outcome of a walk that failed (R104, R442). -/
structure Miss where
  space : Nat := 0
  page : Nat := 0
  /-- Cause and reason of the failed walk (R439). -/
  failed : Option (Nat × Nat) := none
  /-- Order in which misses joined their walks (R442). -/
  seq : Nat := 0
deriving DecidableEq, Repr, Inhabited

/-- Who issued an operation and what its retirement does (R240, R44). -/
structure Origin where
  slot : Nat := 0
  /-- Task instance number. -/
  task : Nat := 0
  pc : Word := 0
  word : W32 := 0
  /-- Queue: 0 V, 1 M, 2 TA, 3 TH (R43). -/
  queue : Nat := 0
  tok : BitVec 4 := 0
  sbit : Bool := false
  co : Nat := 0
  /-- COCFG of the object when the operation was issued (R237), and the member index of the issuer (R30). -/
  cfg : Word := 0
  member : Nat := 0
  /-- Dispatch number, owner of its checker intervals. -/
  id : Nat := 0
  /-- Parameter block address (R275). -/
  block : Word := 0
  /-- Issued by a task, as against an engine-class task run by the TGU (R326). -/
  bySlot : Bool := true
  /-- Numbers of the writes held for its task that R123 carried to the operation when it was issued (R129). -/
  sees : List Nat := []
deriving DecidableEq, Repr, Inhabited

/-- A piece of a transfer that has passed its checks and is not yet written (R444): first unit and number of units,
source and destination bytes (physical, or by core address), and the virtual addresses translated. -/
structure Chunk where
  start : Nat := 0
  len : Nat := 0
  src : List Nat := []
  dst : List Nat := []
  gex : Bool := false
  vas : List Nat := []
  /-- Bytes read so far, by their place in the piece, and places written so far (R110). -/
  got : List (Nat × BitVec 8) := []
  put : List Nat := []
deriving DecidableEq, Repr, Inhabited

/-- Kinds of a piecewise transfer. -/
inductive XKind where
  | copySp | copyGl | ring | gath | scat | halo | push
deriving DecidableEq, Repr, Inhabited

/-- A transfer in flight: COPY, GATH, SCAT, HALO, COPY.RING or a gleaner push (R241, R257). -/
structure XOp where
  id : Nat := 0
  kind : XKind := .copySp
  org : Origin := {}
  walk : Option Int := none
  s1 : List Word := []
  s2 : List Word := []
  /-- Destination or near base register, or slot base. -/
  base : Word := 0
  /-- Slot whose window a HALO reads; slot whose ring is filled. -/
  peer : Nat := 0
  /-- Ring object and claimed slot (R250). -/
  ringCo : Nat := 0
  ringSlot : Nat := 0
  /-- Gleaner pattern scale copying (R257): SC and DSCALE. -/
  sc : Bool := false
  dscale : Nat := 0
  link : Nat := 0
  /-- Address space of its global accesses. -/
  space : Nat := 0
  /-- Units checked so far, a unit being an element or the fewest MX elements that fill bytes: the resume cursor (R444). -/
  cursor : Nat := 0
  /-- The index of the row that the cursor stands in, once read: row and value (R246). -/
  idx : Option (Nat × Int) := none
  chunks : List Chunk := []
  parked : Bool := false
  /-- Cluster barrier and phase count that a HALO waits for (R247). -/
  wait : Option (Nat × Nat) := none
deriving DecidableEq, Repr, Inhabited

/-- An M word in flight (R219): MSTEP, MDRAIN, MZERO, MPLANE or MSWAP. -/
structure MOp where
  id : Nat := 0
  org : Origin := {}
  walk : Option Int := none
  desc : Word := 0
  s1 : List Word := []
  exposed : Bool := false
  batch : Nat := 0
  /-- Rows done: activation rows of a step, accumulator rows of a drain. -/
  cursor : Nat := 0
  rows : Nat := 0
  parked : Bool := false
  /-- The row's conversions have failed and the section has been recalibrated at once (R466). -/
  forced : Bool := false
  /-- Resumed after it parked: its section must be enabled (R467). -/
  resumed : Bool := false
  /-- Restored from an image: the slot must hold its sections again (R487). -/
  restored : Bool := false
deriving DecidableEq, Repr, Inhabited

/-- A committed batch (R220): its number and the object and token its completion signals. -/
structure Batch where
  num : Nat := 0
  org : Origin := {}
deriving DecidableEq, Repr, Inhabited

/-- A pending user-level cause of a winnow operation (R404): UCAUSE and UTVAL values, and what its record names if it finds
no handler (R403): the operation, and bits 47:8 of INFO. -/
structure UPend where
  cause : Word := 0
  tval : Word := 0
  org : Origin := {}
  info : Nat := 0
deriving DecidableEq, Repr, Inhabited

/-- The private state of a task slot (R28). -/
structure Slot where
  /-- Task instance that occupies the slot; R28; reset none. -/
  task : Option Nat := none
  /-- SLOTST.STATE; 3 bits; R31, R55; reset 0 (Free). -/
  st : BitVec 3 := 0
  /-- The task runs its user-level handler, whatever STATE reports while it waits; R31, R404; reset false. -/
  handler : Bool := false
  /-- SLOTST.CLASS, own priority class; 2 bits; R52, R55; reset 0. -/
  cls : BitVec 2 := 0
  /-- Classes lent by waiters: barrier key and class; R52; reset none. -/
  lent : List (Nat × BitVec 2) := []
  /-- SLOTST.STAGE; 4 bits; R55; reset 0. -/
  stage : BitVec 4 := 0
  /-- SLOTST.LEVEL; 2 bits; R55; reset 0. -/
  level : BitVec 2 := 0
  /-- SLOTST.EXPOSED: the ESQ runs in exposed-pipeline mode; 1 bit; R55, R56; reset 0. -/
  exposed : Bool := false
  /-- Member index in the gang; R30; reset 0. -/
  member : Nat := 0
  /-- Address space number of the task; 12 bits; R99; reset 0. -/
  space : Nat := 0
  /-- Access sequencer; R28; reset ended at 0. -/
  asq : Seq := {}
  /-- Execute sequencer; R28; reset ended at 0. -/
  esq : Seq := {}
  /-- Helper sequencer; R28, R47; reset idle. -/
  helper : Helper := {}
  /-- a0 to a31, 64 bits each, a0 reads as zero; R28; reset 0. -/
  a : Map Word := []
  /-- x0 to x31, 64 bits each, x0 reads as zero; R28; reset 0. -/
  x : Map Word := []
  /-- v0 to v31, 2 048 bits each; R28, R188; reset 0. -/
  v : Map Vec := []
  /-- Stream registers s0 to s15, 22 fields of 64 bits, keyed 32 × stream + field; R95; reset 0. -/
  streams : Map Word := []
  /-- Load queues lq0 to lq3, oldest first, at most 8 entries, data none while its read is pending; R28, R165; reset empty. -/
  lq : Map (List (Nat × Option Vec)) := []
  /-- Store queues sq0 and sq1, oldest first, at most 8 entries; R28, R165; reset empty. -/
  sq : Map (List Vec) := []
  /-- V, M, TA and TH queues (keys 0 to 3), oldest first, 32, 16, 32 and 8 words; R28, R42; reset empty. -/
  queues : Map (List QEnt) := []
  /-- Token FIFO counts, keyed 4 × from + to over V, M, TA, TH; R28, R44; reset 0. -/
  tokens : Map Nat := []
  /-- Tokens reserved by words in flight, keyed as tokens; R44; reset 0. -/
  tokRes : Map Nat := []
  /-- Branch-outcome queue from the ASQ to the ESQ, oldest first, at most 32; R28, R39; reset empty. -/
  boAE : List Nat := []
  /-- Branch-outcome queue from the ESQ to the ASQ, oldest first, at most 32; R28, R39; reset empty. -/
  boEA : List Nat := []
  /-- Mask stack, top first, 1 to 16 masks of 256 bits with their recorded widths; R193, R194; reset one mask of all ones, width 8. -/
  masks : List (BitVec 256 × Nat) := [(BitVec.allOnes 256, 8)]
  /-- Completion objects co0 to co63; R237; reset unconfigured. -/
  cos : Map Co := []
  /-- SLIPW, CSR 0x010; 64 bits; R38; reset 256. -/
  slipw : Word := 256
  /-- SHAPE, CSR 0x030; 64 bits; R189; reset TYPE 0x8. -/
  shape : Word := 8
  /-- SPWIN, CSR 0x020; 64 bits; R90; reset 0. -/
  spwin : Word := 0
  /-- ACCWIN, CSR 0x021; 64 bits; R94; reset 0. -/
  accwin : Word := 0
  /-- UTVEC, CSR 0x040; 64 bits; R339; reset 0. -/
  utvec : Word := 0
  /-- UEPC, CSR 0x041; 64 bits; R339; reset 0. -/
  uepc : Word := 0
  /-- UCAUSE, CSR 0x042; 64 bits; R339; reset 0. -/
  ucause : Word := 0
  /-- UTVAL, CSR 0x043; 64 bits; R339; reset 0. -/
  utval : Word := 0
  /-- USCRATCH, CSR 0x044; 64 bits; R339; reset 0. -/
  uscratch : Word := 0
  /-- TREC0 to TREC3, CSRs 0x050 to 0x053, the slot's task record; 256 bits; R337, R318; reset 0. -/
  trec : BitVec 256 := 0
  /-- MXST bits 6:0, sticky flags OVF, UNF, SAT, INX, NANS, RCW, TAGX; 7 bits; R222; reset 0. -/
  mxst : BitVec 7 := 0
  /-- Number of the open batch; R220; reset 0. -/
  batch : Nat := 0
  /-- Committed batches not complete, oldest first; R220; reset none. -/
  batches : List Batch := []
  /-- M words in flight, in issue order; R219; reset none. -/
  mops : List MOp := []
  /-- Sections that the slot lost to a re-arbitration and has not won again; 4 bits; R216; reset 0. -/
  lostSecs : BitVec 4 := 0
  /-- Tick count of the exposed pipe; R58; reset 0. -/
  tick : Nat := 0
  /-- Results in flight of X and V words, oldest first; R58; reset none. -/
  results : List Res := []
  /-- Memory events issued and not performed, in program order; R114; reset none. -/
  pend : List Acc := []
  /-- Range-checker intervals, at most 64; R45, R46; reset none. -/
  checker : List Ival := []
  /-- The pending atomic, or store queue move, for whose completion the ASQ stands still; R168; reset none. -/
  hold : Option Nat := none
  /-- What the held wait word of the ASQ waits for; R54; reset none. -/
  waitA : WaitFor := .none
  /-- What the held wait word of the ESQ waits for; R54; reset none. -/
  waitE : WaitFor := .none
  /-- Translation misses outstanding, at most 16; R104; reset none. -/
  misses : List Miss := []
  /-- Reads of words beyond a miss of the ASQ that have been performed early; R440; reset none. -/
  early : List Early := []
  /-- Widest scope of a release or full fence of its task so far, 0 for none; R118; reset 0. -/
  rel : Nat := 0
  /-- One more than the phase in which the slot last arrived by BARA, by barrier key; R51, R182; reset none. -/
  bara : Map Nat := []
  /-- Phases of each cluster barrier the slot arrived in and saw complete; R247; reset 0. -/
  seen : Map Nat := []
  /-- Pending user-level causes, oldest first, at most 5; R404; reset none. -/
  upend : List UPend := []
  /-- Dirty bits of 4 KiB scratchpad blocks of the window; R485; reset clear. -/
  dirtySp : Map Bool := []
  /-- Dirty bits of accumulator rows of the window; R485; reset clear. -/
  dirtyAcc : Map Bool := []
  /-- A CSR write held at its rendezvous: CSR number, value and destination; R338, R239, R190; reset none. -/
  csrWait : Option (Nat × Word × BitVec 5) := none
  /-- The queue entry whose issue takes effect next, and its queue; R42; reset none. -/
  issuing : Option (QEnt × Nat) := none
  /-- Number given to the next dispatched word or memory event; MODEL numbering; reset 0. -/
  nextId : Nat := 0
  /-- clk of the slot's last progress, for the watchdog; R416; reset 0. -/
  lastAct : Nat := 0
  /-- The present stretch without progress has been reported; R416; reset false. -/
  reported : Bool := false
  /-- clk since which the victim's dispatch runs; R328; reset 0. -/
  started : Nat := 0
  /-- clk in which the last of its sequencers passed END; R409; reset 0. -/
  endAt : Nat := 0
  /-- Newcomer task for which the victim drains; R472; reset none. -/
  drainFor : Option Nat := none
deriving DecidableEq, Repr, Inhabited

/-- A core's shared state (R12). -/
structure Core where
  /-- Scratchpad, 12 MiB by core address; R12, R91; reset 0 (log entry 2). -/
  sp : Memory := []
  /-- Accumulator store, 131 072 entries of 32 bits, keyed 64 × row + entry; R93; reset 0 (log entry 1). -/
  acc : Map (BitVec 32) := []
  /-- Stores visible to the core's slots and not yet at their visibility point, oldest first; R122; reset none. -/
  l1 : List L1Store := []
  /-- Transfers in flight, at most 512; R12, R241; reset none. -/
  xops : List XOp := []
  /-- Next operation number; MODEL numbering; reset 0. -/
  nextOp : Nat := 0
  /-- Issue choice of the shared engines, keyed 4 × engine + class: the slot chosen last; R53; reset 3. -/
  last : Map Nat := []
  /-- The TA or TH queue served last by the transfer engine, by slot; R53; reset 0. -/
  alt : Map Nat := []
  /-- Busy-until clk of the vector engine's units; R209; reset 0. -/
  unitBusy : Nat := 0
  /-- Waking from a power gate; R24, R325; reset false. -/
  waking : Bool := false
  /-- clk at which the core last had a task; R372; reset 0. -/
  idleSince : Nat := 0
  /-- Copies accepted in a delivered-store window, and the number of that window; R364; reset 0. -/
  dlvAccepted : Nat := 0
  dlvWin : Nat := 0
  /-- DLVQ.REFUSED; 24 bits; R363; reset 0. -/
  dlvRefused : BitVec 24 := 0
  /-- The core's L1 has stopped answering; R133, R493; reset false. -/
  mute : Bool := false
  /-- Heartbeats missed in a row; R495; reset 0. -/
  hbMissed : Nat := 0
  /-- Epoch of the core's L1; 4 bits; R496; reset 0. -/
  epoch : BitVec 4 := 0
deriving DecidableEq, Repr, Inhabited

/-- One weight plane of a macro (R211, R215). -/
structure Plane where
  /-- 2-bit cells, keyed 256 × row + slice column; R13, R211; reset 0 (log entry 1). -/
  cells : Map (BitVec 2) := []
  /-- E8M0 scales, keyed 8 × column + block of 32 rows; R211; reset 0 (log entry 1). -/
  scales : Map (BitVec 8) := []
  /-- Plane tag; 16 bits; R215; reset 0 (log entry 1). -/
  tag : BitVec 16 := 0
  /-- The plane failed its parity check; R469; reset false. -/
  bad : Bool := false
deriving DecidableEq, Repr, Inhabited

/-- A macro: active and shadow plane (R13). -/
structure Mac where
  active : Plane := {}
  shadow : Plane := {}
deriving DecidableEq, Repr, Inhabited

/-- A native barrier of one scope and id in one cluster or of the device (R50, R51). -/
structure Barrier where
  /-- Phases completed; its low bit is the phase bit; R51; reset 0. -/
  phase : Nat := 0
  /-- Slots that have arrived in the current phase; R51; reset none. -/
  arrived : List Nat := []
deriving DecidableEq, Repr, Inhabited

/-- A section of a cluster array (R216, R217). -/
structure Section where
  /-- Slot that holds the lease; R216; reset none. -/
  holder : Option Nat := none
  /-- Uses since the grant; R216; reset 0. -/
  uses : Nat := 0
  /-- Its 256 uses are made, and a re-arbitration that could fill no waiting request lets the holder use it once more; R216;
  reset false. -/
  pass : Bool := false
  /-- Recalibration in progress; R217; reset false. -/
  recal : Bool := false
deriving DecidableEq, Repr, Inhabited

/-- A cluster (R11). -/
structure Cluster where
  /-- The 64 macros of the cluster array; R13, R211; reset 0 (log entry 1). -/
  macs : Map Mac := []
  /-- The 4 sections of the array; R13, R216; reset free. -/
  secs : Map Section := []
  /-- Lease requests waiting, oldest first: slot and mask; R216; reset none. -/
  reqs : List (Nat × BitVec 4) := []
  /-- Slot of the cluster that the section arbiter served last, 0 to 15; R216; reset 0 (DESIGN CHOICE log entry 70). -/
  lastReq : Nat := 0
  /-- ARRDIS.DIS; 4 bits; R468; reset 0. -/
  arrdis : BitVec 4 := 0
deriving DecidableEq, Repr, Inhabited

/-- A pattern of a gleaner context (R253): fields by the indices of R95 (FMT holds TYPE), SC and DSCALE. -/
structure Pattern where
  f : Map Word := []
  sc : Bool := false
  dscale : Nat := 0
deriving DecidableEq, Repr, Inhabited

/-- A gleaner context (R253). -/
structure GCtx where
  /-- Running or waiting, as against idle; R253; reset idle. -/
  run : Bool := false
  /-- Stopped at a cause; R435; reset false. -/
  stopped : Bool := false
  /-- Global address of the next command word; 64 bits; R253; reset 0. -/
  pc : Word := 0
  /-- Patterns p0 to p3; R253; reset as at GLKICK. -/
  pats : Map Pattern := []
  /-- Loop stack, 4 levels: start, words in the body, trips left; R253; reset empty. -/
  loops : List (Word × Nat × Nat) := []
  /-- Links L0 to L7: slot, object and binding task; R253; reset unbound. -/
  links : Map (Nat × Nat × Nat) := []
  /-- The GLKICK that started the list; R254; reset none. -/
  org : Origin := {}
  /-- Address space of the list; R99; reset 0. -/
  space : Nat := 0
  /-- Pushes in flight; R258; reset none. -/
  pushes : List XOp := []
  /-- A push waits for its claim: pattern and link; R257; reset none. -/
  claim : Option (Nat × Nat) := none
  /-- The words of a command that waits, as they were read; R258; reset none. -/
  cmd : Option (List (BitVec 32)) := none
  nextPush : Nat := 0
deriving DecidableEq, Repr, Inhabited

/-- One product sum that a datapath word adds: accumulator, sum, and for .MI4 the scale and the reference exponent (R271). -/
structure NAcc where
  q : Nat := 0
  p : Int := 0
  sc : Option (Nat × Nat) := none
deriving DecidableEq, Repr, Inhabited

/-- A datapath word of an NBU thread in flight (R264). -/
structure NDp where
  /-- nclk before which it does not land. -/
  due : Nat := 0
  adds : List NAcc := []
deriving DecidableEq, Repr, Inhabited

/-- An NBU thread (R263). -/
structure NThread where
  /-- Running, as against idle; R263; reset idle. -/
  run : Bool := false
  /-- n0 to n15, 32 bits, n0 reads as zero; R263; reset 0. -/
  n : Map (BitVec 32) := []
  /-- w0 and w1, 256 bits; R263; reset 0. -/
  w : Map (BitVec 256) := []
  /-- q0 to q7, 64-bit signed accumulators; R263; reset 0. -/
  q : Map Word := []
  /-- Activation buffer, 1 024 bytes; R263; reset 0. -/
  act : Memory := []
  /-- pc, word index 0 to 2 047; R263; reset 0. -/
  pc : Nat := 0
  /-- Loop stack, 2 levels: start, end, trips left; R263; reset empty. -/
  loops : List (Nat × Nat × Nat) := []
  /-- Row pointers, one per bank, unset when absent; R263; reset unset. -/
  rows : List (Nat × Nat) := []
  /-- Sticky SAT, INX, NANS in bits 0 to 2; R263; reset 0. -/
  flags : BitVec 3 := 0
  /-- Datapath words in flight; R264; reset none. -/
  dp : List NDp := []
  /-- The run's operation number; R277; reset 0. -/
  org : Nat := 0
  /-- Stopped at a cause; R436; reset false. -/
  stopped : Bool := false
deriving DecidableEq, Repr, Inhabited

/-- An NBU (R263). -/
structure Nbu where
  /-- Code store, 2 048 words; R263; reset 0 (log entry 1). -/
  code : Map W32 := []
  /-- 16 threads; R263; reset idle. -/
  threads : Map NThread := []
  /-- nclk of this NBU, whose value modulo 16 names the thread with the turn; R264; reset 0. -/
  nclk : Nat := 0
  /-- nclk until which the datapath is busy; R264; reset 0. -/
  busy : Nat := 0
  /-- Banks granted by the MCS; 4 bits; R262; reset all granted (DESIGN CHOICE log entry 71). -/
  grant : BitVec 4 := 0xF
  /-- A PREVOKE not yet acknowledged; R262, R462; reset none. -/
  revoke : Option (BitVec 4) := none
  /-- nclk of the revoke or regrant, for the timeouts; R462; reset 0. -/
  since : Nat := 0
  /-- Threads held by the last cut that have issued nothing since the regrant; 16 bits; R462; reset 0. -/
  held : BitVec 16 := 0
  /-- Open row of each bank; R265; reset closed. -/
  openRow : List (Nat × Nat) := []
  /-- Column words corrected; R262, R456; reset 0. -/
  corr : Nat := 0
deriving DecidableEq, Repr, Inhabited

/-- A command that the MCS sends to its NBUs (R262). -/
inductive McsCmd where
  | pload (nbu off : Nat) (ws : List W32) (op : Nat)
  | pactb (nbu : Nat) (threads : BitVec 16) (bytes : List (BitVec 8))
  | pstart (nbu : Nat) (threads : BitVec 16) (entry : Nat) (arg : Word) (run : Nat)
  | pgrant (nbu : Nat) (banks : BitVec 4)
  | prevoke (nbu : Nat) (banks : BitVec 4)
  | pstat (nbu : Nat)
deriving DecidableEq, Repr, Inhabited

/-- The memory-command sequencer of a channel (R280). -/
structure Mcs where
  /-- Commands to send, oldest first; R262; reset none. -/
  cmds : List McsCmd := []
  /-- PIMLD and PIMRUN operations that have reached the MCS and wait, oldest first; R276, R278; reset none. -/
  waiting : List Nat := []
  /-- Runs in flight on the channel; R281; reset none. -/
  runs : List Nat := []
  /-- MCSCTL.CUTS; 16 bits; R281; reset 0. -/
  cuts : BitVec 16 := 0
  /-- Result of the last PSTAT: done mask, flags, corrections; R262; reset 0. -/
  stat : BitVec 16 × BitVec 3 × Nat := (0, 0, 0)
  /-- ECCST; 64 bits; R458; reset 0. -/
  eccst : Word := 0
  /-- ECCADDR; 64 bits; R458; reset 0. -/
  eccaddr : Word := 0
  /-- Next column word of the patrol; R457; reset 0. -/
  patrol : Nat := 0
deriving DecidableEq, Repr, Inhabited

/-- Kinds of an operation run outside the cores. -/
inductive EKind where
  | attn | pimld | pimrun | reduce | sample | wnstep
deriving DecidableEq, Repr, Inhabited

/-- An operation run outside the cores (R275, R290). -/
structure EOp where
  kind : EKind := .attn
  org : Origin := {}
  space : Nat := 0
  /-- Parked by a cause (R448, R461, R471). -/
  parked : Bool := false
  /-- Engine number of a REDUCE (R287). -/
  engine : Nat := 0
  /-- Parameter block as read once after it left the queue (R275). -/
  blk : List (BitVec 8) := []
  /-- The block has been read and checked. -/
  read : Bool := false
  /-- Words of a PIMLD, read once (R276). -/
  data : List (BitVec 8) := []
  /-- Channels that a PIMLD or run has not reached. -/
  chans : BitVec 32 := 0
  /-- NBUs on which a PIMLD or run is still to be applied or to start. -/
  todo : List Nat := []
  /-- NBUs on which the run has started. -/
  started : List Nat := []
  /-- NBUs on which a thread of the run has stopped (R461). -/
  stops : List Nat := []
  /-- Flags of the run's threads that have passed NDONE, and its corrected column words (R279). -/
  flags : BitVec 3 := 0
  corr : Nat := 0
  /-- How far the operation has come: units done of a REDUCE, 1 once a run's status word is written. -/
  phase : Nat := 0
  /-- Bytes it will write: virtual and physical address, length and GEX, as translated before its first write (R448). -/
  dsts : List (Nat × Nat × Nat × Bool) := []
  /-- Retries and first clk of an absent KV block (R298, R471). -/
  retries : Nat := 0
  absentAt : Option Nat := none
  /-- The clk of its last try (R298). -/
  tried : Nat := 0
deriving DecidableEq, Repr, Inhabited

/-- A context of the winnow engine (R306). -/
structure WCtx where
  /-- Grammar slot bound by INIT, none while unbound; R306; reset unbound. -/
  slot : Option Nat := none
  /-- State; 12 bits; R306; reset 0. -/
  state : Nat := 0
  /-- Stack of symbols, top first, at most 64; R306; reset empty. -/
  stack : List Nat := []
deriving DecidableEq, Repr, Inhabited

/-- A write held in a guarded write set (R129). -/
inductive Held where
  | bytes (pa : Nat) (data : List (BitVec 8))
  | deliver (pa : Nat) (data : List (BitVec 8)) (dset : BitVec 16)
  | redw (pa : Nat) (op : BitVec 4) (fmt : BitVec 2) (operand : Word) (pc : Word) (va : Nat)
  | add1 (pa va : Nat)
deriving DecidableEq, Repr, Inhabited

/-- A held write in its write set, and how far R123 has carried it to operations of the task. -/
structure HeldEnt where
  w : Held := .bytes 0 []
  num : Nat := 0
  /-- The operation that wrote it; none for a store of the ASQ. -/
  op : Option Origin := none
  /-- That operation has retired. -/
  done : Bool := false
  /-- One more than the widest agent scope to which it is carried; 0 for none. -/
  reach : Nat := 0
deriving DecidableEq, Repr, Inhabited

/-- Where a task instance stands. -/
inductive InstSt where
  | pooled | running | engine | parked | saved | restoring | stopped | retired | gone
deriving DecidableEq, Repr, Inhabited

/-- A task instance: its record (R318) and what the TGU keeps of it (R331, R333, R410). -/
structure Inst where
  type : Nat := 0
  graph : Nat := 0
  bank : Bool := false
  stage : Nat := 0
  cut : Nat := 0
  x : Nat := 0
  y : Nat := 0
  z : Nat := 0
  sctr : Nat := 0
  replay : Nat := 0
  /-- Node of the graph, none for a spawned task (R346). -/
  node : Option Nat := none
  st : InstSt := .pooled
  /-- Order of entry to the pool (R324). -/
  entry : Nat := 0
  /-- Slots of its members, in member order (R29). -/
  slots : List Nat := []
  /-- First image chunk of each member, when saved (R473). -/
  images : List Nat := []
  guarded : Bool := false
  irrevocable : Bool := false
  /-- Guarded write set in program order (R129), and the number of its next entry. -/
  ents : List HeldEnt := []
  nextEnt : Nat := 0
  /-- Producer: PUB, bound, FIN, FROZEN (R331). -/
  pub : Nat := 0
  bound : BitVec 32 := 0
  fin : Bool := false
  frozen : Bool := false
  /-- Physical pieces of the tile window, once read (R330): address and length. -/
  window : Option (List (Nat × Nat)) := none
  /-- Consumer: input edges on which it has voted (R334). -/
  votes : List Nat := []
  /-- Producer: its first published cut (R332). -/
  firstCut : Nat := 0
  /-- New cut waiting for an irrevocable instance to retire (R332). -/
  nextCut : Option Nat := none
  /-- Operation of an engine-class task (R326). -/
  op : Option Nat := none
  /-- The task is stopped at a fault and waits for an action (R407). -/
  faulted : Bool := false
  /-- It has been started once (R320). -/
  begun : Bool := false
  /-- MODEL: what an image has no place for, by member: the slot as it was saved (R473), and its transfers (R474). -/
  shadow : List (Nat × Slot) := []
  savedOps : List XOp := []
  /-- Barriers the members stand in, as saved: member, key, phase count, and whether the member has arrived (R477). -/
  savedBars : List (Nat × Nat × Nat × Bool) := []
  /-- Tokens posted while the image is stored, by member and FIFO (R476). -/
  lateTok : List (Nat × Nat) := []
  /-- Delegable causes met while the image is stored, by member (R476). -/
  lateUp : List (Nat × UPend) := []
deriving DecidableEq, Repr, Inhabited

/-- A launch in the launch queue (R319, R320). -/
structure Launch where
  graph : Nat := 0
  publish : Bool := false
  irq : Bool := false
  nrep : Nat := 0
  stop : Nat := 0
  done : Nat := 0
  active : Bool := false
  started : Nat := 0
  settled : Nat := 0
  /-- STOP was found set, or an ABORT stopped the graph: nothing more starts (R320). -/
  closed : Bool := false
deriving DecidableEq, Repr, Inhabited

/-- A replay of a graph (R320, R321). -/
structure Replay where
  graph : Nat := 0
  num : Nat := 0
  bank : Bool := false
  settled : Bool := false
  /-- Relative edges whose item the producer's first dispatch has taken (R323). -/
  items : List Nat := []
  /-- Counters that reached 0 in this replay (R315, R322). -/
  counters : List Nat := []
  /-- Instances already made: node and linear index. -/
  made : List (Nat × Nat) := []
deriving DecidableEq, Repr, Inhabited

/-- A loaded graph (R312, R368). -/
structure Graph where
  /-- The descriptor's 64 bytes; R312; reset unloaded. -/
  desc : BitVec 512 := 0
  cur : Bool := false
  pubreq : Bool := false
  aborted : Bool := false
  /-- Replays started since load (R320). -/
  count : Nat := 0
  /-- Pre-emption token pool (R327). -/
  pool : Nat := 0
deriving DecidableEq, Repr, Inhabited

/-- The task graph unit (R311). -/
structure Tgu where
  /-- Resident graphs by id; R311; reset none. -/
  graphs : List (Nat × Graph) := []
  /-- FREE of each edge entry; R323; reset 0, SLOTS at load. -/
  edgeFree : Map Nat := []
  /-- Launch queue, oldest first, at most 64; R311, R320; reset empty. -/
  launches : List Launch := []
  /-- Launch records held at the full port, oldest first; R319; reset none. -/
  port : List (BitVec 512) := []
  /-- Replays not forgotten; R320; reset none. -/
  replays : List Replay := []
  /-- Task instances by number; R318; reset none. -/
  insts : List (Nat × Inst) := []
  nextInst : Nat := 0
  nextEntry : Nat := 0
  /-- The clk for which the next two fields count, how far APPLY_EVENTS has come in it, and the tasks dispatched in it; R324;
  reset 0. -/
  evClk : Nat := 0
  evRank : Nat := 0
  evDisp : Nat := 0
  /-- Pre-emption requests acknowledged with nothing to pre-empt: newcomer, victim and clk; R409; reset none. -/
  spared : List (Nat × Nat × Nat) := []
  /-- Counter signals on their way: who signals, graph, replay and counter index; R315; reset none. -/
  sigs : List (Origin × Nat × Nat × Nat) := []
  /-- LQST.DROP; 16 bits; R368; reset 0. -/
  drop : BitVec 16 := 0
  /-- GCMDST; 64 bits; R368; reset 0. -/
  gcmdst : Word := 0
  /-- GCMD command accepted and running; R368; reset none. -/
  gcmd : Option Word := none
  /-- Save pool: chunks in use, with the instance whose image they hold; R478, R479; reset none. -/
  used : List (Nat × Nat) := []
  /-- SAVEPOOL; 64 bits; R478; reset 0. -/
  savepool : Word := 0
  /-- The barrier tree: barriers keyed 1 024 × scope + 32 × unit + id; R50, R51; reset phase 0. -/
  bars : Map Barrier := []
deriving DecidableEq, Repr, Inhabited

/-- A fault record waiting or written (R413, R414). -/
structure FRec where
  cause : Nat := 0
  kind : Nat := 0
  src : Nat := 0
  gstat : Nat := 0
  place : Nat := 0
  unit : Nat := 0
  pc : Word := 0
  val : Word := 0
  info : Word := 0
  task : BitVec 256 := 0
deriving DecidableEq, Repr, Inhabited

/-- What a written record still names (R415). -/
inductive FTarget where
  | none
  | task (inst : Nat)
  | xfer (core id : Nat)
  | push (ctx id : Nat)
  | mop (slot id : Nat)
  | eop (id : Nat)
  | ctx (ctx : Nat)
deriving DecidableEq, Repr, Inhabited

/-- The fault queue (R412, R413). -/
structure FaultQ where
  /-- 256 records of 64 bytes, with their targets; R412; reset zero. -/
  recs : Map (FRec × FTarget) := []
  /-- FQHEAD.HEAD; 8 bits; R412; reset 0. -/
  head : BitVec 8 := 0
  /-- FQTAIL.TAIL; 8 bits; R412; reset 0. -/
  tail : BitVec 8 := 0
  /-- FQSTAT.LOST; 32 bits; R412; reset 0. -/
  lost : BitVec 32 := 0
  /-- Fault records waiting for a free entry, oldest first; R413; reset none. -/
  waiting : List (FRec × FTarget) := []
  /-- FQSTAT.BADACT; 1 bit; R412; reset 0. -/
  badact : Bool := false
  /-- Slots, as in WHERE, for which an asynchronous cause has been recorded, and the clk; the order of R409; reset none. -/
  asyncs : List (Nat × Nat) := []
deriving DecidableEq, Repr, Inhabited

/-- Token state of a line, as far as it is not "the home holds all, clean" (R361). -/
structure LineCo where
  /-- Tokens held by cores: core and count. -/
  tok : List (Nat × Nat) := []
  /-- Core that holds the owner token, none for the home. -/
  owner : Option Nat := none
  /-- While dirty in an L1: the home's copy, last written back (R496). -/
  home : Option (List (BitVec 8)) := none
  /-- The host filter lists the line (R358). -/
  host : Bool := false
  /-- The host's copy may be modified (R358). -/
  hostMod : Bool := false
  /-- A BISnpInv is outstanding (R358). -/
  bisnp : Bool := false
  /-- A BISnpData is outstanding (R358). -/
  bisnpD : Bool := false
  /-- Cores whose transient request has been retried by broadcast and found too few tokens (R361). -/
  retried : List Nat := []
  /-- Persistent requests: core and clk of activation, oldest first (R361). -/
  preq : List (Nat × Nat) := []
  /-- Probe sent at this clk by lease expiry, and agents that have not acknowledged (R494). -/
  probe : Option (Nat × List Nat) := none
deriving DecidableEq, Repr, Inhabited

/-- A delivered copy on its way (R164, R364): receiving core, line, issuing core, slot and pending store. -/
structure Offer where
  core : Nat := 0
  line : Nat := 0
  issuer : Nat := 0
  slot : Nat := 0
  id : Nat := 0
  /-- The clk in which it was sent (R364). -/
  clk : Nat := 0
deriving DecidableEq, Repr, Inhabited

/-- An entry of a translation tier (R104): space, page base and leaf. -/
structure TlbEnt where
  space : Nat := 0
  base : Nat := 0
  size : Nat := 0
  pte : Word := 0
deriving DecidableEq, Repr, Inhabited

/-- A layout command (R286). -/
structure LCmd where
  cmd : Nat := 0
  g : Nat := 0
  g2 : Nat := 0
  addr : Nat := 0
  /-- Next logical page. -/
  page : Nat := 0
deriving DecidableEq, Repr, Inhabited

/-- The layout engine (R282 to R286). -/
structure Layout where
  /-- Commands queued or running, oldest first, at most 16; R286; reset none. -/
  cmds : List LCmd := []
  /-- LCST.DONE; 16 bits; R286; reset 0. -/
  done : BitVec 16 := 0
  /-- LCST.BAD; 1 bit; R286; reset 0. -/
  bad : Bool := false
  /-- LCST.FULL; 1 bit; R286; reset 0. -/
  full : Bool := false
  /-- RESTRIPE in progress or stopped: g, g2 and pages already at g2; R285, R463; reset none. -/
  gen : List (Nat × Nat × Nat) := []
  /-- REQUANT in progress or stopped: h and pages already swapped; R285; reset none. -/
  zero : List (Nat × Nat) := []
deriving DecidableEq, Repr, Inhabited

/-- Power, supply, boot and link state (R371 to R377, R493 to R501). -/
structure Pkg where
  /-- PWRST.STATE; 3 bits; R371, R373; reset 0. -/
  power : BitVec 3 := 0
  /-- An exit to S0 is in progress; R372; reset false. -/
  exiting : Bool := false
  /-- PWRST.THR and the duty in sixteenths; R374; reset 0 and 16. -/
  thr : Bool := false
  duty : Nat := 16
  /-- PWRST.GATED; 16 bits; R373; reset 0xFFFF. -/
  gated : BitVec 16 := 0xFFFF
  /-- PWRST.SAGCNT; 32 bits; R373; reset 0. -/
  sagcnt : BitVec 32 := 0
  /-- clk periods are lengthened; R375; reset false. -/
  sag : Bool := false
  /-- Logic-die clocks stopped by a critical supply; R500; reset false. -/
  stopped : Bool := false
  /-- Boot phase: 0 off, 1 ROM in recovery, 2 firmware started, 3 firmware ready; R376, R501; reset 0. -/
  boot : Nat := 0
  /-- BOOTST; 64 bits; R501; reset 0. -/
  bootst : Word := 0
  /-- Capability FWVER of the running firmware; 32 bits; R365; reset 0. -/
  fwver : BitVec 32 := 0
  /-- MR0 to MR3; 256 bits each; R366, R376; reset 0 (log entry 1). -/
  mr : Map (BitVec 256) := []
  /-- MBST.BUSY and RESULT; R367; reset 0. -/
  mbBusy : Bool := false
  /-- The command that runs, as MBCMD held it when DOORBELL was rung; R367; reset 0. -/
  mbCmd : Word := 0
  mbDone : Bool := false
  mbResult : BitVec 8 := 0
  /-- SPDM responses sent, newest first: request by its place in R377's list, 7 for ERROR, and bytes; R377; reset none. -/
  spdm : List (Nat × List (BitVec 8)) := []
  /-- MSI-X messages sent, newest first: vector; R356; reset none. -/
  msix : List Nat := []
  /-- Completions of host reads, newest first: offset, data, poison; R358; reset none. -/
  reads : List (Nat × List (BitVec 8) × Bool) := []
  /-- The host filter: lines with a copy granted to the host, oldest first, at most 131 072; R358; reset none. -/
  hostFilter : List Nat := []
  /-- LINKST.UP; 1 bit; R499; reset 0. -/
  linkUp : Bool := false
  /-- The host has trained the link to an earlier CXL revision, and sees CXL.io only; R354; reset false. -/
  cxlOld : Bool := false
  /-- The host's epoch; 4 bits; R496; reset 0. -/
  hostEpoch : BitVec 4 := 0
  /-- Ranges of the host window, first byte and length, that are memory of peers and reached by UIO; R357; reset none. -/
  peers : List (Nat × Nat) := []
  /-- The host enables the link state L1.2; R354, R372; reset false. -/
  l12 : Bool := false
  /-- clk since which the link is down; R499; reset none. -/
  downAt : Option Nat := none
  /-- LINKST.CORR; 32 bits; R499; reset 0. -/
  corr : BitVec 32 := 0
  /-- LINKST.RETRAIN; 16 bits; R499; reset 0. -/
  retrain : BitVec 16 := 0
  /-- LINKST.FENCED; 1 bit; R497, R499; reset 0. -/
  fenced : Bool := false
  /-- Host heartbeats missed; R495; reset 0. -/
  hbMissed : Nat := 0
  /-- DEADST.CORE; 16 bits; R497; reset 0. -/
  deadCores : BitVec 16 := 0
  /-- DEADST.LOSTLN; 16 bits; R497; reset 0. -/
  lostln : BitVec 16 := 0
  /-- RSTCAUSE; 8 bits; R500; reset 0. -/
  rstcause : BitVec 8 := 0
  /-- Silent drops are held since this clk; R498; reset none. -/
  stormAt : Option Nat := none
  /-- Lines of host memory whose next CXL.cache read times out or comes poisoned, with the reason; R499; reset none. -/
  hostPoison : List (Nat × Nat) := []
deriving DecidableEq, Repr, Inhabited

/-- The management core (R353, R431). -/
structure Mgmt where
  /-- Program counter; 64 bits; R353; reset 0 (log entry 1). -/
  pc : Word := 0
  /-- Registers x0 to x31; 64 bits; R336; reset 0 (log entry 1). -/
  x : Map Word := []
  /-- Return stack, top first, at most 16 entries of 64 bits; R177; reset empty (log entry 58). -/
  ret : List Word := []
  /-- Loop stack, innermost first, at most 8 levels; R178; reset empty (log entry 58). -/
  loops : List LoopLv := []
  /-- Address saved at entry to its supervisor handler; 64 bits; R353; reset 0 (log entry 1). -/
  epc : Word := 0
  /-- Privilege saved at entry; 1 bit; R353; reset 0 (log entry 1). -/
  epriv : Bool := false
  /-- Present privilege; 1 bit; R353; reset supervisor (log entry 1). -/
  priv : Bool := true
  /-- Cause taken by its own handler last; 8 bits; R431; reset 0. -/
  cause : Nat := 0
  /-- Handler address; 64 bits; R431; reset 0 (log entry 1). -/
  vec : Word := 0
  /-- Fetch stopped by HALT; R353; reset false. -/
  halted : Bool := false
deriving DecidableEq, Repr, Inhabited

/-- The kinds of agent that take words. -/
inductive Agent where
  | core | glean | nbu | mgmt
deriving DecidableEq, Repr, Inhabited

/-- MODEL: which agent the present step belongs to, and whether it takes a word or issues it from its queue. -/
structure Sel where
  kind : Agent := .core
  slot : Nat := 0
  party : Party := .asq
  issue : Bool := false
  ctx : Nat := 0
  nbu : Nat := 0
  thread : Nat := 0
  /-- The word being taken, and its address. -/
  word : W32 := 0
deriving DecidableEq, Repr, Inhabited

/-- The state of the machine. -/
structure State where
  /-- Part grade: false Z9-256, true Z9-128; R1, R365; reset false (DESIGN CHOICE false, log entry 6). -/
  z128 : Bool := false
  /-- Main clock count; R4; reset 0. -/
  clk : Nat := 0
  /-- Physical memory: PMD memory and host memory by device physical address; R260, R357; reset nothing listed (DESIGN CHOICE 0, log entry 2). -/
  mem : Memory := []
  /-- Bits of column words in error, by column word: positions of R456; reset none. -/
  flips : Map (List Nat) := []
  /-- 64-byte lines poisoned in the LLC; R459; reset none. -/
  poison : List Nat := []
  /-- Token and sharing state of lines; R358, R361; reset all at home. -/
  lines : Map LineCo := []
  /-- Die directory entries: 512-byte region and mask of clusters; R362; reset none. -/
  dir : Map (BitVec 4) := []
  /-- Cluster filter entries, keyed 4 × line + cluster: mask of cores; R362; reset none. -/
  filt : Map (BitVec 4) := []
  /-- Regions flagged LOST; R496; reset none. -/
  lostReg : List Nat := []
  /-- Delivered copies on their way; R164; reset none. -/
  offers : List Offer := []
  /-- The 64 task slots, keyed 4 × core + slot; R12, R28; reset free. -/
  slots : Map Slot := []
  /-- The 16 cores; R11, R12; reset idle. -/
  cores : Map Core := []
  /-- The 4 clusters; R11; reset idle. -/
  clusters : Map Cluster := []
  /-- The 256 gleaner contexts, keyed 8 × gleaner + context; R253; reset idle. -/
  gctx : Map GCtx := []
  /-- The NBUs by global number; R15, R263; reset idle. -/
  nbus : Map Nbu := []
  /-- The 32 memory-command sequencers; R11, R280; reset idle. -/
  mcs : Map Mcs := []
  /-- Operations run outside the cores, by number; R275, R290; reset none. -/
  eops : List (Nat × EOp) := []
  nextEop : Nat := 0
  /-- Requests of the reduction engines 0 to 3 in arrival order; R287; reset none. -/
  redQ : Map (List Nat) := []
  /-- Requests of the sampling engine in arrival order; R301; reset none. -/
  sampQ : List Nat := []
  /-- Requests of the winnow engine in arrival order; R306; reset none. -/
  winQ : List Nat := []
  /-- Grammar slots 0 to 15: the descriptor loaded; R306; reset unloaded. -/
  grams : List (Nat × BitVec 512) := []
  /-- Winnow contexts 0 to 63; R306; reset unbound. -/
  wctx : Map WCtx := []
  /-- Mask cache lines of 512 bits: grammar slot, state, top, line index, data; R306; reset empty. -/
  mcache : List (Nat × Nat × Nat × Nat × BitVec 512) := []
  /-- Translation tiers: 0 shared, 1 + slot the slot TLBs, 100 + n the engine TLBs; R104; reset empty. -/
  tlbs : Map (List TlbEnt) := []
  /-- A TINV of the management core under way: mode, address and space; R352; reset none. -/
  tinv : Option (BitVec 2 × Nat × Nat) := none
  /-- Order number of the next translation miss; R442, MODEL numbering; reset 0. -/
  nextMiss : Nat := 0
  /-- MODEL: lines that an engine's walk of this step may not read yet, so that the step is put off; R105; none between steps. -/
  walkStop : Option (List Nat) := none
  /-- The TINV that TINVCMD started, as tinv; TINVCMD.BUSY says that there is one; R369; reset none. -/
  tinvCmd : Option (BitVec 2 × Nat × Nat) := none
  /-- The task graph unit; R311; reset empty. -/
  tgu : Tgu := {}
  /-- The layout engine; R282; reset idle. -/
  layout : Layout := {}
  /-- The fault queue; R412; reset empty. -/
  fq : FaultQ := {}
  /-- RW registers, tables and descriptors of the privileged view by 8-byte index of BAR0; R366; reset as each register map says. -/
  priv : Map Word := []
  /-- Power, supply, boot, link and host-visible state; R371, R376, R499; reset as each register map says. -/
  pkg : Pkg := {}
  /-- The management core; R11, R353; reset log entry 1. -/
  mgmt : Mgmt := {}
  /-- MODEL: turns to be taken next, first first; when empty the turn is free (log entry 3). -/
  sched : List Turn := []
  /-- MODEL: counter of free turns (log entry 3). -/
  choice : Nat := 0
  /-- MODEL: counter of open values (log entry 4). -/
  free : Nat := 0
  /-- MODEL: the agent of the present step. -/
  sel : Sel := {}
deriving DecidableEq, Repr, Inhabited

/-- The machine right after reset: every field at the value its register map or its log entry gives. -/
def State.reset : State := {}

end Sys2Proof.Machine
end

