-- ==== Sys2Proof/Machine/Ops.lean ====
section
/-! DEFINITION. The named operations over the state: sparse maps, bytes of memory, the units' accessors, the
registers of the privileged view at reset, fault records, and the two ways a task is interrupted: entry to its own
handler and return from it (R340, R341), and the fault stop (R407).
Readings and choices of the model: DESIGN CHOICE log entries 1, 2, 4, 6, 44; DEDUCED log entries 12, 41. -/

namespace Sys2Proof.Machine

/-- A step that goes on with state s. -/
abbrev ok (s : State) : Host.Outcome State Fault Refusal := .next s

/-! ### Sparse maps -/

/-- The value at key k, d where the map lists none. -/
def mget {α : Type} (d : α) : Map α → Nat → α
  | [], _ => d
  | (j, v) :: m, k => if k = j then v else mget d m k

/-- The map without key k. -/
def merase {α : Type} : Map α → Nat → Map α
  | [], _ => []
  | (j, v) :: m, k => if k = j then merase m k else (j, v) :: merase m k

/-- Puts k before the first larger key. -/
def mput {α : Type} : Map α → Nat → α → Map α
  | [], k, v => [(k, v)]
  | (j, w) :: m, k, v => if k < j then (k, v) :: (j, w) :: m else (j, w) :: mput m k v

/-- The map with v at key k; the default d is not listed. -/
def mset {α : Type} [DecidableEq α] (d : α) (m : Map α) (k : Nat) (v : α) : Map α :=
  if v = d then merase m k else mput (merase m k) k v

/-- The canonical form: keys strictly rising, no entry equal to d. -/
def mwf {α : Type} [DecidableEq α] (d : α) : Map α → Bool
  | [] => true
  | [(_, v)] => decide (v ≠ d)
  | (j, v) :: (k, w) :: m => decide (v ≠ d) && decide (j < k) && mwf d ((k, w) :: m)

/-! ### Memory -/

/-- The canonical form of a memory (log entry 2). -/
def Memory.wf (m : Memory) : Bool := mwf (0 : BitVec 8) m

/-- One byte. -/
def byteAt (m : Memory) (a : Nat) : Byte := mget 0 m a

/-- Writes one byte. -/
def setByte (m : Memory) (a : Nat) (b : Byte) : Memory := mset 0 m a b

/-- n bytes from a on, lowest address first. -/
def readBytes (m : Memory) (a : Nat) : Nat → List Byte
  | 0 => []
  | n + 1 => byteAt m a :: readBytes m (a + 1) n

/-- Writes a run of bytes from a on. -/
def writeBytes (m : Memory) (a : Nat) : List Byte → Memory
  | [] => m
  | b :: bs => writeBytes (setByte m a b) (a + 1) bs

/-- The little-endian value of a run of bytes (R5). -/
def leNat : List Byte → Nat
  | [] => 0
  | b :: bs => b.toNat + 256 * leNat bs

/-- The n little-endian bytes of a value (R5). -/
def leBytes (v : Nat) : Nat → List Byte
  | 0 => []
  | n + 1 => BitVec.ofNat 8 v :: leBytes (v / 256) n

/-- The little-endian value of n bytes of a memory. -/
def readLe (m : Memory) (a n : Nat) : Nat := leNat (readBytes m a n)

/-- Writes the n little-endian bytes of a value. -/
def writeLe (m : Memory) (a n v : Nat) : Memory := writeBytes m a (leBytes v n)

/-! ### Bit fields -/

/-- Bits h to l of a value (R8). -/
def bits (v h l : Nat) : Nat := v / 2 ^ l % 2 ^ (h + 1 - l)

/-- One bit of a value. -/
def bit (v i : Nat) : Bool := v / 2 ^ i % 2 = 1

/-- The signed value of the low n bits. -/
def sext (n v : Nat) : Int :=
  let u := v % 2 ^ n
  if 2 * u < 2 ^ n then (u : Int) else (u : Int) - (2 : Int) ^ n

/-- A 64-bit register from an exact integer, modulo 2^64 (R68). -/
def wordOf (i : Int) : Word := BitVec.ofInt 64 i

/-! ### Units -/

def State.slot (s : State) (k : Nat) : Slot := mget {} s.slots k
def State.setSlot (s : State) (k : Nat) (v : Slot) : State := { s with slots := mset {} s.slots k v }
def State.modSlot (s : State) (k : Nat) (f : Slot → Slot) : State := s.setSlot k (f (s.slot k))
def State.core (s : State) (k : Nat) : Core := mget {} s.cores k
def State.setCore (s : State) (k : Nat) (v : Core) : State := { s with cores := mset {} s.cores k v }
def State.modCore (s : State) (k : Nat) (f : Core → Core) : State := s.setCore k (f (s.core k))
def State.cluster (s : State) (k : Nat) : Cluster := mget {} s.clusters k
def State.setCluster (s : State) (k : Nat) (v : Cluster) : State := { s with clusters := mset {} s.clusters k v }
def State.ctx (s : State) (k : Nat) : GCtx := mget {} s.gctx k
def State.setCtx (s : State) (k : Nat) (v : GCtx) : State := { s with gctx := mset {} s.gctx k v }
def State.nbu (s : State) (k : Nat) : Nbu := mget {} s.nbus k
def State.setNbu (s : State) (k : Nat) (v : Nbu) : State := { s with nbus := mset {} s.nbus k v }
def State.chan (s : State) (k : Nat) : Mcs := mget {} s.mcs k
def State.setChan (s : State) (k : Nat) (v : Mcs) : State := { s with mcs := mset {} s.mcs k v }
def State.lineCo (s : State) (l : Nat) : LineCo := mget {} s.lines l
def State.setLine (s : State) (l : Nat) (v : LineCo) : State := { s with lines := mset {} s.lines l v }

/-- The value listed under a number in a list of numbered values. -/
def lookupN {α : Type} (l : List (Nat × α)) (k : Nat) : Option α :=
  match l with
  | [] => none
  | (j, v) :: m => if k = j then some v else lookupN m k

/-- A task instance. -/
def State.inst (s : State) (t : Nat) : Inst := (lookupN s.tgu.insts t).getD { st := .gone }
def State.setInst (s : State) (t : Nat) (v : Inst) : State :=
  { s with tgu := { s.tgu with insts := mput (merase s.tgu.insts t) t v } }

/-- The core of a slot number (4 × core + slot), and its cluster (R11). -/
def coreOf (k : Nat) : Nat := k / 4
def clusterOf (k : Nat) : Nat := k / 16

/-- A value the spec leaves open, and the state that has used it (log entry 4). -/
def State.takeFree (s : State) : Word × State := (Config.freeWord s.free, { s with free := s.free + 1 })
/-- A choice of one of n that the spec leaves open. -/
def State.chooseOf (s : State) (n : Nat) : Nat × State :=
  if n ≤ 1 then (0, s) else (s.takeFree.1.toNat % n, s.takeFree.2)

/-! ### Registers of the privileged view -/

/-- The 8-byte register or table word at a byte offset of BAR0, as reset leaves it: the reset columns of
R363, R281, R458, R368, R373, R412, R471 and R493; every other word is 0. -/
def regReset (z128 : Bool) (off : Nat) : Word :=
  if off = 0x020000 then BitVec.ofNat 64 (15000 * 2 ^ 32)
  else if 0x080000 ≤ off ∧ off < 0x090000 ∧ off % 0x1000 = 0 then BitVec.ofNat 64 (256 * 2 ^ 12 + 64)
  else if 0x100000 ≤ off ∧ off < 0x102000 ∧ off % 0x100 = 0 then
    BitVec.ofNat 64 (80 * 2 ^ 40 + (if z128 then 0x0F else 0xFF) * 2 ^ 24)
  else if 0x100000 ≤ off ∧ off < 0x102000 ∧ off % 0x100 = 0x18 then BitVec.ofNat 64 (24 * 2 ^ 8 + 1)
  else if off = 0x120000 then BitVec.ofNat 64 (10 * 2 ^ 16 + 120 * 2 ^ 8)
  else if off = 0x130000 then BitVec.ofNat 64 (8 * 2 ^ 20 + 4 * 2 ^ 8)
  else if off = 0x130030 then BitVec.ofNat 64 (10 * 2 ^ 12)
  else if off = 0x130060 then BitVec.ofNat 64 (100 * 2 ^ 32 + 3 * 2 ^ 28 + 10 * 2 ^ 16 + 6 * 2 ^ 12 + 4 + 1)
  else 0

/-- The stored word at a byte offset of BAR0 (a multiple of 8). -/
def State.reg (s : State) (off : Nat) : Word := mget (regReset s.z128 off) s.priv (off / 8)
def State.setReg (s : State) (off : Nat) (v : Word) : State :=
  { s with priv := mset (regReset s.z128 off) s.priv (off / 8) v }

/-- n bytes of a table of the privileged view, as a number: n a multiple of 8 at an aligned offset. -/
def State.table (s : State) (off : Nat) : Nat → Nat
  | 0 => 0
  | n + 1 => (s.reg off).toNat + 2 ^ 64 * s.table (off + 8) n

/-- Task-type entry i as one 64-byte number (R316), node, edge and counter entries (R313 to R315). -/
def State.typeEnt (s : State) (i : Nat) : Nat := s.table (0x040000 + 64 * i) 8
def State.nodeEnt (s : State) (i : Nat) : Nat := s.table (0x050000 + 16 * i) 2
def State.edgeEnt (s : State) (i : Nat) : Nat := s.table (0x060000 + 8 * i) 1
def State.ctrEnt (s : State) (i : Nat) : Nat := s.table (0x200000 + 16 * i) 2

/-- Byte b of a little-endian structure held as a number, and n bytes from b on. -/
def fieldOf (v b n : Nat) : Nat := v / 256 ^ b % 256 ^ n

/-- PMD capacity, dies per PMD, NBU count and the ranges of R357, R365. -/
def State.cap (s : State) : Nat := if s.z128 then 2 ^ 37 else 2 ^ 38
def State.dies (s : State) : Nat := if s.z128 then 4 else 8
def State.nnbu (s : State) : Nat := if s.z128 then 128 else 256
def pmdBase : Nat := 0x0100000000000000
def strBase : Nat := 0x0180000000000000
def privBase : Nat := 0x01FFFFFFFE000000
def unprivBase : Nat := 0x01FFFFFFFFFF0000
def hostTop : Nat := 0x000FFFFFFFFFFFFF

/-- Scratchpad window of a slot: its base byte and its size in bytes (R90). -/
def Slot.spBase (sl : Slot) : Nat := bits sl.spwin.toNat 7 0 * 49152
def Slot.spSize (sl : Slot) : Nat := bits sl.spwin.toNat 24 16 * 49152
/-- Accumulator window: its base row and its rows (R94). -/
def Slot.accBase (sl : Slot) : Nat := bits sl.accwin.toNat 6 0 * 16
def Slot.accRows (sl : Slot) : Nat := bits sl.accwin.toNat 23 16 * 16

/-! ### Fault queue -/

/-- FQCTL.IE (R412). -/
def State.fqIe (s : State) : Bool := bit (s.reg 0x130000).toNat 0

/-- The queue holds 255 records (R413). -/
def FaultQ.full (q : FaultQ) : Bool := q.tail + 1 == q.head

/-- Writes a record at TAIL, advances TAIL, and sends vector 1 when the queue was empty and IE is 1 (R413). -/
def pushRecord (r : FRec) (t : FTarget) (s : State) : State :=
  let q := s.fq
  let s := { s with fq := { q with recs := mset ({}, .none) q.recs q.tail.toNat (r, t), tail := q.tail + 1 } }
  if q.tail = q.head ∧ s.fqIe then { s with pkg := { s.pkg with msix := 1 :: s.pkg.msix } } else s

/-- Notes the clk of an asynchronous cause that names a slot, after which the slot stops for no other in that clk (R409). -/
def noteAsync (r : FRec) (s : State) : State :=
  if r.kind = 1 ∧ r.place ≠ 0 then
    { s with fq := { s.fq with asyncs := (r.place, s.clk) :: s.fq.asyncs.filter (·.2 == s.clk) } }
  else s

/-- A fault record: written, or waiting while the queue is full (R413). -/
def report (r : FRec) (t : FTarget) (s : State) : State :=
  let s := noteAsync r s
  if s.fq.full then { s with fq := { s.fq with waiting := s.fq.waiting ++ [(r, t)] } } else pushRecord r t s

/-- An event record: written, or dropped and counted in LOST (R413). -/
def reportEvent (r : FRec) (s : State) : State :=
  if s.fq.full then { s with fq := { s.fq with lost := s.fq.lost + 1 } } else pushRecord r .none s

/-- GSTAT bits of a task (R414): guarded, irrevocable, stopped. -/
def gstatOf (i : Inst) (stopped : Bool) : Nat :=
  (if i.guarded then 1 else 0) + (if i.irrevocable then 2 else 0) + (if stopped then 8 else 0)

/-- The task record of an instance as 32 bytes (R318). -/
def taskRecord (i : Inst) : BitVec 256 :=
  BitVec.ofNat 256 (i.type + 2 ^ 8 * (i.graph % 64 + (if i.bank then 64 else 0)) + 2 ^ 16 * (i.stage % 16)
    + 2 ^ 24 * min i.cut 255 + 2 ^ 32 * (i.x % 65536) + 2 ^ 48 * (i.y % 65536) + 2 ^ 64 * (i.z % 65536)
    + 2 ^ 80 * (i.sctr % 65536) + 2 ^ 128 * (i.replay % 2 ^ 48))

/-- WHERE of a record that names the task in a slot (R414). -/
def whereOf (k : Nat) : Nat := k % 64 + 0x8000

/-! ### Stopping a slot, and its own handler -/

/-- A change of the mask stack takes effect on the mask that was the top when its word issued (R194, R195). -/
def maskChange (c : MaskOp) (ms : List (BitVec 256 × Nat)) : List (BitVec 256 × Nat) :=
  match c with
  | .push m w => (m, w) :: ms
  | .pop h => if ms.length ≤ 1 ∨ ms.length < h then ms else ms.take (ms.length - h) ++ ms.drop (ms.length - h + 1)
  | .repl h m => match ms.drop (ms.length - h) with
    | t :: ts => ms.take (ms.length - h) ++ (m, t.2) :: ts
    | [] => ms

/-- Writes a result in flight of the slot to the register, mask stack, queue or accumulator row it names, and posts the
P token of its word (R44, R209). -/
def landRes (k : Nat) (r : Res) (s : State) : State :=
  let sl := s.slot k
  let sl := match r.x with
    | some (d, v) => if d = 0 then sl else { sl with x := mset 0 sl.x d v }
    | none => sl
  let sl := match r.v with
    | some (d, v, m) => { sl with v := mset 0 sl.v d ((mget 0 sl.v d &&& ~~~m) ||| (v &&& m)) }
    | none => sl
  let sl := match r.masks with
    | some c => { sl with masks := maskChange c sl.masks }
    | none => sl
  let sl := match r.sq with
    | some (q, v) => { sl with sq := mset [] sl.sq q (mget [] sl.sq q ++ [v]) }
    | none => sl
  let sl := if r.tok.extractLsb' 2 1 = 1 ∧ r.tok.extractLsb' 0 2 ≠ 0 then
      let f := (r.tok.extractLsb' 0 2).toNat
      { sl with tokens := mset 0 sl.tokens f (mget 0 sl.tokens f + 1),
                tokRes := mset 0 sl.tokRes f (mget 0 sl.tokRes f - 1) }
    else sl
  let s := s.setSlot k sl
  match r.acc with
  | some (row, v) =>
    let base := bits sl.accwin.toNat 6 0 * 16 + row
    let s := s.modCore (coreOf k) fun c =>
      { c with acc := (List.range 64).foldl (fun m e => mset 0 m (base * 64 + e) (v.extractLsb' (32 * e) 32)) c.acc }
    s.modSlot k fun sl => { sl with dirtyAcc := mset false sl.dirtyAcc row true }
  | none => s

/-- Puts a result of the exposed pipe behind those that are due no later. -/
def dueInsert (r : Res) : List Res → List Res
  | [] => [r]
  | q :: qs => if q.due ≤ r.due then q :: dueInsert r qs else r :: q :: qs

/-- The order in which results in flight are written when the pipe runs empty (R405): those of the exposed pipe tick by
tick, the later issued last (R58), then those of interlocked words in text order (R57). -/
def landOrder (rs : List Res) : List Res :=
  (rs.filter (!·.inter)).foldl (fun l r => dueInsert r l) [] ++ rs.filter (·.inter)

/-- Writes every result in flight (R405). -/
def landAll (k : Nat) (s : State) : State :=
  let rs := landOrder (s.slot k).results
  rs.foldl (fun s r => landRes k r s) (s.modSlot k fun sl => { sl with results := [] })

/-- Why a word stops its slot: cause, reason byte, faulting address, and an INFO that replaces R420's layout. -/
structure Cause where
  code : Nat
  reason : Nat := 0
  val : Nat := 0
  info : Option Nat := none
  extra : Nat := 0
  /-- SRC and UNIT of the record where they are not the party's and 0 (R454). -/
  src : Option Nat := none
  unit : Nat := 0
deriving DecidableEq, Repr, Inhabited

/-- A synchronous cause stops the slot (R407), and with it the other members of its gang (R477): results in flight are
written, the slot is Saved and issues nothing more, its task waits for an action, and the record of R414 is written. The image is taken by CHECKPOINT when the
slot's operations in flight have retired. Once one party has stopped the slot no other party meets a cause (R408). src is the record's SRC, word and pc those of the faulting word. -/
def faultStop (k src : Nat) (word : W32) (pc : Word) (c : Cause) (s : State) : State :=
  let s := landAll k s
  let sl := s.slot k
  let t := sl.task.getD 0
  let i := s.inst t
  let s := (s.setSlot k { sl with st := 5, issuing := none, csrWait := none, early := [], lastAct := s.clk }).setInst t
    { i with faulted := true }
  let s := (i.slots.filter (· ≠ k)).foldl (fun s j => landAll j (s.modSlot j fun sl =>
    { sl with st := 5, csrWait := none, early := [], lastAct := s.clk })) s
  let info := if c.code = 0x30 then c.reason + 2 ^ 32 * word.toNat
    else word.toNat + 2 ^ 32 * (c.reason % 256) + 2 ^ 40 * c.extra
  report { cause := c.code, kind := 0, src := c.src.getD src, gstat := gstatOf i true, place := whereOf k, pc := pc,
           unit := c.unit, val := BitVec.ofNat 64 c.val, info := BitVec.ofNat 64 (c.info.getD info),
           task := sl.trec } (.task t) s

/-- SRC of a party (R414). -/
def srcOf : Party → Nat
  | .asq => 0
  | .esq => 1
  | .helper => 2

/-- An asynchronous record that names the issuing slot (R406, R419). -/
def asyncRecord (o : Origin) (cause src unit : Nat) (val info : Nat) (parked : Bool) (t : FTarget) (s : State) :
    State :=
  let i := s.inst o.task
  report { cause := cause, kind := 1, src := src, gstat := gstatOf i i.faulted + (if parked then 16 else 0),
           place := if o.bySlot then whereOf o.slot else 0, unit := unit, pc := o.pc,
           val := BitVec.ofNat 64 val, info := BitVec.ofNat 64 info, task := taskRecord i } t s

/-- Entry to the slot's own handler (R340): results in flight are written, UEPC, UCAUSE and UTVAL set, and both
sequencers go on at UTVEC.ADDR in state Handler, on the shared walk. -/
def userTrap (k : Nat) (pc : Word) (cause : Nat) (tval : Word) (s : State) : State :=
  let s := landAll k s
  s.modSlot k fun sl =>
    let go := fun (q : Seq) => { q with pc := sl.utvec, walk := q.walk + 1, waiting := false }
    { sl with st := 3, handler := true, uepc := pc, ucause := BitVec.ofNat 64 cause, utval := tval,
              asq := go sl.asq, esq := go sl.esq, waitA := .none, waitE := .none, csrWait := none, early := [] }

/-- Return from the handler (R341): to UEPC, or to the word after it; the state becomes Running. -/
def userReturn (k : Nat) (again : Bool) (s : State) : State :=
  s.modSlot k fun sl =>
    let pc := if again then sl.uepc else sl.uepc + 4
    let go := fun (q : Seq) => { q with pc := pc, walk := q.walk + 1 }
    { sl with st := 1, handler := false, asq := go sl.asq, esq := go sl.esq }

end Sys2Proof.Machine
end

