-- ==== Sys2Proof/Machine/Float.lean ====
section
/-! DEFINITION. Numbers: the floating-point formats as exact values and their one rounding (R63 to R67), saturation
(R70), E8M0 scales and MX quantisation (R71 to R74). Exact values are a sign, a natural significand and a power of
two; a quotient or root carries one more bit that is set when it is inexact, which every rounding of R65 decides by. -/

namespace Sys2Proof.Machine

/-- A floating-point format (R63): precision, least and greatest exponent, width. -/
structure Fmt where
  p : Nat
  emin : Int
  emax : Int
  w : Nat
deriving DecidableEq, Repr, Inhabited

def fp32 : Fmt := { p := 24, emin := -126, emax := 127, w := 32 }
def fp16 : Fmt := { p := 11, emin := -14, emax := 15, w := 16 }
def bf16 : Fmt := { p := 8, emin := -126, emax := 127, w := 16 }

/-- An exact value: (−1)^neg × m × 2^e, an infinity or a NaN. -/
inductive FV where
  | nan
  | inf (neg : Bool)
  | fin (neg : Bool) (m : Nat) (e : Int)
deriving DecidableEq, Repr, Inhabited

/-- All-ones exponent field of a format. -/
def Fmt.emask (F : Fmt) : Nat := 2 ^ (F.w - F.p) - 1
/-- The canonical NaN (R63). -/
def Fmt.qnan (F : Fmt) : Nat := F.emask * 2 ^ (F.p - 1) + 2 ^ (F.p - 2)
def Fmt.infBits (F : Fmt) (neg : Bool) : Nat := (if neg then 2 ^ (F.w - 1) else 0) + F.emask * 2 ^ (F.p - 1)
def Fmt.zeroBits (F : Fmt) (neg : Bool) : Nat := if neg then 2 ^ (F.w - 1) else 0

/-- The value of a pattern; with flush, a subnormal is a zero of its sign (R66). -/
def Fmt.value (F : Fmt) (flush : Bool) (b : Nat) : FV :=
  let neg := bit b (F.w - 1)
  let ex := bits b (F.w - 2) (F.p - 1)
  let fr := b % 2 ^ (F.p - 1)
  if ex = F.emask then (if fr = 0 then .inf neg else .nan)
  else if ex = 0 then .fin neg (if flush then 0 else fr) (F.emin - F.p + 1)
  else .fin neg (2 ^ (F.p - 1) + fr) (F.emin - F.p + ex)

/-- Rounding modes (R65). -/
def RNE : Nat := 0
def RTZ : Nat := 1
def RDN : Nat := 2
def RUP : Nat := 3

/-- ROUND_INT of m × 2^e (R65), for a value of sign neg. -/
def roundMag (rm : Nat) (neg : Bool) (m : Nat) (e : Int) : Nat :=
  if 0 ≤ e then m * 2 ^ e.toNat
  else
    let k := (-e).toNat
    let q := m / 2 ^ k
    let r := m % 2 ^ k
    if rm = 0 then (if 2 ^ k < 2 * r ∨ (2 * r = 2 ^ k ∧ q % 2 = 1) then q + 1 else q)
    else if (rm = 3 ∧ neg = false) ∨ (rm = 2 ∧ neg = true) then (if r = 0 then q else q + 1)
    else q

/-- ROUND into a format (R65), as the pattern. -/
def Fmt.round (F : Fmt) (rm : Nat) (flush : Bool) : FV → Nat
  | .nan => F.qnan
  | .inf neg => F.infBits neg
  | .fin neg m e =>
    let sgn := F.zeroBits neg
    if m = 0 then sgn
    else
      let eb := max ((Nat.log2 m : Int) + e) F.emin
      let n := roundMag rm neg m (e - (eb - F.p + 1))
      let (n, eb) := if n = 2 ^ F.p then (2 ^ (F.p - 1), eb + 1) else (n, eb)
      if F.emax < eb then
        if rm = 0 ∨ (rm = 3 ∧ neg = false) ∨ (rm = 2 ∧ neg = true) then F.infBits neg
        else sgn + (F.emask * 2 ^ (F.p - 1) - 1)
      else if n < 2 ^ (F.p - 1) then (if flush then sgn else sgn + n)
      else sgn + ((eb - F.emin + 1).toNat * 2 ^ (F.p - 1) + (n - 2 ^ (F.p - 1)))

/-- A rounded result as a value again. -/
def Fmt.rv (F : Fmt) (rm : Nat) (flush : Bool) (v : FV) : FV := F.value false (F.round rm flush v)

/-- The signed significand at exponent e0, which must not exceed e. -/
def sigAt (neg : Bool) (m : Nat) (e e0 : Int) : Int :=
  let v : Int := (m * 2 ^ (e - e0).toNat : Nat)
  if neg then -v else v

def FV.neg : FV → FV
  | .nan => .nan
  | .inf n => .inf (!n)
  | .fin n m e => .fin (!n) m e
def FV.abs : FV → FV
  | .nan => .nan
  | .inf _ => .inf false
  | .fin _ m e => .fin false m e
def FV.isNan : FV → Bool
  | .nan => true
  | _ => false
def FV.isInf : FV → Bool
  | .inf _ => true
  | _ => false
def FV.isNeg : FV → Bool
  | .nan => false
  | .inf n => n
  | .fin n _ _ => n
def FV.isZero : FV → Bool
  | .fin _ m _ => m == 0
  | _ => false

/-- The exact value of an integer; zero is +0. -/
def FV.ofInt (i : Int) : FV := .fin (decide (i < 0)) i.natAbs 0

/-- An exact sum; rm decides only the sign of an exact zero (R64). -/
def FV.add (rm : Nat) : FV → FV → FV
  | .nan, _ => .nan
  | _, .nan => .nan
  | .inf a, .inf b => if a = b then .inf a else .nan
  | .inf a, _ => .inf a
  | _, .inf b => .inf b
  | .fin a m e, .fin b n f =>
    let e0 := min e f
    let v := sigAt a m e e0 + sigAt b n f e0
    if v = 0 then
      if m = 0 ∧ n = 0 ∧ a = b then .fin a 0 0 else .fin (rm == 2) 0 0
    else .fin (decide (v < 0)) v.natAbs e0

/-- An exact product. -/
def FV.mul : FV → FV → FV
  | .nan, _ => .nan
  | _, .nan => .nan
  | .inf a, .inf b => .inf (a != b)
  | .inf a, .fin b n _ => if n = 0 then .nan else .inf (a != b)
  | .fin a m _, .inf b => if m = 0 then .nan else .inf (a != b)
  | .fin a m e, .fin b n f => .fin (a != b) (m * n) (e + f)

/-- A quotient, exact up to one bit that records whether a remainder is left. -/
def FV.div : FV → FV → FV
  | .nan, _ => .nan
  | _, .nan => .nan
  | .inf _, .inf _ => .nan
  | .inf a, .fin b _ _ => .inf (a != b)
  | .fin a _ _, .inf b => .fin (a != b) 0 0
  | .fin a m e, .fin b n f =>
    if n = 0 then (if m = 0 then .nan else .inf (a != b))
    else
      let k := 160 + Nat.log2 n
      let q := m * 2 ^ k / n
      .fin (a != b) (2 * q + (if m * 2 ^ k % n = 0 then 0 else 1)) (e - f - k - 1)

/-- Integer square root by digits, from bit b - 1 down. -/
def isqrtBits (n : Nat) : Nat → Nat → Nat
  | 0, r => r
  | b + 1, r => isqrtBits n b (if (r + 2 ^ b) * (r + 2 ^ b) ≤ n then r + 2 ^ b else r)
def isqrt (n : Nat) : Nat := isqrtBits n (Nat.log2 n / 2 + 1) 0

/-- A square root, exact up to one bit that records whether a remainder is left. -/
def FV.sqrt : FV → FV
  | .nan => .nan
  | .inf n => if n then .nan else .inf false
  | .fin neg m e =>
    if m = 0 then .fin neg 0 0
    else if neg then .nan
    else
      let k : Nat := if e % 2 = 0 then 160 else 161
      let x := m * 2 ^ k
      let r := isqrt x
      .fin false (2 * r + (if r * r = x then 0 else 1)) ((e - k) / 2 - 1)

/-- Order of two values that are not NaN; zeros are equal. -/
def FV.lt : FV → FV → Bool
  | .nan, _ => false
  | _, .nan => false
  | .inf a, .inf b => a && !b
  | .inf a, .fin _ _ _ => a
  | .fin _ _ _, .inf b => !b
  | .fin a m e, .fin b n f =>
    let e0 := min e f
    decide (sigAt a m e e0 < sigAt b n f e0)
def FV.eq (a b : FV) : Bool := !a.isNan && !b.isNan && !a.lt b && !b.lt a

/-- Minimum and maximum, NaN if either is NaN, −0 below +0 (R167, R197). -/
def FV.min (a b : FV) : FV :=
  if a.isNan || b.isNan then .nan else if a.lt b then a else if b.lt a then b else if a.isNeg then a else b
def FV.max (a b : FV) : FV :=
  if a.isNan || b.isNan then .nan else if a.lt b then b else if b.lt a then a else if a.isNeg then b else a

/-- ROUND_INT as an integer; none for a NaN, and the sign for an infinity. -/
def FV.toInt (rm : Nat) : FV → Option (Sum Bool Int)
  | .nan => none
  | .inf n => some (.inl n)
  | .fin neg m e =>
    let v : Int := (roundMag rm neg m e : Nat)
    some (.inr (if neg then -v else v))

/-- Range of an integer type of n bits (R68). -/
def intMin (signed : Bool) (n : Nat) : Int := if signed then -(2 : Int) ^ (n - 1) else 0
def intMax (signed : Bool) (n : Nat) : Int := if signed then (2 : Int) ^ (n - 1) - 1 else (2 : Int) ^ n - 1
/-- SAT_I and SAT_N (R70). -/
def satInt (signed : Bool) (n : Nat) (v : Int) : Int :=
  if v < intMin signed n then intMin signed n else if intMax signed n < v then intMax signed n else v
/-- Float to an integer type (R67). -/
def FV.toIntSat (rm : Nat) (signed : Bool) (n : Nat) (v : FV) : Int :=
  match v.toInt rm with
  | none => 0
  | some (.inl neg) => if neg then intMin signed n else intMax signed n
  | some (.inr i) => satInt signed n i

/-- FLOOR(LOG2(|v|)) of a finite value that is not zero. -/
def FV.flog2 : FV → Int
  | .fin _ m e => (Nat.log2 m : Int) + e
  | _ => 0

/-! ### MX formats (R71 to R74) -/

/-- Fraction bits of MI8, MI6 and MI4 by type code (R72). -/
def mxFrac (t : Nat) : Nat := if t = 0xB then 6 else if t = 0xC then 4 else 2
/-- Largest element that requantisation produces. -/
def mxMax (t : Nat) : Int := if t = 0xB then 127 else if t = 0xC then 31 else 7

/-- Dequantisation, exact (R73). -/
def mxValue (t : Nat) (q : Int) (e : Nat) : FV :=
  if e = 0xFF then .nan else .fin (decide (q < 0)) q.natAbs ((e : Int) - 127 - mxFrac t)

/-- MXQUANT (R74): scale code and elements. -/
def mxQuant (t rm : Nat) (xs : List FV) : Nat × List Int :=
  if xs.any FV.isNan then (0xFF, xs.map fun _ => 0)
  else
    let fins := xs.filter fun x => !x.isZero
    if fins = [] then (0, xs.map fun _ => 0)
    else
      let xe : Int := if xs.any FV.isInf then 127 else fins.foldl (fun a x => Max.max a x.flog2) (-100000)
      let e := Min.min (Max.max (xe + 127) 0) 254
      let sh : Int := mxFrac t - (e - 127)
      (e.toNat, xs.map fun x => match x with
        | .inf n => if n then -mxMax t else mxMax t
        | .fin n m f =>
          let q := Min.min (roundMag rm n m (f + sh) : Int) (mxMax t)
          if n then -q else q
        | .nan => 0)
/-- An element of MXQUANT saturates (R74): an infinity, or a rounding beyond the largest element. -/
def mxClips (t rm : Nat) (xs : List FV) : Bool :=
  let sh : Int := mxFrac t + 127 - (mxQuant t rm xs).1
  !xs.any FV.isNan && xs.any fun x => match x with
    | .fin n m f => decide (mxMax t < roundMag rm n m (f + sh))
    | x => x.isInf

end Sys2Proof.Machine
end

