-- ==== Sys2Proof/Machine/Operands.lean ====
section
/-! DEFINITION. Every operand form: the scalar registers of the three parties with register 0 hard-wired (R158),
immediates (R140), tokens (R43), stream registers and their walk (R95 to R98), and type codes (R96).
Readings and choices of the model: DESIGN CHOICE log entry 7. -/

namespace Sys2Proof.Machine

/-! ### Scalar registers -/

/-- An a register; a0 reads as zero (R28). -/
def Slot.ra (sl : Slot) (r : BitVec 5) : Word := if r = 0 then 0 else mget 0 sl.a r.toNat
/-- Writes an a register; a write of a0 is discarded (R158). -/
def Slot.wa (sl : Slot) (r : BitVec 5) (v : Word) : Slot := if r = 0 then sl else { sl with a := mset 0 sl.a r.toNat v }
/-- An x register; x0 reads as zero (R28). -/
def Slot.rx (sl : Slot) (r : BitVec 5) : Word := if r = 0 then 0 else mget 0 sl.x r.toNat
def Slot.wx (sl : Slot) (r : BitVec 5) (v : Word) : Slot := if r = 0 then sl else { sl with x := mset 0 sl.x r.toNat v }
/-- The number of the h register a field names: the values 0 to 7 name h0 to h7 (R139); the spec does not say which
register a value above 7 names (log entry 7). -/
def hnum (r : BitVec 5) : Nat := if r.toNat < 8 then r.toNat else (Config.helperReg r).toNat
/-- An h register; h0 reads as zero (R28). -/
def Slot.rh (sl : Slot) (r : BitVec 5) : Word := if hnum r = 0 then 0 else mget 0 sl.helper.h (hnum r)
def Slot.wh (sl : Slot) (r : BitVec 5) (v : Word) : Slot :=
  if hnum r = 0 then sl else { sl with helper := { sl.helper with h := mset 0 sl.helper.h (hnum r) v } }

/-- The scalar register of the party that executes a word (R158). -/
def Slot.rp (sl : Slot) (p : Party) (r : BitVec 5) : Word :=
  match p with
  | .asq => sl.ra r
  | .esq => sl.rx r
  | .helper => sl.rh r
def Slot.wp (sl : Slot) (p : Party) (r : BitVec 5) (v : Word) : Slot :=
  match p with
  | .asq => sl.wa r v
  | .esq => sl.wx r v
  | .helper => sl.wh r v

/-- A vector register. -/
def Slot.rv (sl : Slot) (r : BitVec 5) : Vec := mget 0 sl.v r.toNat

/-- An a register that a pending load or atomic of the slot will write (R161). -/
def Slot.busyA (sl : Slot) (r : BitVec 5) : Bool :=
  r != 0 && sl.pend.any fun p => (p.kind == .load || p.kind == .spLoad || p.kind == .amo) && p.dst == r.toNat

/-- The x register that a queued V word writes: VXTR (opcode 0x22, R192). -/
def vxtrDst (w : W32) : Option Nat :=
  if (w.extractLsb' 19 6).toNat = 0x22 then some (w.extractLsb' 14 5).toNat else none

/-- An x register that a result in flight or a queued V word of the slot will write (R57). -/
def Slot.busyX (sl : Slot) (r : BitVec 5) : Bool :=
  r != 0 && (sl.results.any (fun q => (q.x.map (·.1)) == some r.toNat)
    || (mget [] sl.queues 0).any (fun e => vxtrDst e.word == some r.toNat))

/-- A word of the party must wait for a register it reads or writes (R57, R161); in exposed mode an ESQ word reads
what the register holds (R58). -/
def Slot.busyP (sl : Slot) (p : Party) (r : BitVec 5) : Bool :=
  match p with
  | .asq => sl.busyA r
  | .esq => !sl.exposed && sl.busyX r
  | .helper => false

/-! ### Immediates -/

/-- A sign-extended immediate as a 64-bit value (R140). -/
def simm {n : Nat} (i : BitVec n) : Word := i.signExtend 64

/-! ### Tokens -/

/-- The partner engine of a token field for a word of engine e (0 V, 1 M, 2 TA, 3 TH), by R43: none for code 0. -/
def partner (e : Nat) (tk : BitVec 4) : Option Nat :=
  match (tk.extractLsb' 0 2).toNat with
  | 0 => none
  | c => some (if c ≤ e then c - 1 else c)

/-- W: the word waits for a token (R43). -/
def tkWait (tk : BitVec 4) : Bool := tk.extractLsb' 3 1 = 1
/-- P: the word posts a token (R43). -/
def tkPost (tk : BitVec 4) : Bool := tk.extractLsb' 2 1 = 1

/-- The word's tokens let it issue (R44): a token waits in the FIFO from the partner, and the FIFO to the partner
holds fewer than 15 with those reserved. -/
def Slot.tokReady (sl : Slot) (e : Nat) (tk : BitVec 4) : Bool :=
  match partner e tk with
  | none => true
  | some p =>
    (!tkWait tk || decide (0 < mget 0 sl.tokens (4 * p + e)))
    && (!tkPost tk || decide (mget 0 sl.tokens (4 * e + p) + mget 0 sl.tokRes (4 * e + p) < 15))

/-- Takes the token waited for and reserves the place of the token to post (R44). -/
def Slot.tokTake (sl : Slot) (e : Nat) (tk : BitVec 4) : Slot :=
  match partner e tk with
  | none => sl
  | some p =>
    let sl := if tkWait tk then { sl with tokens := mset 0 sl.tokens (4 * p + e) (mget 0 sl.tokens (4 * p + e) - 1) }
      else sl
    if tkPost tk then { sl with tokRes := mset 0 sl.tokRes (4 * e + p) (mget 0 sl.tokRes (4 * e + p) + 1) } else sl

/-- Posts the reserved token when the word retires (R44). -/
def Slot.tokGive (sl : Slot) (e : Nat) (tk : BitVec 4) : Slot :=
  match partner e tk with
  | none => sl
  | some p =>
    if tkPost tk then
      { sl with tokens := mset 0 sl.tokens (4 * e + p) (mget 0 sl.tokens (4 * e + p) + 1),
                tokRes := mset 0 sl.tokRes (4 * e + p) (mget 0 sl.tokRes (4 * e + p) - 1) }
    else sl

/-! ### Streams (R95 to R98) -/

/-- The 22 fields of a stream register. -/
def Slot.stream (sl : Slot) (n : Nat) : List Word := (List.range 22).map fun f => mget 0 sl.streams (32 * n + f)

/-- Fields of a stream snapshot (R95). -/
def sBase (s : List Word) : Nat := (s.getD 0 0).toNat
def sType (s : List Word) : Nat := (s.getD 1 0).toNat % 16
def sSpace (s : List Word) : Nat := (s.getD 1 0).toNat / 16 % 4
def sScale (s : List Word) : Nat := (s.getD 2 0).toNat
def sScStr (s : List Word) : Int := (s.getD 3 0).toInt
def sCnt (s : List Word) (l : Nat) : Nat := (s.getD (4 + l) 0).toNat % 2 ^ 32
def sSrc (s : List Word) (l : Nat) : Int := (s.getD (10 + l) 0).toInt
def sDst (s : List Word) (l : Nat) : Int := (s.getD (16 + l) 0).toInt

/-- Number of elements the walk yields (R97, R98). -/
def sCount (s : List Word) : Nat := sCnt s 0 * sCnt s 1 * sCnt s 2 * sCnt s 3 * sCnt s 4 * sCnt s 5

/-- Number of runs: the product of the outer counts (R226). -/
def sRuns (s : List Word) : Nat := sCnt s 1 * sCnt s 2 * sCnt s 3 * sCnt s 4 * sCnt s 5

/-- The MX types MI8, MI6 and MI4 (R96). -/
def isMx (t : Nat) : Bool := t == 0xB || t == 0xC || t == 0xD

/-- Width of an element in bits (R7): 0 for code 0xF, which names no type (R96). -/
def typeBits (t : Nat) : Nat :=
  match t with
  | 0x0 | 0x4 | 0xB | 0xE => 8
  | 0x1 | 0x5 | 0x9 | 0xA => 16
  | 0x2 | 0x6 | 0x8 => 32
  | 0x3 | 0x7 => 64
  | 0xC => 6
  | 0xD => 4
  | _ => 0

/-- The integer types (R96). -/
def isInt (t : Nat) : Bool := t < 8
/-- The signed integer types. -/
def isSigned (t : Nat) : Bool := t < 4
/-- The float types. -/
def isFloat (t : Nat) : Bool := t == 8 || t == 9 || t == 0xA

/-- Fewest consecutive elements that fill whole bytes: 1, but 4 of MI6 (3 bytes) and 2 of MI4 (1 byte) (R72). -/
def unitElems (t : Nat) : Nat := if t == 0xC then 4 else if t == 0xD then 2 else 1
/-- Bytes of such a unit. -/
def unitBytes (t : Nat) : Nat := unitElems t * typeBits t / 8

/-- Loop indices i0 to i5 of element n in walk order, level 5 outermost (R97). -/
def walkIdx (s : List Word) (n : Nat) : List Nat :=
  let c0 := sCnt s 0; let c1 := sCnt s 1; let c2 := sCnt s 2; let c3 := sCnt s 3; let c4 := sCnt s 4
  [n % c0, n / c0 % c1, n / (c0 * c1) % c2, n / (c0 * c1 * c2) % c3, n / (c0 * c1 * c2 * c3) % c4,
   n / (c0 * c1 * c2 * c3 * c4)]

/-- An address modulo 2^64 (R97). -/
def addr64 (i : Int) : Nat := (i % (2 : Int) ^ 64).toNat

/-- Source address of element n (R97): for an MX type, of the byte unit that holds it, packed in its run. -/
def srcAddr (s : List Word) (n : Nat) : Nat :=
  let i := walkIdx s n
  let outer := (i.getD 1 0) * sSrc s 1 + (i.getD 2 0) * sSrc s 2 + (i.getD 3 0) * sSrc s 3
    + (i.getD 4 0) * sSrc s 4 + (i.getD 5 0) * sSrc s 5
  let t := sType s
  if isMx t then addr64 (sBase s + outer + (i.getD 0 0) / unitElems t * unitBytes t)
  else addr64 (sBase s + outer + (i.getD 0 0) * sSrc s 0)

/-- Destination offset of element n (R97); an MX run is written packed at the offset of its first element (R243). -/
def dstOff (s : List Word) (n : Nat) : Int :=
  let i := walkIdx s n
  let t := sType s
  let inner : Int := if isMx t then ((i.getD 0 0) / unitElems t * unitBytes t : Nat) else (i.getD 0 0) * sDst s 0
  inner + (i.getD 1 0) * sDst s 1 + (i.getD 2 0) * sDst s 2 + (i.getD 3 0) * sDst s 3
    + (i.getD 4 0) * sDst s 4 + (i.getD 5 0) * sDst s 5

/-- Address of the scale of the block that holds element n of an MX stream (R97). -/
def scaleAddr (s : List Word) (n : Nat) : Nat :=
  let run := n / sCnt s 0
  let i0 := n % sCnt s 0
  addr64 (sScale s + (run * (sCnt s 0 / 32) + i0 / 32 : Nat) * sScStr s)

/-- Lowest and highest contribution of a loop level to an address. -/
def levelMin (c : Nat) (st : Int) : Int := min 0 (((c : Int) - 1) * st)
def levelMax (c : Nat) (st : Int) : Int := max 0 (((c : Int) - 1) * st)

/-- Bounding byte interval of the source elements of a stream that is not empty (R45): first and last byte. -/
def srcBounds (s : List Word) : Int × Int :=
  let t := sType s
  let run : Int := if isMx t then ((sCnt s 0 * typeBits t + 7) / 8 : Nat) else (typeBits t / 8 : Nat)
  let lo := (List.range 6).foldl (fun (a : Int) l => if l = 0 ∧ isMx t then a else a + levelMin (sCnt s l) (sSrc s l)) 0
  let hi := (List.range 6).foldl (fun (a : Int) l => if l = 0 ∧ isMx t then a else a + levelMax (sCnt s l) (sSrc s l)) 0
  (sBase s + lo, sBase s + hi + run - 1)

/-- Bounding interval of the destination offsets of a stream that is not empty (R45). -/
def dstBounds (s : List Word) : Int × Int :=
  let t := sType s
  let run : Int := if isMx t then ((sCnt s 0 * typeBits t + 7) / 8 : Nat) else (typeBits t / 8 : Nat)
  let lo := (List.range 6).foldl (fun (a : Int) l => if l = 0 ∧ isMx t then a else a + levelMin (sCnt s l) (sDst s l)) 0
  let hi := (List.range 6).foldl (fun (a : Int) l => if l = 0 ∧ isMx t then a else a + levelMax (sCnt s l) (sDst s l)) 0
  (lo, hi + run - 1)

/-- Bounding interval of the scales of an MX stream that is not empty (R219). -/
def scaleBounds (s : List Word) : Int × Int :=
  let n : Int := (sCount s / 32 : Nat) - 1
  (sScale s + min 0 (n * sScStr s), sScale s + max 0 (n * sScStr s))

end Sys2Proof.Machine
end

