-- ==== Sys2Proof/Machine/Flags.lean ====
section
/-! DEFINITION. The comparisons and sticky flags: BR, WAITV and VCMP conditions (R141, R184, R194) and the flags of
the matrix status MXST (R222). -/

namespace Sys2Proof.Machine

/-- A BR condition on a register compared with zero as a signed 64-bit value (R141); codes 6 and 7 are none. -/
def brCond (c : BitVec 3) (v : Word) : Bool :=
  match c.toNat with
  | 0 => v.toInt = 0
  | 1 => v.toInt ≠ 0
  | 2 => v.toInt < 0
  | 3 => 0 ≤ v.toInt
  | 4 => 0 < v.toInt
  | 5 => v.toInt ≤ 0
  | _ => false

/-- The comparison of WAITV between the word in memory and the value (R184). -/
def waitCmp (c : BitVec 3) (w v : Word) : Bool :=
  match c.toNat with
  | 0 => w = v
  | 1 => w ≠ v
  | 2 => v.toInt ≤ w.toInt
  | 3 => w.toInt < v.toInt
  | 4 => v.toNat ≤ w.toNat
  | 5 => w.toNat < v.toNat
  | _ => false

/-- Sticky flags of MXST by bit (R222). -/
def mxOVF : BitVec 7 := 0x01
def mxUNF : BitVec 7 := 0x02
def mxSAT : BitVec 7 := 0x04
def mxINX : BitVec 7 := 0x08
def mxNANS : BitVec 7 := 0x10
def mxRCW : BitVec 7 := 0x20
def mxTAGX : BitVec 7 := 0x40

/-- A flag when its condition holds. -/
def flagIf (f : BitVec 7) (c : Bool) : BitVec 7 := if c then f else 0

/-- Sets sticky flags of a slot (R79): a flag once set stays until MSTAT clears it. -/
def setFlags (k : Nat) (f : BitVec 7) (s : State) : State :=
  s.modSlot k fun sl => { sl with mxst := sl.mxst ||| f }

/-- Sections of the slot's cluster that the slot holds, bit s for section s (R222, R216). -/
def heldSecs (s : State) (k : Nat) : BitVec 4 :=
  let cl := s.cluster (clusterOf k)
  (List.range 4).foldl (fun m i => if (mget {} cl.secs i).holder = some k then m ||| BitVec.twoPow 4 i else m) 0

/-- MXST as MSTAT reads it (R222): BATCH 23:20, LEASE 19:16, flags 6:0. -/
def mxstWord (s : State) (k : Nat) : Word :=
  let sl := s.slot k
  BitVec.ofNat 64 (sl.batches.length % 16 * 2 ^ 20 + (heldSecs s k).toNat * 2 ^ 16 + sl.mxst.toNat)

/-- Effective class of a slot: the highest of its own and the classes lent to it (R52). -/
def Slot.eclass (sl : Slot) : Nat := sl.lent.foldl (fun m l => max m l.2.toNat) sl.cls.toNat

/-- SLOTST (R55): STAGE, CLASS, ECLASS, EXPOSED, STATE, CORE, SLOT, LEVEL. -/
def slotst (sl : Slot) (k : Nat) : Word :=
  BitVec.ofNat 64 (sl.stage.toNat * 2 ^ 16 + sl.cls.toNat * 2 ^ 14 + sl.eclass % 4 * 2 ^ 12
    + (if sl.exposed then 2 ^ 11 else 0) + sl.st.toNat * 2 ^ 8 + k / 4 % 16 * 2 ^ 4 + k % 4 * 4 + sl.level.toNat)

end Sys2Proof.Machine
end

