-- ==== Sys2Proof/Machine/Regs.lean ====
section
/-! DEFINITION. The register views (R355, R365 to R373, R412, R478): the value that each 8-byte register or table word
of BAR0 reads as, and the bits of it that a write sets.
Readings and choices of the model: DESIGN CHOICE log entry 52. -/

namespace Sys2Proof.Machine

/-! ### The save pool (R478, R479) -/

/-- Operations of the slot that a checkpoint may have to record (R474). -/
def State.cutOps (s : State) (k : Nat) : Nat :=
  ((s.core (coreOf k)).xops.filter fun x => x.org.slot == k).length + (s.slot k).mops.length + (s.slot k).batches.length

/-- Raw body length of the slot's image (R483), with its cut records. -/
def State.rawLen (s : State) (k ncut : Nat) : Nat :=
  67680 + 448 * ncut + 384 + 4096 * (s.slot k).dirtySp.length + 256 + 256 * (s.slot k).dirtyAcc.length

/-- Chunks reserved for an image (R479). -/
def chunksFor (raw : Nat) : Nat := (512 + 3 * raw / 2 + 16 + 65527) / 65528

/-- Chunks of the save pool that are free (R478). -/
def State.poolBase (s : State) : Nat := bits s.tgu.savepool.toNat 56 16 * 2 ^ 16
def State.freeChunks (s : State) : List Nat :=
  if s.poolBase = 0 then []
  else (List.range (bits s.tgu.savepool.toNat 15 0 + 1)).filter fun c => !(s.tgu.used.any (·.2 == c))

/-- Slots held in state Saved for lack of chunks. -/
def State.chunkWaiters (s : State) : Nat :=
  ((List.range 64).filter fun k =>
    let sl := s.slot k
    sl.st == 5 && (s.inst (sl.task.getD 0)).st != .restoring
      && decide (s.freeChunks.length < chunksFor (s.rawLen k (s.cutOps k)))).length

/-! ### Reads -/

/-- A flag at bit b of a register. -/
def bitAt (c : Bool) (b : Nat) : Nat := if c then 2 ^ b else 0

/-- The 64 bytes of a fault record (R414), as one little-endian number. -/
def FRec.bytes (r : FRec) : Nat :=
  r.cause % 256 + r.kind % 4 * 256 ^ 1 + r.src % 256 * 256 ^ 2 + r.gstat % 32 * 256 ^ 3 + r.place % 65536 * 256 ^ 4
    + r.unit % 65536 * 256 ^ 6 + r.pc.toNat * 256 ^ 8 + r.val.toNat * 256 ^ 16 + r.info.toNat * 256 ^ 24
    + r.task.toNat * 256 ^ 32

/-- GRAPHST of graph g (R368). -/
def State.graphst (s : State) (g : Nat) : Nat :=
  let unset := fun (b : Bool) => min 65535 ((s.tgu.replays.filter fun r => r.graph == g && r.bank == b && !r.settled).length)
  let n := (s.tgu.launches.filter fun l => l.graph == g).length
  match lookupN s.tgu.graphs g with
  | some gr => bitAt true 63 + bitAt gr.cur 62 + bitAt gr.pubreq 61 + bitAt gr.aborted 60 + unset true * 2 ^ 32
      + unset false * 2 ^ 16 + n % 256
  | none => 0

/-- The register or table word at a byte offset of BAR0, a multiple of 8, as a read returns it. -/
def State.regView (s : State) (off : Nat) : Word :=
  let n := fun (v : Nat) => BitVec.ofNat 64 v
  let t := s.tgu
  let p := s.pkg
  if off = 0x000010 then p.bootst
  else if off = 0x000028 then n (p.mbResult.toNat * 2 ^ 8 + bitAt p.mbBusy 0)
  else if off = 0x020008 then
    n (t.drop.toNat * 2 ^ 48 + t.launches.length * 2 ^ 8 + (t.launches.filter (·.active)).length)
  else if off = 0x020018 then n (bitAt t.gcmd.isSome 63 + t.gcmdst.toNat % 2 ^ 63)
  else if off = 0x020028 then n (bitAt s.tinvCmd.isSome 63 + (s.reg off).toNat % 2 ^ 63)
  else if off = 0x020100 then t.savepool
  else if off = 0x020108 then n (s.chunkWaiters * 2 ^ 32 + s.freeChunks.length)
  else if 0x020200 ≤ off ∧ off < 0x020400 then n (s.graphst ((off - 0x020200) / 8))
  else if 0x080000 ≤ off ∧ off < 0x090000 ∧ off % 0x1000 = 0 then
    n ((s.core ((off - 0x080000) / 0x1000)).dlvRefused.toNat * 2 ^ 24 + (s.reg off).toNat % 2 ^ 24)
  else if 0x100000 ≤ off ∧ off < 0x102000 ∧ off % 0x100 = 0 then
    let c := s.chan ((off - 0x100000) / 0x100)
    n ((s.reg off).toNat + min 255 c.runs.length * 2 ^ 16 + c.cuts.toNat)
  else if 0x100000 ≤ off ∧ off < 0x102000 ∧ off % 0x100 = 0x08 then (s.chan ((off - 0x100000) / 0x100)).eccst
  else if 0x100000 ≤ off ∧ off < 0x102000 ∧ off % 0x100 = 0x10 then (s.chan ((off - 0x100000) / 0x100)).eccaddr
  else if off = 0x111008 then
    let l := s.layout
    n (l.done.toNat * 2 ^ 48 + l.cmds.length * 2 ^ 8 + bitAt l.bad 2 + bitAt l.full 1 + bitAt (l.cmds != []) 0)
  else if off = 0x120008 then
    n (p.sagcnt.toNat * 2 ^ 32 + p.gated.toNat * 2 ^ 16 + bitAt p.thr 3 + p.power.toNat)
  else if off = 0x130008 then
    n (s.fq.lost.toNat * 2 ^ 32 + min 255 s.fq.waiting.length * 2 ^ 8 + bitAt s.fq.badact 1 + bitAt s.fq.full 0)
  else if off = 0x130010 then n s.fq.head.toNat
  else if off = 0x130018 then n s.fq.tail.toNat
  else if 0x130040 ≤ off ∧ off < 0x130060 then n (s.cluster ((off - 0x130040) / 8)).arrdis.toNat
  else if off = 0x130068 then n (p.lostln.toNat * 2 ^ 32 + bitAt p.fenced 16 + p.deadCores.toNat)
  else if off = 0x130078 then
    n (p.corr.toNat * 2 ^ 32 + p.retrain.toNat * 2 ^ 16 + bitAt p.fenced 1 + bitAt p.linkUp 0)
  else if off = 0x130080 then n p.rstcause.toNat
  else if 0x130100 ≤ off ∧ off < 0x134100 then
    n ((mget ({}, FTarget.none) s.fq.recs ((off - 0x130100) / 64)).1.bytes / 2 ^ (8 * (off % 64)))
  else if 0x140000 ≤ off ∧ off < 0x140080 then
    n ((mget 0 p.mr ((off - 0x140000) / 32)).toNat / 2 ^ (8 * (off % 32)))
  else s.reg off

/-! ### Writes -/

/-- Bits of field h to l. -/
def fieldMask (h l : Nat) : Nat := 2 ^ (h + 1) - 2 ^ l

/-- The RW bits of the register or table word at a byte offset of BAR0, a multiple of 8: of those that keep the value
written and start no action (R367, R368, R363, R281, R458, R373, R412, R471, R493; tables and descriptors R502). -/
def regMask (off : Nat) : Nat :=
  let all := 2 ^ 64 - 1
  if off = 0x000000 then all
  else if off = 0x000008 then fieldMask 56 0
  else if off = 0x000018 then fieldMask 31 0
  else if 0x010000 ≤ off ∧ off < 0x018000 then all
  else if off = 0x020000 then fieldMask 63 32
  else if off = 0x020020 then fieldMask 56 0
  else if 0x020040 ≤ off ∧ off < 0x020080 then all
  else if 0x040000 ≤ off ∧ off < 0x044000 then all
  else if 0x050000 ≤ off ∧ off < 0x060000 then all
  else if 0x060000 ≤ off ∧ off < 0x068000 then all
  else if 0x080000 ≤ off ∧ off < 0x090000 ∧ off % 0x1000 = 0 then fieldMask 23 12 + fieldMask 7 0
  else if 0x100000 ≤ off ∧ off < 0x102000 ∧ off % 0x100 = 0 then fieldMask 47 40 + fieldMask 31 24
  else if 0x100000 ≤ off ∧ off < 0x102000 ∧ off % 0x100 = 0x18 then fieldMask 15 8 + fieldMask 0 0
  else if 0x110000 ≤ off ∧ off < 0x111000 then all
  else if off = 0x120000 then fieldMask 47 32 + fieldMask 23 16 + fieldMask 15 8
  else if off = 0x130000 then fieldMask 23 20 + fieldMask 10 8 + fieldMask 0 0
  else if off = 0x130030 then fieldMask 15 12
  else if off = 0x130060 then fieldMask 39 32 + fieldMask 31 28 + fieldMask 23 12 + fieldMask 3 0
  else if 0x200000 ≤ off ∧ off < 0x240000 then all
  else 0

/-- Field h to l of v replaced. -/
def putField (v h l x : Nat) : Nat := v - bits v h l * 2 ^ l + x * 2 ^ l
/-- A field whose write of 0 sets 1. -/
def atLeast (v h l m : Nat) : Nat := if bits v h l < m then putField v h l m else v

/-- The value a register takes for the value written: fields with a lower bound, and the clamped LIMIT (R363, R281,
R373, R493). -/
def regClamp (off v : Nat) : Nat :=
  if 0x080000 ≤ off ∧ off < 0x090000 ∧ off % 0x1000 = 0 then atLeast v 23 12 16
  else if 0x100000 ≤ off ∧ off < 0x102000 ∧ off % 0x100 = 0 then atLeast v 47 40 1
  else if off = 0x120000 then
    let v := atLeast (atLeast v 23 16 1) 15 8 45
    if 150 < bits v 15 8 then putField v 15 8 150 else v
  else if off = 0x130060 then atLeast (atLeast (atLeast v 39 32 1) 31 28 1) 23 16 1
  else v

/-- The register at an offset receives the RW bits of a value. -/
def setRw (off v : Nat) (s : State) : State :=
  let m := regMask off
  let old := (s.reg off).toNat
  s.setReg off (BitVec.ofNat 64 (regClamp off ((old &&& (2 ^ 64 - 1 - m)) ||| (v &&& m))))

end Sys2Proof.Machine
end

