-- ==== Sys2Proof/Machine/Phys.lean ====
section
/-! DEFINITION. Physical storage: the fields of a PMD offset (R260), striped placement (R282, R283, R503), the
SEC-DED code of column words (R456) and poison (R459), and reads and writes of physical bytes.
Readings and choices of the model: DEDUCED log entries 16, 51; DESIGN CHOICE log entry 77. -/

namespace Sys2Proof.Machine

/-! ### Layout of PMD memory (R260) -/

/-- PMD offset of a column word from channel, rank, bank group, bank, row and column (R260). -/
def pmdOff (z128 : Bool) (c rank bg bank row col : Nat) : Nat :=
  if z128 then
    col % 8 * 2 ^ 5 + c * 2 ^ 8 + bg * 2 ^ 13 + bank * 2 ^ 15 + col / 8 % 8 * 2 ^ 17 + row * 2 ^ 20
  else
    col % 8 * 2 ^ 5 + c * 2 ^ 8 + rank * 2 ^ 13 + bg * 2 ^ 14 + bank * 2 ^ 16 + col / 8 % 8 * 2 ^ 18 + row * 2 ^ 21

/-- Channel, channel-local NBU index and bank group of a global NBU number (R14, R15, R260). -/
def nbuChan (z128 : Bool) (n : Nat) : Nat :=
  let d := if z128 then 4 else 8
  let die := n / 4
  4 * (die / d) + die % d % 4
def nbuRank (z128 : Bool) (n : Nat) : Nat := if z128 then 0 else n / 4 % 8 / 4
def nbuLocal (z128 : Bool) (n : Nat) : Nat := 4 * nbuRank z128 n + n % 4

/-- Global number of NBU k of channel c (R260). -/
def nbuOf (z128 : Bool) (c k : Nat) : Nat :=
  let d := if z128 then 4 else 8
  4 * (d * (c / 4) + c % 4 + 4 * (k / 4)) + k % 4

/-- Column words are numbered by PMD offset div 32. Column word of an NBU's bank, row and column. -/
def colOfNbu (z128 : Bool) (n bank row col : Nat) : Nat :=
  pmdOff z128 (nbuChan z128 n) (nbuRank z128 n) (n % 4) bank row col / 32

/-- Channel and bank of a column word (R260). -/
def colChan (col : Nat) : Nat := col / 8 % 32
def colBank (z128 : Bool) (col : Nat) : Nat := if z128 then col / 2 ^ 10 % 4 else col / 2 ^ 11 % 4
def colNbu (z128 : Bool) (col : Nat) : Nat :=
  nbuOf z128 (colChan col) (if z128 then col / 2 ^ 8 % 4 else 4 * (col / 2 ^ 8 % 2) + col / 2 ^ 9 % 4)

/-! ### Striped regions (R282, R283, R503) -/

/-- Layout descriptor g as a 64-byte number (R282). -/
def State.layDesc (s : State) (g : Nat) : Nat := s.table (0x110000 + 64 * g) 8
def dLbase (d : Nat) : Nat := fieldOf d 0 8
def dLen (d : Nat) : Nat := fieldOf d 8 4
def dFmt (d : Nat) : Nat := fieldOf d 12 1
def dValid (d : Nat) : Bool := bit (fieldOf d 13 1) 0
def dErr (d : Nat) : Bool := bit (fieldOf d 13 1) 1
def dU (d : Nat) : Nat := fieldOf d 14 1
def dNp (d : Nat) : Nat := fieldOf d 16 2
def dSbase (d : Nat) : Nat := fieldOf d 24 8
def dPairs (d : Nat) : Nat := fieldOf d 32 8

/-- Pair-list entry e of a descriptor: NBU, pair, BROW and SBROW (R282). -/
def State.pairEnt (s : State) (d e : Nat) : Nat × Nat × Nat × Nat :=
  let w := readLe s.mem (dPairs d + 8 * e) 8
  (bits w 7 0, bits w 8 8, bits w 25 9, bits w 42 26)

/-- Byte of a PMD cell that holds byte b of logical column word w of descriptor d (R283), none where the pair list
names an NBU or row the part does not have (R503). -/
def State.elemCell (s : State) (d w b : Nat) : Option Nat :=
  let u := w / dU d; let o := w % dU d; let e := u % dNp d
  let (nbu, pair, brow, _) := s.pairEnt d e
  let pos := u / dNp d * (dU d / 2) + o / 2
  let row := brow + pos / 64
  if dU d = 0 ∨ dNp d = 0 ∨ s.nnbu ≤ nbu ∨ 131071 < row then none
  else some (32 * colOfNbu s.z128 nbu (2 * pair + o % 2) row (pos % 64) + b)

/-- Byte of a PMD cell that holds logical scale byte b of descriptor d (R283). -/
def State.scaleCell (s : State) (d b : Nat) : Option Nat :=
  let u := b / 64; let e := u % dNp d
  let (nbu, pair, _, sbrow) := s.pairEnt d e
  let k := u / dNp d
  let row := sbrow + k / 64
  if dNp d = 0 ∨ s.nnbu ≤ nbu ∨ 131071 < row then none
  else some (32 * colOfNbu s.z128 nbu (2 * pair + b / 32 % 2) row (k % 64) + b % 32)

/-- What descriptor g covers at aperture address a: element byte or scale byte, with its offset (R503). -/
def dCovers (d a : Nat) : Option (Bool × Nat) :=
  if dLbase d ≤ a ∧ a < dLbase d + 4096 * dLen d then some (false, a - dLbase d)
  else if dFmt d = 1 ∧ dSbase d ≤ a ∧ a < dSbase d + 256 * dLen d then some (true, a - dSbase d)
  else none

/-- The descriptor whose placement holds logical page p of region g: g2 for pages a RESTRIPE has swapped (R285). -/
def State.genOf (s : State) (g page : Nat) : Nat :=
  match s.layout.gen.find? (fun r => r.1 == g) with
  | some (_, g2, n) => if page < n then g2 else g
  | none => g

/-- The descriptor that maps aperture address a: the lowest-numbered valid one that covers it, a RESTRIPE in
progress first (R503); with its coverage. -/
def State.aperture (s : State) (a : Nat) : Option (Nat × Bool × Nat) :=
  let cover := fun g =>
    let d := s.layDesc g
    if dValid d then (dCovers d a).map fun (sc, o) => (g, sc, o) else none
  match (s.layout.gen.filterMap fun r => cover r.1) with
  | r :: _ => some r
  | [] => ((List.range 64).filterMap cover).head?

/-- PMD cell byte of aperture address a; none for a byte that maps to no cell (R503). A page of a REQUANT target not
yet swapped reads as zero and is answered by some none (R285). -/
def State.apCell (s : State) (a : Nat) : Option (Option Nat) :=
  match s.aperture a with
  | none => none
  | some (g, sc, o) =>
    let page := if sc then o / 256 else o / 4096
    let g' := s.genOf g page
    let d := s.layDesc g'
    let cell := if sc then s.scaleCell d o else s.elemCell d (o / 32) (o % 32)
    match cell with
    | none => none
    | some c =>
      match s.layout.zero.find? (fun r => r.1 == g) with
      | some (_, n) => if n ≤ page then some none else some (some c)
      | none => some (some c)

/-- Regions whose elements or scales cover aperture address a (R503, for rule 2 of R280). -/
def State.regionsAt (s : State) (a : Nat) : List Nat :=
  (List.range 64).filter fun g => dValid (s.layDesc g) && (dCovers (s.layDesc g) a).isSome

/-! ### Classes of physical addresses (R357) -/

inductive PClass where
  | host | pmd | stripe | priv | unpriv | none
deriving DecidableEq, Repr, Inhabited

def State.pclass (s : State) (pa : Nat) : PClass :=
  if pa ≤ hostTop then .host
  else if pmdBase ≤ pa ∧ pa < pmdBase + s.cap then .pmd
  else if strBase ≤ pa ∧ pa < strBase + s.cap then .stripe
  else if privBase ≤ pa ∧ pa < privBase + 2 ^ 24 then .priv
  else if unprivBase ≤ pa ∧ pa < unprivBase + 2 ^ 16 then .unpriv
  else .none

/-- Step 6 of R438 over n bytes: reason 0x02 for an address in no memory, as the privileged view is one for an access through a page
with SYS = 0 (R357, log entry 51), 0x05 for an aperture byte without cell. -/
def State.physBad (s : State) (pa n : Nat) : Option Nat :=
  (List.range n).findSome? fun i =>
    match s.pclass (pa + i) with
    | .none | .priv => some 2
    | .stripe => if (s.apCell (pa + i)).isNone then some 5 else none
    | _ => none

/-- Physical memory address of the cell behind a physical byte: aperture bytes are found by R283. -/
def State.cellOf (s : State) (pa : Nat) : Option Nat :=
  match s.pclass pa with
  | .host | .pmd => some pa
  | .stripe =>
    match s.apCell pa with
    | some (some c) => some (pmdBase + c)
    | _ => none
  | _ => none

/-! ### The capability list (R365) -/

/-- The 64 bytes of the capability list, as one little-endian number. -/
def State.capList (s : State) : Nat :=
  1 + (if s.z128 then 1 else 0) * 256 ^ 2 + s.dies * 256 ^ 3 + s.nnbu * 256 ^ 4 + 16 * 256 ^ 6 + 4 * 256 ^ 7
    + s.cap * 256 ^ 8 + pmdBase * 256 ^ 16 + strBase * 256 ^ 24 + 0x01FFFFFFFFFF1000 * 256 ^ 32
    + 45 * 256 ^ 40 + 150 * 256 ^ 41 + 1 * 256 ^ 42 + 120 * 256 ^ 43 + 144 * 256 ^ 44 + 1500 * 256 ^ 46
    + 800 * 256 ^ 48 + s.pkg.fwver.toNat * 256 ^ 52

/-! ### Column-word code (R456) -/

/-- Data bit held at a position of the code; none for check bits and the parity bit. -/
def posData (p : Nat) : Option Nat :=
  if p = 0 ∨ p = 1 ∨ p = 2 ∨ p = 4 ∨ p = 8 ∨ p = 16 ∨ p = 32 ∨ p = 64 ∨ p = 128 ∨ p = 256 then none
  else some (p - 2 - Nat.log2 p)

/-- Syndrome and parity of a pattern of flipped positions. -/
def eccSyn (fl : List Nat) : Nat × Bool := (fl.foldl (fun a p => a ^^^ p) 0, fl.length % 2 = 1)

inductive EccOut where
  | clean
  /-- The bit at this position is taken as wrong and corrected. -/
  | corr (pos : Nat)
  | unc
deriving DecidableEq, Repr, Inhabited

/-- The outcome of a read of a column word whose flipped positions are fl (R456). -/
def eccOut (fl : List Nat) : EccOut :=
  let (sy, p) := eccSyn fl
  if sy = 0 ∧ p = false then .clean
  else if p = true ∧ sy ≤ 265 then .corr sy
  else .unc

/-- Flips one position of a list of flipped positions. -/
def flipPos (fl : List Nat) (p : Nat) : List Nat := if fl.contains p then fl.filter (· ≠ p) else p :: fl

/-- Positions that differ from the stored word in the data a read uses (R456): none when it is clean or rightly
corrected; more where three or more bits pass unseen. No read uses an uncorrectable word; a line that the LLC read
before the word went wrong keeps its data. -/
def readErr (fl : List Nat) : List Nat :=
  match eccOut fl with
  | .corr p => flipPos fl p
  | .clean => fl
  | .unc => []

/-- A byte of a column word as a read uses it. -/
def State.cellByte (s : State) (a : Nat) : Byte :=
  let b := byteAt s.mem a
  if pmdBase ≤ a ∧ a < pmdBase + s.cap then
    let fl := mget [] s.flips ((a - pmdBase) / 32)
    if fl = [] then b
    else (readErr fl).foldl (fun b p => match posData p with
      | some i => if i / 8 = a % 32 then b ^^^ BitVec.twoPow 8 (i % 8) else b
      | none => b) b
  else b

/-- A byte at a physical address as a device agent reads it. -/
def State.physByte (s : State) (pa : Nat) : Byte :=
  match s.pclass pa with
  | .unpriv => if pa - unprivBase < 64 then BitVec.ofNat 8 (fieldOf s.capList (pa - unprivBase) 1) else 0
  | .priv => BitVec.ofNat 8 (fieldOf (s.regView ((pa - privBase) / 8 * 8)).toNat ((pa - privBase) % 8) 1)
  | _ => match s.cellOf pa with
    | some a => s.cellByte a
    | none => 0

def State.physRead (s : State) (pa : Nat) : Nat → List Byte
  | 0 => []
  | n + 1 => s.physByte pa :: s.physRead (pa + 1) n
def State.physLe (s : State) (pa n : Nat) : Nat := leNat (s.physRead pa n)

/-- The byte belongs to a register view (R366). -/
def State.inView (s : State) (pa : Nat) : Bool := match s.pclass pa with
  | .unpriv | .priv => true
  | _ => false
/-- An access of n bytes at an address is naturally aligned within one register (R502). -/
def oneRegister (a n : Nat) : Bool := [1, 2, 4, 8].contains n && a % n == 0

/-- What a host read of n bytes at an offset of BAR2 or BAR0 returns (R366, R502): for 1, 2, 4 or 8 bytes that are naturally
aligned the bytes of the register they lie in, else zero. A read changes nothing, so it is no event of the machine. -/
def State.hostRegRead (s : State) (bar2 : Bool) (off n : Nat) : Word :=
  if oneRegister off n then
    BitVec.ofNat 64 (s.physLe ((if bar2 then unprivBase else privBase) + off) n)
  else 0

/-- Records an uncorrectable detection (R456, R458): ECCST.UNC, NEW and ECCADDR of the channel. -/
def countUnc (col : Nat) (s : State) : State :=
  let c := colChan col
  let m := s.chan c
  let e := m.eccst
  let unc := (e.toNat / 2 ^ 16 + 1) % 2 ^ 16
  s.setChan c { m with eccst := BitVec.ofNat 64 (bits e.toNat 63 32 * 2 ^ 32 + unc * 2 ^ 16 + 1),
                       eccaddr := BitVec.ofNat 64 (col * 32) }
def countCorr (col : Nat) (s : State) : State :=
  let c := colChan col
  let m := s.chan c
  s.setChan c { m with eccst := m.eccst + BitVec.ofNat 64 (2 ^ 32) }

/-- Writes back the corrected word: its stored data become what reads use, and its code is new (R457, R261). -/
def writeBack (col : Nat) (s : State) : State :=
  let a := pmdBase + 32 * col
  let bs := (List.range 32).map fun i => s.cellByte (a + i)
  { s with mem := writeBytes s.mem a bs, flips := mset [] s.flips col [] }

/-- 64-byte line of a physical address. -/
def lineOf (pa : Nat) : Nat := pa / 64

/-- A channel read of one column word for the LLC or the host (R456, R457, R459): counts, writes back and poisons. -/
def chanRead (col : Nat) (s : State) : State :=
  let fl := mget [] s.flips col
  if fl = [] ∨ s.poison.contains (lineOf (pmdBase + 32 * col)) then s
  else match eccOut fl with
    | .clean => s
    | .corr _ =>
      let s := countCorr col s
      if bit (s.reg (0x100018 + 0x100 * colChan col)).toNat 0 then writeBack col s else s
    | .unc =>
      let s := countUnc col s
      { s with poison := lineOf (pmdBase + 32 * col) :: s.poison }

/-- Column words that a read of n bytes at a physical address reads in the die: both of each 64-byte line of PMD memory, and of the
striped aperture those that hold the bytes (R459; DESIGN CHOICE, log entry 77). -/
def State.colsOf (s : State) (pa n : Nat) : List Nat :=
  ((List.range n).flatMap fun i =>
    match s.cellOf (pa + i) with
    | some a =>
      if a < pmdBase then []
      else if s.pclass (pa + i) = .pmd then [(a - pmdBase) / 64 * 2, (a - pmdBase) / 64 * 2 + 1]
      else [(a - pmdBase) / 32]
    | none => []).eraseDups

/-- The column word that poisons the line of a column word: the first of the two that is uncorrectable. -/
def State.poisoner (s : State) (col : Nat) : Nat :=
  ([col / 2 * 2, col / 2 * 2 + 1].find? fun c => eccOut (mget [] s.flips c) = .unc).getD col

/-- A read of n physical bytes through the LLC: the column words are checked, and where the bytes lie in a poisoned line
the answer names the word that poisons it (R459). -/
def touchRead (pa n : Nat) (s : State) : Option Nat × State :=
  let cols := s.colsOf pa n
  if cols.all (fun c => mget [] s.flips c = []) && s.poison = [] then (none, s)
  else
    let s := cols.foldl (fun s c => chanRead c s) s
    ((cols.find? fun c => s.poison.contains (lineOf (pmdBase + 32 * c))).map s.poisoner, s)

/-- INFO of a cause-0x38 record (R459): reader, syndrome and parity. -/
def uncInfo (s : State) (col reader : Nat) : Nat :=
  let (sy, p) := eccSyn (mget [] s.flips col)
  reader * 2 ^ 16 + sy % 512 * 2 ^ 24 + (if p then 2 ^ 33 else 0)

/-- Writes one cell byte. -/
def putCell (s : State) (a : Nat) (b : Byte) : State := { s with mem := setByte s.mem a b }

/-- A write of consecutive physical bytes (R261, R459): a write that covers a whole column word gives it a new code
and ends its poison; a shorter write to a word that is uncorrectable loses its bytes there and is reported as
reader 0x07; otherwise it merges, and a corrected word is stored corrected. The die's read of the word is counted like any other
(R456). -/
def physWrite (pa : Nat) (data : List Byte) (s : State) : State :=
  let n := data.length
  let cells := (List.range n).filterMap fun i => (s.cellOf (pa + i)).map fun a => (a, data.getD i 0)
  let cols := (cells.filterMap fun c => if pmdBase ≤ c.1 then some ((c.1 - pmdBase) / 32) else none).eraseDups
  let s := cols.foldl (fun s col =>
    let fl := mget [] s.flips col
    if fl = [] then s
    else if 32 ≤ (cells.filter fun c => pmdBase ≤ c.1 ∧ (c.1 - pmdBase) / 32 = col).length then
      { s with flips := mset [] s.flips col [],
               poison := s.poison.filter (· ≠ lineOf (pmdBase + 32 * col)) }
    else match eccOut fl with
      | .unc => report { cause := 0x38, kind := 1, src := 13, val := BitVec.ofNat 64 (pmdBase + 32 * col),
                         info := BitVec.ofNat 64 (uncInfo s col 7) } .none (countUnc col s)
      | .corr _ => writeBack col (countCorr col s)
      | .clean => writeBack col s) s
  let lost := cols.filter fun col => mget [] s.flips col ≠ []
  cells.foldl (fun s c => if lost.contains ((c.1 - pmdBase) / 32) ∧ pmdBase ≤ c.1 then s else putCell s c.1 c.2) s

/-- The bytes behind a scratchpad address of a core. -/
def State.spRead (s : State) (core a n : Nat) : List Byte := readBytes (s.core core).sp a n
def spWrite (core a : Nat) (data : List Byte) (s : State) : State :=
  s.modCore core fun c => { c with sp := writeBytes c.sp a data }

/-- The home slice of a physical address (R107). -/
def homeSlice (pa : Nat) : Nat :=
  let line := pa / 64 % 2 ^ 51
  (List.range 11).foldl (fun a k => a ^^^ (line / 2 ^ (5 * k) % 32)) 0

end Sys2Proof.Machine
end

