-- ==== Sys2Proof/Machine/Lines.lean ====
section
/-! DEFINITION. Sharing of lines on the die and with the host (R106 to R108, R358 to R362, R133, R134): tokens of a line, the
two hint structures, and back-invalidation.
Readings and choices of the model: DEDUCED log entry 47; DESIGN CHOICE log entry 63. -/

namespace Sys2Proof.Machine

/-! ### Tokens (R361) -/

/-- Tokens of a line held by a core's L1; the home holds the rest of the 32. -/
def LineCo.held (l : LineCo) (core : Nat) : Nat := mget 0 l.tok core
def LineCo.away (l : LineCo) : Nat := l.tok.foldl (fun a t => a + t.2) 0

/-- 512-byte region of a line, and key of its entry in a cluster's filter (R362). -/
def regionOf (line : Nat) : Nat := line / 8
def filtKey (line cluster : Nat) : Nat := 4 * line + cluster

/-- The home gathers every token, as for a write performed there (R360, R361, R127). -/
def coHome (line : Nat) (s : State) : State :=
  let l := s.lineCo line
  s.setLine line { l with tok := [], owner := none, home := none }

/-- The slice that keeps a region's entry: FOLD, the XOR of R107 applied to the region number (R362). -/
def dirSlice (region : Nat) : Nat := homeSlice (64 * region)
/-- Lines of a region. -/
def regionLines (region : Nat) : List Nat := (List.range 8).map (8 * region + ·)
/-- A mask with exactly one bit. -/
def oneBit (m : BitVec 4) : Bool := m == 1 || m == 2 || m == 4 || m == 8
/-- An entry leaves to make room: one with two or more bits after every token of its lines outside the home is recalled, and none
of a LOST region (R362, R496). -/
def dropDir (region : Nat) (s : State) : State :=
  let s := if oneBit (mget 0 s.dir region) then s else (regionLines region).foldl (fun s l => coHome l s) s
  { s with dir := mset 0 s.dir region 0 }
def dropFilt (key : Nat) (s : State) : State :=
  let s := if oneBit (mget 0 s.filt key) then s else coHome (key / 4) s
  { s with filt := mset 0 s.filt key 0 }
/-- Which entry makes room is free. -/
def pickEntry (l : List Nat) (s : State) : Option Nat × State :=
  if l = [] then (none, s)
  else
    let (w, s) := s.takeFree
    (l[w.toNat % l.length]?, s)
/-- Room for a region's entry among the 8 192 of its slice (R362). -/
def roomDir (region : Nat) (s : State) : State :=
  let full := (s.dir.map (·.1)).filter fun r => dirSlice r == dirSlice region
  if mget 0 s.dir region ≠ 0 ∨ full.length < 8192 then s
  else match pickEntry (full.filter fun r => !s.lostReg.contains r) s with
    | (some r, s) => dropDir r s
    | (none, s) => s
/-- Room for a line's entry among the 16 384 of a cluster's filter (R362). -/
def roomFilt (key : Nat) (s : State) : State :=
  let full := (s.filt.map (·.1)).filter fun r => r % 4 == key % 4
  if mget 0 s.filt key ≠ 0 ∨ full.length < 16384 then s
  else match pickEntry full s with
    | (some r, s) => dropFilt r s
    | (none, s) => s

/-- What the answers to a discovery broadcast name for a line: the cores of a cluster that hold tokens of it, and the clusters
with such a core (R362). -/
def LineCo.coresIn (l : LineCo) (cluster : Nat) : BitVec 4 :=
  (List.range 4).foldl (fun m i => if 0 < l.held (4 * cluster + i) then m ||| BitVec.twoPow 4 i else m) 0
def LineCo.clusters (l : LineCo) : BitVec 4 :=
  (List.range 4).foldl (fun m i => if l.coresIn i ≠ 0 then m ||| BitVec.twoPow 4 i else m) 0
/-- A core's request for a line (R362): entries that are missing are rebuilt from the answers to a broadcast, and both name the
core. -/
def nameSharer (core line : Nat) (s : State) : State :=
  let cl := core / 4
  let l := s.lineCo line
  let s := roomFilt (filtKey line cl) (roomDir (regionOf line) s)
  let d := mget 0 s.dir (regionOf line)
  let f := mget 0 s.filt (filtKey line cl)
  { s with dir := mset 0 s.dir (regionOf line) ((if d = 0 then l.clusters else d) ||| BitVec.twoPow 4 cl),
           filt := mset 0 s.filt (filtKey line cl) ((if f = 0 then l.coresIn cl else f) ||| BitVec.twoPow 4 (core % 4)) }

/-- The bytes of a line as memory holds them. -/
def State.lineBytes (s : State) (line : Nat) : List Byte :=
  (List.range 64).map fun i =>
    match s.cellOf (64 * line + i) with
    | some a => byteAt s.mem a
    | none => 0

/-- A core's L1 gets a readable copy: one token, from the home if it holds one besides, else from a holder (R361). -/
def coRead (core line : Nat) (s : State) : State :=
  let l := s.lineCo line
  if 0 < l.held core then s
  else
    let s := nameSharer core line s
    if l.away < 32 then s.setLine line { l with tok := mset 0 l.tok core 1 }
    else
      -- every token is away: one comes from a core that holds more than one
      match l.tok.find? (fun t => 1 < t.2) with
      | some (c, n) => s.setLine line { l with tok := mset 0 (mset 0 l.tok c (n - 1)) core 1 }
      | none => s

/-- A core's L1 gets all 32 tokens, the owner token among them, to write the line, which is then dirty (R361); the
home's copy is what was last written back (R496). -/
def coWrite (core line : Nat) (s : State) : State :=
  let l := s.lineCo line
  let home := match l.home with
    | some h => some h
    | none => some (s.lineBytes line)
  nameSharer core line (s.setLine line { l with tok := [(core, 32)], owner := some core, home := home })

/-- An L1 evicts a line: its tokens, and the data if it holds the owner token, go home (R361). -/
def coEvict (core line : Nat) (s : State) : State :=
  let l := s.lineCo line
  s.setLine line { l with tok := merase l.tok core, owner := if l.owner = some core then none else l.owner,
                          home := if l.owner = some core then none else l.home }

/-- Lines that n bytes at a physical address touch. -/
def linesOf (pa n : Nat) : List Nat :=
  if n = 0 then [] else (List.range (lineOf (pa + n - 1) - lineOf pa + 1)).map (lineOf pa + ·)

/-- Lines behind the parts of a global access. -/
def partLines (parts : List (Nat × Nat × BitVec 2 × Bool)) : List Nat := parts.flatMap fun p => linesOf p.1 p.2.1

/-- The line is memory of a peer, which device accesses reach by UIO and not by CXL.cache (R357). -/
def State.peerLine (s : State) (line : Nat) : Bool :=
  s.pkg.peers.any fun r => decide (r.1 ≤ 64 * line) && decide (64 * line < r.1 + r.2)
/-- Lines of PMD memory and of the host's own have sharing state; a peer's lines, which an access reaches at their home (R134,
R357), striped pages (R284) and register views have none. -/
def State.cached (s : State) (line : Nat) : Bool :=
  match s.pclass (64 * line) with
  | .host => !s.peerLine line
  | .pmd => true
  | _ => false

/-- A core has an access or a store outstanding on the line. -/
def State.missing (s : State) (core line : Nat) : Bool :=
  let on := fun (p : Nat × Nat × BitVec 2 × Bool) => decide (p.1 / 64 ≤ line) && decide (line ≤ (p.1 + p.2.1 - 1) / 64)
  (List.range 4).any (fun i => (s.slot (4 * core + i)).pend.any fun a => a.parts.any on)
  || (s.core core).l1.any fun x => x.parts.any on
/-- The persistent request of another core is the active one of the line (R361). A request whose access has gone is no
longer a miss. -/
def State.reserved (s : State) (core line : Nat) : Bool :=
  match (s.lineCo line).preq.find? fun r => s.missing r.1 line with
  | none => false
  | some (c, _) => c != core

/-- Requests for these lines wait for the host link: it is down (R499), or carries no CXL.cache (R354), and the host is not declared
dead. -/
def State.linkWaits (s : State) (ls : List Nat) : Bool :=
  (!s.pkg.linkUp || s.pkg.cxlOld) && !s.pkg.fenced && ls.any fun l => s.pclass (64 * l) == .host

/-- The L1 of a core has stopped answering, and nothing has declared it dead (R133). -/
def State.mutes (s : State) (core : Nat) : Bool := (s.core core).mute && !s.pkg.deadCores.getLsbD core
/-- A core, or 16 for the home, can come to a token of the line and valid data, from holders that answer (R133, R361). -/
def State.canShare (s : State) (core line : Nat) : Bool :=
  let l := s.lineCo line
  decide (0 < l.held core) ||
    (l.owner.all (fun c => !s.mutes c) && decide ((l.tok.foldl (fun a t => if s.mutes t.1 then a + t.2 else a) 0) < 32))
/-- It can come to all 32 tokens. -/
def State.canOwn (s : State) (core line : Nat) : Bool :=
  (s.lineCo line).tok.all fun t => t.1 == core || !s.mutes t.1

/-- A core's read of these lines can be performed: the host holds none of them modified (R358), no other core has an active
persistent request (R361), their tokens are not with an agent that does not answer (R133), and the link does not hold it up. -/
def State.canAccess (s : State) (core : Nat) (ls : List Nat) : Bool :=
  (ls.all fun l => !(s.lineCo l).hostMod && !s.reserved core l && s.canShare core l) && !s.linkWaits ls

/-- BISnpInv is sent for the lines that the host may hold, before a write of them (R358). -/
def sendBisnp (ls : List Nat) (s : State) : State :=
  ls.foldl (fun s l => if (s.lineCo l).host then s.setLine l { s.lineCo l with bisnp := true } else s) s
/-- BISnpData is sent for the lines that the host may hold modified, before a read of them (R358). -/
def sendData (ls : List Nat) (s : State) : State :=
  ls.foldl (fun s l => if (s.lineCo l).hostMod then s.setLine l { s.lineCo l with bisnpD := true } else s) s

/-- The region that a PIMRUN names, once its block is read (R277). -/
def EOp.region (o : EOp) : Option Nat :=
  let b := leNat o.blk
  if o.kind = .pimrun ∧ o.read ∧ bit (fieldOf b 44 1) 0 then some (fieldOf b 37 1) else none
/-- A run that names region g is in flight: started, not complete and not parked (R280, R461). -/
def State.runsOn (s : State) (g : Nat) : Bool :=
  s.eops.any fun e => e.2.started != [] && !e.2.parked && e.2.region == some g
/-- A write to one of the lines waits for a run that names its striped region (R280). -/
def State.runHolds (s : State) (ls : List Nat) : Bool :=
  s.eops.any (fun e => e.2.region.isSome) && ls.any fun l =>
    s.pclass (64 * l) == .stripe && (s.regionsAt (64 * l) ++ s.regionsAt (64 * l + 63)).any s.runsOn

/-- A write of one of the lines at its home has to wait: the host may hold it (R358), a holder of its tokens does not answer
(R133), or a run reads it (R280). -/
def State.hostHolds (s : State) (ls : List Nat) : Bool :=
  ls.any (fun l => (s.lineCo l).host || !s.canOwn 16 l) || s.linkWaits ls || s.runHolds ls
/-- A core's write of these lines can be performed. -/
def State.canWrite (s : State) (core : Nat) (ls : List Nat) : Bool :=
  s.canAccess core ls && (ls.all fun l => !(s.lineCo l).host && s.canOwn core l) && !s.runHolds ls

/-- A satisfied persistent request is deactivated (R361). -/
def dropPreq (core line : Nat) (s : State) : State :=
  let l := s.lineCo line
  s.setLine line { l with preq := l.preq.filter (·.1 ≠ core), retried := l.retried.filter (· ≠ core), probe := none }

/-- The lines of a performed read and of a performed write of a core. -/
def coReads (core : Nat) (ls : List Nat) (s : State) : State :=
  ls.foldl (fun s l => if s.cached l then dropPreq core l (coRead core l s) else s) s
def coWrites (core : Nat) (ls : List Nat) (s : State) : State :=
  ls.foldl (fun s l => if s.cached l then dropPreq core l (coWrite core l s) else s) s
def coHomes (ls : List Nat) (s : State) : State := ls.foldl (fun s l => if s.cached l then coHome l s else s) s

/-- A write of physical bytes performed at the home: by an engine, an atomic unit or a commit. -/
def homeWrite (pa : Nat) (data : List Byte) (s : State) : State :=
  physWrite pa data (coHomes (linesOf pa data.length) s)

end Sys2Proof.Machine
end

