-- ==== Sys2Proof/Machine/Translate.lean ====
section
/-! DEFINITION. Translation (R99 to R105): the walk of the page table, the three tiers, the checks on an address in
their order (R438) with the reasons of R439, and how a slot's word and an engine's access meet them.
Readings and choices of the model: DEDUCED log entries 8, 33; DESIGN CHOICE log entries 14, 73. -/

namespace Sys2Proof.Machine

/-! ### Page table entries (R101) -/

def pteV (e : Nat) : Bool := bit e 0
def pteSys (e : Nat) : Bool := bit e 1
def pteIr (e : Nat) : Bool := bit e 2
def pteW (e : Nat) : Bool := bit e 3
def pteX (e : Nat) : Bool := bit e 4
def pteLeaf (e : Nat) : Bool := bit e 5
def pteS64 (e : Nat) : Bool := bit e 6
def pteGex (e : Nat) : Bool := bit e 7
def pteStr (e : Nat) : Bool := bit e 8
def pteDlv (e : Nat) : Bool := bit e 9
/-- Ordering kind: 0 SO, 1 RC, 2 UO; 3 is not a kind. -/
def pteKind (e : Nat) : Nat := bits e 11 10
/-- FRAME joined to twelve zero bits. -/
def pteFrame (e : Nat) : Nat := bits e 56 12 * 4096

/-- A walk's outcome: a leaf to cache, or cause and reason (R439). -/
inductive WalkRes where
  | leaf (t : TlbEnt)
  | bad (cause reason : Nat)
deriving DecidableEq, Repr, Inhabited

/-- The walk of a virtual address from a table of a level down (R100, step 3 of R438): the addresses of the entries it reads, and
its outcome. -/
def State.walkFrom (s : State) (space va : Nat) : Nat → Nat → List Nat × WalkRes
  | 0, tab =>
    let a := tab + 8 * bits va 20 12
    let e := s.physLe a 8
    let leaf := fun (size : Nat) => WalkRes.leaf { space := space, base := va / size * size, size := size, pte := BitVec.ofNat 64 e }
    ([a], if !pteV e then .bad 0x20 0x50
          else if pteKind e = 3 ∨ (pteS64 e ∧ bits e 15 12 ≠ 0) then .bad 0x20 0x54
          else leaf (if pteS64 e then 2 ^ 16 else 2 ^ 12))
  | l + 1, tab =>
    let a := tab + 8 * bits va (12 * l + 32) (12 * l + 21)
    let e := s.physLe a 8
    if !pteV e then ([a], .bad 0x20 (0x51 + l))
    else if l = 0 ∧ pteLeaf e then
      ([a], if pteKind e = 3 ∨ bits e 20 12 ≠ 0 then .bad 0x20 0x54
            else .leaf { space := space, base := va / 2 ^ 21 * 2 ^ 21, size := 2 ^ 21, pte := BitVec.ofNat 64 e })
    else if l ≠ 0 ∧ (pteLeaf e ∨ bits e 14 12 ≠ 0) then ([a], .bad 0x20 0x54)
    else
      let (as, r) := s.walkFrom space va l (pteFrame e)
      (a :: as, r)

/-- The walk of a virtual address in a space, with the entries it reads. -/
def State.walkAll (s : State) (space va : Nat) : List Nat × WalkRes :=
  let sp := (s.reg (0x010000 + 8 * space)).toNat
  if bit sp 0 then s.walkFrom space va 3 (bits sp 56 15 * 2 ^ 15) else ([], .bad 0x20 0x55)
/-- The outcome of a walk: the entries of all its levels are read in one step (DESIGN CHOICE, log entry 14). -/
def State.walk (s : State) (space va : Nat) : WalkRes := (s.walkAll space va).2
/-- The lines of the entries that the walk reads. -/
def State.walkLines (s : State) (space va : Nat) : List Nat := ((s.walkAll space va).1.map lineOf).eraseDups

/-! ### Tiers (R104) -/

def TlbEnt.covers (t : TlbEnt) (space va : Nat) : Bool := t.space == space && t.base ≤ va && va < t.base + t.size
/-- Physical address of a virtual address of the page. -/
def TlbEnt.pa (t : TlbEnt) (va : Nat) : Nat := pteFrame t.pte.toNat + (va - t.base)

/-- Tier numbers: the shared cache, a slot's TLB, and the engine TLBs. -/
def tierShared : Nat := 0
def tierSlot (k : Nat) : Nat := 1 + k
def tierXfer (core : Nat) : Nat := 100 + core
def tierGlean (g : Nat) : Nat := 120 + g
def tierEngine (n : Nat) : Nat := 160 + n
/-- The engines of a kind of which there are several: reduction engines 0 to 3, and 4 more than the slice of an attention unit. -/
def tierUnit (n : Nat) : Nat := 180 + n

/-- A cached translation in a tier or in the shared cache; a hit in the shared cache leaves the tier as it is (DESIGN CHOICE, log
entry 73). -/
def State.tlbFind (s : State) (tier space va : Nat) : Option TlbEnt :=
  match (mget [] s.tlbs tier).find? (·.covers space va) with
  | some t => some t
  | none => (mget [] s.tlbs tierShared).find? (·.covers space va)

/-- Caches a leaf in a tier of n entries; the oldest makes room (R105). -/
def cacheIn (tier n : Nat) (t : TlbEnt) (s : State) : State :=
  { s with tlbs := mset [] s.tlbs tier ((t :: (mget [] s.tlbs tier).filter (· ≠ t)).take n) }

/-- Capacity of a tier (R104). -/
def tierSize (tier : Nat) : Nat := if tier = tierShared then 16384 else if tier < 100 then 256 else 64

/-- Caches a leaf in the tiers that served the miss (R105). -/
def cacheLeaf (tier : Nat) (t : TlbEnt) (s : State) : State :=
  cacheIn tierShared 16384 t (cacheIn tier (tierSize tier) t s)

/-! ### Checks (R438, R439) -/

inductive Want where
  | read | write | fetch
deriving DecidableEq, Repr, Inhabited

/-- Steps 4 and 5 of R438 for an agent that is not the management core. -/
def leafBad (e : Nat) (w : Want) : Option (Nat × Nat) :=
  if pteSys e then some (0x21, 0x5B)
  else match w with
    | .read => if pteIr e then none else some (0x21, 0x58)
    | .write => if pteW e then none else some (0x21, 0x59)
    | .fetch => if pteX e then none else some (0x21, 0x5A)

/-- The answer to an access's translation. -/
inductive Xl where
  | hit (t : TlbEnt)
  /-- No cached translation: the word waits for the walk (R104). -/
  | miss
  | bad (c : Cause)
deriving DecidableEq, Repr, Inhabited

/-- The slot takes words, so that it comes to report a failed walk. -/
def Slot.meets (sl : Slot) : Bool := sl.task.isSome && (sl.st == 1 || sl.st == 3 || sl.st == 4)
/-- A miss of the slot on a page. -/
def Slot.missOn (sl : Slot) (space page : Nat) : Option Miss := sl.misses.find? fun m => m.space == space && m.page == page
/-- A failed walk that this slot's access on the page meets now: of the slots whose misses merged into it, the one that joined first
reports first (R442). -/
def State.failedMiss (s : State) (k space page : Nat) : Option (Nat × Nat) :=
  match (s.slot k).missOn space page with
  | none => none
  | some m =>
    if (List.range 64).any fun j => (s.slot j).meets && ((s.slot j).missOn space page).any fun x =>
      x.failed.isSome && decide (x.seq < m.seq) then none else m.failed

/-- Translation of one part of a slot's access, steps 1 and 3 to 5 of R438 (step 2 and alignment are the word's). -/
def State.xlPage (s : State) (k va : Nat) (w : Want) : Xl :=
  let sl := s.slot k
  if 2 ^ 57 ≤ va then .bad { code := 0x23, reason := 0x60, val := va }
  else match s.tlbFind (tierSlot k) sl.space va with
    | none =>
      match s.failedMiss k sl.space (va / 4096) with
      | some (c, r) => .bad { code := c, reason := r, val := va }
      | none => .miss
    | some t =>
      match leafBad t.pte.toNat w with
      | some (c, r) => .bad { code := c, reason := r, val := va }
      | none => .hit t

/-- The same with step 6. -/
def State.xlSlot (s : State) (k va n : Nat) (w : Want) : Xl :=
  match s.xlPage k va w with
  | .hit t =>
    match s.physBad (t.pa va) n with
    | some r => .bad { code := 0x30, reason := r, val := va, src := some 13, unit := homeSlice (t.pa va) }
    | none => .hit t
  | x => x

/-- A slot's miss is registered, merged with one on the same page and space; at most 16 are outstanding (R104). -/
def addMiss (k va : Nat) (s : State) : State :=
  let sl := s.slot k
  if (sl.missOn sl.space (va / 4096)).isSome ∨ 16 ≤ sl.misses.length then s
  else
    let m : Miss := { space := sl.space, page := va / 4096, seq := s.nextMiss }
    { s with nextMiss := s.nextMiss + 1 }.modSlot k fun sl => { sl with misses := sl.misses ++ [m] }

/-- Forgets the failed misses of a slot, once their word has been reported (R442: the next access walks again). -/
def dropFailed (k : Nat) (s : State) : State :=
  s.modSlot k fun sl => { sl with misses := sl.misses.filter fun m => m.failed.isNone }

/-- The page parts of an access of n bytes (R103): address and length, at most two for n ≤ 4 096. -/
def pageParts (va n : Nat) : List (Nat × Nat) :=
  let n1 := min n (4096 - va % 4096)
  if n1 < n then [(va, n1), (va + n1, n - n1)] else [(va, n)]

/-- Translation of a whole access of a slot: parts with physical address, length, ordering kind and GEX; else a miss, or
the failure that ranks first (R421), of one rank the first in address order. -/
inductive XlAll where
  | ok (parts : List (Nat × Nat × BitVec 2 × Bool)) (dlv str : Bool)
  | miss (va : Nat)
  | bad (c : Cause)
deriving DecidableEq, Repr, Inhabited

/-- Rank of a translation cause (R421). -/
def xlRank (c : Cause) : Nat := if c.code = 0x23 then 0 else if c.code = 0x20 then 1 else if c.code = 0x21 then 2 else 3

def State.xlAccess (s : State) (k : Nat) (w : Want) : List (Nat × Nat) → XlAll
  | [] => .ok [] true false
  | (va, n) :: ps =>
    match s.xlSlot k va n w, s.xlAccess k w ps with
    | .bad c, .bad d => .bad (if xlRank d < xlRank c then d else c)
    | .bad c, .miss v => if xlRank c < 2 then .bad c else .miss v
    | .bad c, .ok _ _ _ => .bad c
    | .miss, .bad d => if xlRank d = 0 then .bad d else .miss va
    | .miss, _ => .miss va
    | .hit t, .ok qs d r =>
      let e := t.pte.toNat
      .ok ((t.pa va, n, BitVec.ofNat 2 (pteKind e), pteGex e) :: qs) (d && pteDlv e) (r || pteStr e)
    | .hit _, x => x

/-- A slot waits for a walk of the page, or has yet to report that it failed: a miss that joins now comes after it (R442). -/
def State.walking (s : State) (space page : Nat) : Bool :=
  (List.range 64).any fun k => (s.slot k).misses.any fun m => m.space == space && m.page == page
    && (m.failed.isNone || (s.slot k).meets)

/-- The step is put off: ls are the lines that the host has to give up first. -/
def putOffFor (ls : List Nat) (s : State) : State := { s with walkStop := some ls }
/-- A change of s to s' in which an engine's walk could not be made leaves s as it is, but that the host's copies of the table's lines
are called back (R105, R358). -/
def unlessPutOff (s s' : State) : State :=
  match s'.walkStop with
  | some ls => sendData ls s
  | none => s'
/-- The same of a step from s. -/
def putOff (s : State) (r : Host.Outcome State Fault Refusal) : Host.Outcome State Fault Refusal :=
  match r with
  | .next s' => .next (unlessPutOff s s')
  | _ => r

/-- Translation for an engine: a miss walks within the step and caches the leaf in the engine's tier (log entry 8); it waits for
a walk of the page that is under way, into which it has merged (R104), and for lines of the table that it may not read yet.
Answers physical address and leaf, or cause and reason. -/
def xlEngine (tier space va n : Nat) (w : Want) (s : State) : Sum (Nat × Nat) (Nat × Nat) × State :=
  if 2 ^ 57 ≤ va then (.inl (0x23, 0x60), s)
  else
    let (r, s) : WalkRes × State := match s.tlbFind tier space va with
      | some t => (.leaf t, s)
      | none =>
        let ls := s.walkLines space va
        if s.walking space (va / 4096) then (.bad 0x20 0x50, putOffFor [] s)
        else if !s.canAccess 16 ls then (.bad 0x20 0x50, putOffFor ls s)
        else match s.walk space va with
        | .leaf t => (.leaf t, cacheLeaf tier t s)
        | .bad c r => (.bad c r, s)
    match r with
    | .bad c r => (.inl (c, r), s)
    | .leaf t =>
      match leafBad t.pte.toNat w with
      | some x => (.inl x, s)
      | none =>
        match s.physBad (t.pa va) n with
        | some q => (.inl (0x30, q), s)
        | none => (.inr (t.pa va, t.pte.toNat), s)

/-- Translation of n bytes for an engine, page by page: the physical runs in order, or the faulting address with
cause and reason. -/
def xlRange (tier space : Nat) (w : Want) : Nat → Nat → Nat → State →
    Sum (Nat × Nat × Nat) (List (Nat × Nat × Nat)) × State
  | 0, _, _, s => (.inr [], s)
  | fuel + 1, va, n, s =>
    if n = 0 then (.inr [], s)
    else
      let n1 := min n (4096 - va % 4096)
      match xlEngine tier space va n1 w s with
      | (.inl (c, r), s) => (.inl (va, c, r), s)
      | (.inr (pa, e), s) =>
        match xlRange tier space w fuel (va + n1) (n - n1) s with
        | (.inl x, s) => (.inl x, s)
        | (.inr l, s) => (.inr ((pa, n1, e) :: l), s)

/-- The bytes of physical runs in order. -/
def State.runBytes (s : State) (l : List (Nat × Nat × Nat)) : List Byte := l.flatMap fun r => s.physRead r.1 r.2.1

end Sys2Proof.Machine
end

