-- ==== Sys2Proof/Machine/Tables.lean ====
section
/-! DEFINITION. The tables of the task graph unit (R312 to R316): graphs, nodes, edges and types, and the tile window of a
producer (R330).
Readings and choices of the model: DEDUCED log entry 25. -/

namespace Sys2Proof.Machine

/-! ### Graphs, nodes, edges and types -/

def State.graph? (s : State) (g : Nat) : Option Graph := lookupN s.tgu.graphs g
def setGraph (g : Nat) (v : Graph) (s : State) : State :=
  { s with tgu := { s.tgu with graphs := mput (merase s.tgu.graphs g) g v } }
/-- A field of a graph descriptor (R312). -/
def Graph.f (g : Graph) (b n : Nat) : Nat := fieldOf g.desc.toNat b n
def Graph.node0 (g : Graph) : Nat := g.f 16 2
def Graph.nnode (g : Graph) : Nat := g.f 18 2
def Graph.edge0 (g : Graph) : Nat := g.f 20 2
def Graph.nedge (g : Graph) : Nat := g.f 22 2
def Graph.ctr0 (g : Graph) : Nat := g.f 24 2
def Graph.nctr (g : Graph) : Nat := g.f 26 2
def Graph.poolInit (g : Graph) : Nat := g.f 28 2
def Graph.space (g : Graph) : Nat := bits (g.f 30 1) 3 0 * 256 + g.f 31 1
/-- Parameter bank b of the graph (R321). -/
def Graph.bankOf (g : Graph) (b : Bool) : Nat := if b then g.f 8 8 else g.f 0 8

/-- Node i of a graph, and its fields (R313). -/
def State.node (s : State) (g : Graph) (i : Nat) : Nat := s.nodeEnt (g.node0 + i)
def nType (e : Nat) : Nat := fieldOf e 0 1
def nStage (e : Nat) : Nat := fieldOf e 1 1 % 16
def nNx (e : Nat) : Nat := fieldOf e 2 2
def nNy (e : Nat) : Nat := fieldOf e 4 2
def nNz (e : Nat) : Nat := fieldOf e 6 2
def nNin (e : Nat) : Nat := fieldOf e 8 1
def nSrc (e : Nat) : Bool := bit (fieldOf e 9 1) 0
def nCount (e : Nat) : Nat := nNx e * nNy e * nNz e
/-- Coordinates of a linear index, and back (R313). -/
def nX (e i : Nat) : Nat := i % nNx e
def nY (e i : Nat) : Nat := i / nNx e % nNy e
def nZ (e i : Nat) : Nat := i / (nNx e * nNy e)
def nIdx (e x y z : Nat) : Nat := x + nNx e * (y + nNy e * z)

/-- Edges of a graph with their numbers, and their fields (R314). -/
def State.edgesOf (s : State) (g : Graph) : List (Nat × Nat) :=
  (List.range g.nedge).map fun i => (i, s.edgeEnt (g.edge0 + i))
def eSrc (e : Nat) : Nat := bits e 23 12
def eDst (e : Nat) : Nat := bits e 35 24
def eMap (e : Nat) : Nat := bits e 39 38
def eSlots (e : Nat) : Nat := bits e 47 40
def eIn (e : Nat) : Nat := bits e 50 48
def eCut (e : Nat) : Bool := bit e 51

/-- Fields of a task type (R316). -/
def tCode (e : Nat) : Nat := fieldOf e 0 8
def tSpw (e : Nat) : Nat := bits (fieldOf e 8 2) 8 0
def tAccw (e : Nat) : Nat := fieldOf e 10 1
def tClass (e : Nat) : Nat := bits (fieldOf e 12 1) 2 0
def tLevel (e : Nat) : Nat := bits (fieldOf e 12 1) 4 3
def tGuarded (e : Nat) : Bool := bit (fieldOf e 12 1) 5
def tRefire (e : Nat) : Nat := bits (fieldOf e 12 1) 7 6
def tCls (e : Nat) : Nat := bits (fieldOf e 13 1) 1 0
def tCmax (e : Nat) : Nat := bits (fieldOf e 13 1) 3 2
def tMembers (e : Nat) : Nat := bits (fieldOf e 14 1) 4 0
def tCost (e : Nat) : Nat := fieldOf e 15 1
def tEst (e : Nat) : Nat := fieldOf e 16 4
def tLatn (e : Nat) : Nat := fieldOf e 20 4
def tBarids (e : Nat) : Nat := fieldOf e 24 4
def tPboff (e : Nat) : Nat := fieldOf e 28 2
def tPbstr (e : Nat) : Nat := fieldOf e 30 2
def tToff (e : Nat) : Nat := fieldOf e 32 4
def tTlen (e : Nat) : Nat := fieldOf e 36 4
def tSlip (e : Nat) : Nat := bits (fieldOf e 40 2) 10 0

/-! ### Tile windows -/

/-- The pages of a producer's tile window, as physical pieces (R330): the tile address in the bound bank, and every
page of the window; or the cause met. -/
def windowOf (t : Nat) (s : State) : Sum Cause (List (Nat × Nat)) × State :=
  let i := s.inst t
  let ty := s.typeEnt i.type
  let gr := (s.graph? i.graph).getD {}
  let va := (gr.bankOf i.bank + tToff ty) % 2 ^ 64
  match xlRange (tierEngine 12) gr.space .read 3 va 8 s with
  | (.inl (a, c, r), s) => (.inl { code := c, reason := r, val := a }, s)
  | (.inr l, s) =>
    match l.foldl (fun (p : Option Nat × State) r => match p.1 with
        | some c => (some c, p.2)
        | none => touchRead r.1 r.2.1 p.2) (none, s) with
    | (some col, s) => (.inl { code := 0x38, val := pmdBase + 32 * col, info := some (uncInfo s col 3) }, s)
    | (none, s) =>
      let tile := leNat (s.runBytes l)
      match xlRange (tierEngine 12) gr.space .write (tTlen ty / 4096 + 2) tile (tTlen ty) s with
      | (.inl (a, c, r), s) => (.inl { code := c, reason := r, val := a }, s)
      | (.inr l, s) => (.inr (l.map fun r => (r.1, r.2.1)), s)

/-- The lines to be called back before the pages of a task's window can be found; none if nothing stands in the way. -/
def State.windowStop (s : State) (t : Nat) : Option (List Nat) :=
  let i := s.inst t
  if i.window.isSome ∨ tTlen (s.typeEnt i.type) = 0 then none else (windowOf t s).2.walkStop
/-- The tile window of a task as it stands (R330): the pages found at its first CUTPOST, and before it those that a CUTPOST
would find now; none for a task that is no producer, or whose window does not translate. -/
def State.windowNow (s : State) (t : Nat) : List (Nat × Nat) :=
  let i := s.inst t
  match i.window with
  | some w => w
  | none => if tTlen (s.typeEnt i.type) = 0 then [] else match (windowOf t s).1 with
    | .inr w => w
    | .inl _ => []

end Sys2Proof.Machine
end

