-- ==== Sys2Proof/Machine/Seq.lean ====
section
/-! DEFINITION. How a sequencer moves: text order with loop ends (R178), taken transfers, the walk index (R36), the
ticks of the exposed pipe (R58 to R60), the spans of private C words (R40, R424), and how a word stops its slot.
Readings and choices of the model: DEDUCED log entries 17, 19. -/

namespace Sys2Proof.Machine

/-! ### Moving in text order -/

/-- The word at pc has been reached in sequence: the innermost bodies that end at it count an iteration (R178).
Answers the next pc, its walk index (R36: a private body keeps the indices of its text positions) and the stack. -/
def loopEnd (pc : Word) (walk : Int) : List LoopLv → Word × Int × List LoopLv
  | [] => (pc + 4, walk + 1, [])
  | l :: ls =>
    if l.stop = pc then
      if 1 < l.left then
        (l.start, (if l.priv then walk + (l.start - pc).toInt / 4 else walk + 1),
          { l with left := l.left - 1, again := true } :: ls)
      else loopEnd pc walk ls
    else (pc + 4, walk + 1, l :: ls)

/-- The word at pc is passed, or done, in sequence. -/
def Seq.step (q : Seq) : Seq :=
  let r := loopEnd q.pc q.walk q.loops
  { q with pc := r.1, walk := r.2.1, loops := r.2.2,
           back := q.back.filter (·.cword ≠ q.pc) }

/-- A loop level holds address t in its body. -/
def LoopLv.holds (l : LoopLv) (t : Word) : Bool := l.start.toNat ≤ t.toNat && t.toNat ≤ l.stop.toNat

/-- A taken transfer to t (R176 to R178): it ends the bodies that do not hold t; a private one moves the walk by text
positions (R36). -/
def Seq.goto (q : Seq) (t : Word) (priv : Bool) : Seq :=
  { q with pc := t, loops := q.loops.dropWhile (fun l => !l.holds t),
           walk := if priv then q.walk + (t - q.pc).toInt / 4 else q.walk + 1 }

/-- The walk position lies beyond index i: the sequencer has passed it, as every index once it has passed END. -/
def Seq.passed (q : Seq) (i : Int) : Bool := q.ended || decide (i < q.walk)
/-- The walk position has come to index i: every word of lower index is behind it. -/
def Seq.reached (q : Seq) (i : Int) : Bool := q.ended || decide (i ≤ q.walk)
/-- Both sequencers have passed walk index i of a word that party own took (R46): own passed the word when it took it,
and still has when a private loop takes it back to an earlier index; the other has left the index behind. -/
def Slot.bothPassed (sl : Slot) (own : Party) (i : Int) : Bool :=
  match own with
  | .asq => sl.esq.passed i
  | .esq => sl.asq.passed i
  | .helper => true
/-- The party that dispatches the words of an engine queue: 0 V, 1 M, 2 TA, 3 TH (R33, R47). -/
def queueParty (q : Nat) : Party := if q = 2 then .asq else if q = 3 then .helper else .esq

/-! ### Ticks of the exposed pipe -/

/-- One tick (R58): the results due at it are written, the later issued last, and the count advances. -/
def tickOnce (k : Nat) (s : State) : State :=
  let sl := s.slot k
  let due := sl.results.filter fun r => !r.inter && decide (r.due ≤ sl.tick)
  let s := s.setSlot k { sl with results := sl.results.filter (fun r => r.inter || !decide (r.due ≤ sl.tick)),
                                 tick := sl.tick + 1 }
  due.foldl (fun s r => landRes k r s) s

/-- n ticks. -/
def ticks (k : Nat) : Nat → State → State
  | 0, s => s
  | n + 1, s => ticks k n (tickOnce k s)

/-- The ESQ spends n ticks on a word, if it runs in exposed mode. -/
def esqTicks (k n : Nat) (s : State) : State := if (s.slot k).exposed then ticks k n s else s

/-! ### The party that takes a word -/

/-- Slot, party and word of the present step. -/
def State.me (s : State) : Nat := s.sel.slot
def State.mySlot (s : State) : Slot := s.slot s.sel.slot

def Slot.pcOf (sl : Slot) : Party → Word
  | .asq => sl.asq.pc
  | .esq => sl.esq.pc
  | .helper => sl.helper.pc
/-- Walk index of a party's word; helper words carry none (R48). -/
def Slot.walkOf (sl : Slot) : Party → Option Int
  | .asq => some sl.asq.walk
  | .esq => some sl.esq.walk
  | .helper => none

/-- The slot has issued a word (R416). -/
def progress (k : Nat) (s : State) : State :=
  s.modSlot k fun sl => { sl with lastAct := s.clk, reported := false }

/-- The helper's word at pc is done in sequence. -/
def Helper.step (h : Helper) : Helper :=
  let r := loopEnd h.pc 0 h.loops
  { h with pc := r.1, loops := r.2.2 }
def Helper.goto (h : Helper) (t : Word) : Helper :=
  { h with pc := t, loops := h.loops.dropWhile (fun l => !l.holds t) }

/-! ### The management core (R353, R431) -/

/-- The management core takes the word, as against a slot. -/
def State.isMgmt (s : State) : Bool := s.sel.kind == .mgmt
def modMgmt (f : Mgmt → Mgmt) (s : State) : State := { s with mgmt := f s.mgmt }
def Mgmt.rx (m : Mgmt) (r : BitVec 5) : Word := if r = 0 then 0 else mget 0 m.x r.toNat
def Mgmt.wx (m : Mgmt) (r : BitVec 5) (v : Word) : Mgmt := if r = 0 then m else { m with x := mset 0 m.x r.toNat v }
/-- It goes on in text order, or to t, with the rules of R178 for its loops. -/
def Mgmt.step (m : Mgmt) : Mgmt :=
  let r := loopEnd m.pc 0 m.loops
  { m with pc := r.1, loops := r.2.2 }
def Mgmt.goto (m : Mgmt) (t : Word) : Mgmt := { m with pc := t, loops := m.loops.dropWhile (fun l => !l.holds t) }
/-- Address of its word plus four times an offset (R141). -/
def Mgmt.target (m : Mgmt) (off : Int) : Word := m.pc + BitVec.ofInt 64 (4 * off)
/-- It takes a cause with its own handler (R431). -/
def mgmtTrap (cause : Nat) (s : State) : State :=
  modMgmt (fun m => { m with epc := m.pc, epriv := m.priv, pc := m.vec, priv := true, cause := cause }) s

/-- A party has done its word and stands at the next; an ESQ word takes one tick in exposed mode. -/
def adv (k : Nat) (p : Party) (s : State) : State :=
  let s := progress k s
  match p with
  | .asq => s.modSlot k fun sl => { sl with asq := sl.asq.step }
  | .esq => (esqTicks k 1 s).modSlot k fun sl => { sl with esq := sl.esq.step }
  | .helper => s.modSlot k fun sl => { sl with helper := sl.helper.step }

/-- The word is done: the party that took it goes on. -/
def done (s : State) : Host.Outcome State Fault Refusal := ok (adv s.sel.slot s.sel.party s)

/-- A Y word is done: both sequencers pass it (R35). -/
def doneY (s : State) : Host.Outcome State Fault Refusal := ok (adv s.sel.slot .esq (adv s.sel.slot .asq s))

/-! ### Stopping -/

/-- The word being taken meets a cause: it has no effect and its slot stops (R406, R407). A meaning makes its checks in the
order of R421, so that c is the cause that ranks first (R402). -/
def stop (c : Cause) (s : State) : Host.Outcome State Fault Refusal :=
  let k := s.sel.slot
  ok (faultStop k (srcOf s.sel.party) s.sel.word (s.mySlot.pcOf s.sel.party) c (dropFailed k s))

/-- SRC of the party that dispatched a word of a queue: 1 for V and M, 0 for TA, 2 for TH (R417). -/
def queueSrc (q : Nat) : Nat := srcOf (queueParty q)

/-- A word that leaves its queue meets a cause: it goes back to the head and its slot stops (R418). -/
def stopIssue (c : Cause) (s : State) : Host.Outcome State Fault Refusal :=
  let k := s.sel.slot
  let sl := s.slot k
  match sl.issuing with
  | none => stop c s
  | some (e, q) =>
    let s := s.setSlot k { sl with queues := mset [] sl.queues q (e :: mget [] sl.queues q), issuing := none }
    ok (faultStop k (queueSrc q) e.word e.pc c (dropFailed k s))

/-! ### Spans of private C words (R40, R424) -/

/-- Owner codes of C words (R141). -/
def ownA : BitVec 2 := 0
def ownE : BitVec 2 := 1
def ownAE : BitVec 2 := 2
def ownEA : BitVec 2 := 3
def ownPriv (o : BitVec 2) : Bool := o.toNat < 2

/-- The span that the other sequencer records when it passes a private C word (R424): of a forward BR, BRNONE or JMP
up to its target, of a LOOP its body. -/
def spanOf (pc : Word) (walk : Int) (i : Instr) : Option Span :=
  let fwd := fun (off : Int) (cond : Bool) =>
    if 0 < off then some { lo := pc + 4, hi := pc + BitVec.ofInt 64 (4 * off), cword := pc, walk := walk, cond := cond }
    else none
  match i with
  | .br _ _ _ f => fwd f.toInt true
  | .brnone _ f => fwd f.toInt true
  | .jmp _ f => fwd f.toInt false
  | .loop _ _ l => fwd l.toNat false
  | _ => none

/-- The private C word whose span a word at the sequencer's pc breaks (R424). q is the sequencer, o the other one; takes
says that the sequencer takes the word, as both take a Y word and a shared C word. -/
def spanBroken (q o : Seq) (w : W32) (takes : Bool) : Option Word :=
  let inside := fun (sp : Span) => sp.lo.toNat ≤ q.pc.toNat && q.pc.toNat ≤ sp.hi.toNat
  let other := if takes then
      q.spans.find? fun sp => inside sp && (!sp.cond || o.taken.any (fun t => t.1 == sp.cword && t.2 == sp.walk))
    else none
  match other with
  | some sp => some sp.cword
  | none =>
    if wordTag w = 7 ∨ takes then none
    else match q.back.find? inside with
      | some sp => some sp.cword
      | none =>
        match q.loops.find? fun l => l.priv && l.again && l.holds q.pc with
        | some l => some (l.start - 4)
        | none => q.calls.head?.map (·.2)

/-- The other sequencer records a span, and forgets those it has left behind. -/
def Seq.record (q : Seq) (sp : Option Span) : Seq :=
  { q with spans := (match sp with | some x => [x] | none => []) ++
      q.spans.filter fun x => x.lo.toNat ≤ q.pc.toNat && q.pc.toNat ≤ x.hi.toNat }

/-- The owner notes the outcome of its private BR, BRNONE or JMP at its pc, taken to t or not (R424). -/
def Seq.noteTaken (q : Seq) (t : Option Word) : Seq :=
  let q := { q with back := q.back.filter (·.cword ≠ q.pc) }
  match t with
  | none => q
  | some t =>
    if t.toNat ≤ q.pc.toNat then { q with back := { lo := t, hi := q.pc, cword := q.pc, walk := q.walk } :: q.back }
    else { q with taken := (q.pc, q.walk) :: q.taken }

end Sys2Proof.Machine
end

