-- ==== Sys2Proof/Machine/Coherence.lean ====
section
/-! DEFINITION. Guarded write sets (R129 to R131, R329, R455): what they hold, what a write or a commit waits for, and how they are
discarded.
Readings and choices of the model: DEDUCED log entries 15, 47. -/

namespace Sys2Proof.Machine

/-! ### Guarded write sets (R129 to R131, R329) -/

/-- The writes of a write set, in program order (R129). -/
def Inst.held (i : Inst) : List Held := i.ents.map (·.w)

/-- The instance writes into a write set: guarded and not irrevocable. -/
def Inst.holds (i : Inst) : Bool := i.guarded && !i.irrevocable

/-- Bytes of a held entry. -/
def Held.span : Held → Nat × List Byte
  | .bytes pa d => (pa, d)
  | .deliver pa d _ => (pa, d)
  | .redw pa _ _ _ _ _ => (pa, [])
  | .add1 pa _ => (pa, [])

/-- Lines of a write set. -/
def heldLines (hs : List Held) : List Nat :=
  (hs.flatMap fun h => match h with
    | .bytes pa d => linesOf pa d.length
    | .deliver pa d _ => linesOf pa d.length
    | .redw pa _ _ _ _ _ => [lineOf pa]
    | .add1 pa _ => [lineOf pa]).eraseDups

/-- A store of one of the lines has left a slot and is not visible yet (R122). -/
def State.unseen (s : State) (ls : List Nat) : Bool :=
  s.cores.any fun c => c.2.l1.any fun x => (partLines x.parts).any ls.contains

/-- The write set of a task cannot commit yet (R129, R134): a write of its lines waits, or an open write that preceded is
not in its place. -/
def State.commitWaits (s : State) (t : Nat) : Bool :=
  let ls := heldLines (s.inst t).held
  s.hostHolds ls || s.unseen ls
/-- Lines whose copies at the host are called back for a write of the task on the lines ls, its write set among them. -/
def State.taskLines (s : State) (t : Nat) (ls : List Nat) : List Nat :=
  if (s.inst t).holds then ls ++ heldLines (s.inst t).held ++ (s.windowStop t).getD [] else ls
/-- A write of a task on the lines ls waits (R122, R129, R134): they are not free for a write, an earlier open write of them is
not in its place, or the task's write set, which such a write may overflow, cannot commit, or its tile window cannot be found yet. -/
def State.putWaits (s : State) (t : Nat) (ls : List Nat) : Bool :=
  s.hostHolds ls || s.unseen ls || ((s.inst t).holds && (s.commitWaits t || (s.windowStop t).isSome))

/-- The value of byte pa as the task reads it: its last held write, else memory (R129, R163). -/
def heldByte (hs : List Held) (pa : Nat) (b : Byte) : Byte :=
  hs.foldl (fun b h =>
    let (a, d) := h.span
    if a ≤ pa ∧ pa < a + d.length then d.getD (pa - a) 0 else b) b

/-- n bytes as a task reads them. -/
def State.taskRead (s : State) (hs : List Held) (pa n : Nat) : List Byte :=
  (List.range n).map fun i => heldByte hs (pa + i) (s.physByte (pa + i))

/-- Size of a number format of AMO and REDW in bytes (R167). -/
def fmtBytes (f : BitVec 2) : Nat := if f = 0 then 4 else if f = 1 then 8 else if f = 2 then 4 else 2

/-- A record of an event, as FQCTL.EVMASK selects (R410, R412): mask bit m, or always. -/
def eventRecord (cause reason lines : Nat) (m : Option Nat) (t : Nat) (gstat : Nat) (s : State) : State :=
  let on := match m with
    | some b => bit (s.reg 0x130000).toNat (8 + b)
    | none => true
  if on then
    let i := s.inst t
    reportEvent { cause := cause, kind := 2, src := 12, gstat := gstat + gstatOf i i.faulted,
                  place := match i.slots with | k :: _ => whereOf k | [] => 0,
                  info := BitVec.ofNat 64 (reason + 2 ^ 8 * lines), task := taskRecord i } s
  else s

/-- A discarded write set and its event record (R131, R410). -/
def discardSet (t reason : Nat) (m : Option Nat) (s : State) : State :=
  let i := s.inst t
  let n := (heldLines i.held).length
  let s := eventRecord 0x71 reason n m t 4 s
  s.setInst t { s.inst t with ents := [] }

end Sys2Proof.Machine
end

