-- ==== Sys2Proof/Machine/Scopes.lean ====
section
/-! DEFINITION. Scopes between cores (R111, R118, R120): which stores that are not visible yet a release passes on, which an acquire
owes its slot, and what then waits for them. How far held writes of a guarded task are carried to its operations (R123, R129).
Readings and choices of the model: DEDUCED log entries 15, 34, 72. -/

namespace Sys2Proof.Machine

/-- Two byte intervals overlap. -/
def overlap (a n b m : Nat) : Bool := decide (a < b + m) && decide (b < a + n)

/-! ### Stores before their visibility points -/

/-- The agents outside the slot that a scope covers, seen from a core: bits 15:0 the cores, 16 the units of the logic die, 17 the
MCS, NBUs and reduction engines (R111). -/
def scopeMask (core scope : Nat) : BitVec 18 :=
  match scope with
  | 0 => 0
  | 1 => BitVec.twoPow 18 core
  | 2 => 15#18 <<< (core / 4 * 4)
  | 3 => 0x1FFFF
  | _ => 0x3FFFF

/-- The stores that have not reached their visibility points, after a change of each (R122). -/
def mapL1 (f : L1Store → L1Store) (s : State) : State :=
  { s with cores := s.cores.map fun c => (c.1, { c.2 with l1 := c.2.l1.map f }) }
/-- Some store that has not reached its visibility point, and the core whose slots may read it. -/
def State.anyL1 (s : State) (f : Nat → L1Store → Bool) : Bool := s.cores.any fun c => c.2.l1.any (f c.1)
/-- It lies on pages to which no fence applies (R113). -/
def L1Store.isUO (x : L1Store) : Bool := x.parts.all (·.2.2.1 == 2)

/-- A release fence of slot k passes on the slot's stores, and those whose chains have come to the slot (R118, R120). -/
def L1Store.released (k scope : Nat) (x : L1Store) : L1Store :=
  let m := scopeMask (coreOf k) scope
  let own := if x.slot == k && !x.isUO then [{ core := coreOf k, reach := m, chain := m : Passed }] else []
  let more := (x.due.filter (·.1 == k)).map fun d => { core := coreOf k, reach := m, chain := m &&& d.2 : Passed }
  { x with out := (x.out ++ own ++ more).eraseDups }
def releaseMarks (k scope : Nat) (s : State) : State :=
  if scope = 0 then s
  else (mapL1 (L1Store.released k scope) s).modSlot k fun sl => { sl with rel := max sl.rel scope }

/-- The releases of the store that an acquire of slot k may have read from, as chains to that slot: the release reaches the slot,
and the acquire's scope covers the releasing core (R118). -/
def L1Store.comes (k scope : Nat) (x : L1Store) : List (BitVec 18) :=
  let m := scopeMask (coreOf k) scope
  if x.slot == k then [] else
  (x.out.filter fun o => o.reach.getLsbD (coreOf k) && m.getLsbD o.core).map fun o => o.chain &&& m
/-- An acquire fence of slot k: what has been released to it is owed to the slot, and where a release fence stands before it, to
those that acquire the slot's later writes (R118, R120). -/
def L1Store.acquired (k scope rel : Nat) (x : L1Store) : L1Store :=
  let ms := x.comes k scope
  { x with due := (x.due ++ ms.map fun m => (k, m)).eraseDups,
           out := if rel = 0 then x.out
             else (x.out ++ ms.map fun m => { core := coreOf k, reach := scopeMask (coreOf k) rel, chain := m : Passed }).eraseDups }
def acquireMarks (k scope : Nat) (s : State) : State :=
  if scope = 0 then s else mapL1 (L1Store.acquired k scope (s.slot k).rel) s

/-- A store owed to the slot, whatever the chain covers. -/
def State.dueTo (s : State) (k : Nat) : Bool := s.anyL1 fun _ x => x.due.any (·.1 == k)
/-- A store of another core has been released to an agent, a core or unit as in `scopeMask`: an acquire of SYSTEM scope that
orders everything after it waits for it (R118, R121). -/
def State.owes (s : State) (agent : Nat) : Bool :=
  s.anyL1 fun c x => c != agent && x.out.any fun o => o.reach.getLsbD agent && o.chain.getLsbD agent
/-- Parts of an access of slot k meet a store of another core that is owed to the slot and whose chain covers it (R120, R121). -/
def State.accOwed (s : State) (k : Nat) (parts : List (Nat × Nat × BitVec 2 × Bool)) : Bool :=
  s.anyL1 fun c x => c != coreOf k && x.due.any (fun d => d.1 == k && d.2.getLsbD (coreOf k)) &&
    x.parts.any fun a => parts.any fun b => b.2.2.1 != 2 && overlap a.1 a.2.1 b.1 b.2.1
/-- A store of slot k is not visible yet, or one is owed to it: what a release of SYSTEM scope waits for (R125, R134). -/
def State.unreleased (s : State) (k : Nat) (uo : Bool) : Bool :=
  s.dueTo k || (s.core (coreOf k)).l1.any fun x => x.slot == k && (uo || !x.isUO || x.dset != 0)
/-- A store of slot k that a fence has carried to units outside the core, by scope, is not visible yet (R123). -/
def State.forkOwed (s : State) (k scope : Nat) : Bool :=
  decide (3 ≤ scope) && (s.core (coreOf k)).l1.any fun x => x.slot == k && x.out.any (·.reach.getLsbD (if scope = 3 then 16 else 17))

/-- Agent scope of the unit that executes a queued word (R111): the core, the die for gleaners and their engines, the
package for MCS and reduction; a helper stream belongs to the slot. -/
def agentScope (w : W32) : Nat :=
  match decodeCore w with
  | .ok (.glkick _ _ _ _ _) | .ok (.gllink _ _ _ _) | .ok (.attn _ _ _ _) | .ok (.sample _ _ _ _)
  | .ok (.wnstep _ _ _ _) => 3
  | .ok (.pimld _ _ _ _) | .ok (.pimrun _ _ _ _) | .ok (.reduce _ _ _ _) => 4
  | .ok (.hspawn _ _ _ _) => 0
  | _ => 1

/-! ### Held writes carried to operations (R123, R129) -/

/-- The entries p of the write set of task t are carried to the agents within a scope. -/
def carryEnts (t scope : Nat) (p : HeldEnt → Bool) (s : State) : State :=
  let i := s.inst t
  if i.ents = [] then s
  else s.setInst t { i with ents := i.ents.map fun e => if p e then { e with reach := max e.reach (scope + 1) } else e }
/-- A fence of the task, or a write to an SO page, carries the stores of its slots. -/
def carryStores (t scope : Nat) (s : State) : State := carryEnts t scope (·.op.isNone) s
/-- The observation of what an operation has signalled carries its writes to every agent (R124). -/
def carryOps (k : Nat) (p : Origin → Bool) (s : State) : State :=
  carryEnts ((s.slot k).task.getD 0) 5 (fun e => e.done && e.op.any fun o => o.member == (s.slot k).member && p o) s
/-- A word of queue e that has taken its token observes the operation that posted it (R44, R124). -/
def tokCarry (k e : Nat) (tk : BitVec 4) (s : State) : State :=
  if tkWait tk then carryOps k (fun o => tkPost o.tok && partner e tk == some o.queue && partner o.queue o.tok == some e) s else s
/-- The entries carried to an operation of an agent within a scope. -/
def Inst.carriedTo (i : Inst) (scope : Nat) : List Nat := (i.ents.filter fun e => decide (scope < e.reach)).map (·.num)
/-- One operation of a task. -/
def Origin.same (o p : Origin) : Bool := o.member == p.member && o.id == p.id && o.bySlot == p.bySlot
/-- The held writes that an operation reads: those carried to it, and its own. -/
def Inst.seenBy (i : Inst) (o : Origin) : List Held :=
  (i.ents.filter fun e => o.sees.contains e.num || e.op.any o.same).map (·.w)
/-- The operation has retired: what it wrote can be carried further. -/
def endEnts (o : Origin) (s : State) : State :=
  let i := s.inst o.task
  if i.ents = [] then s
  else s.setInst o.task { i with ents := i.ents.map fun e => if e.op.any o.same then { e with done := true } else e }

end Sys2Proof.Machine
end

