-- ==== Sys2Proof/Machine/Atomic.lean ====
section
/-! DEFINITION. The atomic unit of a home slice (R127, R167 to R169, R454), and the commit of a write set (R129).
Readings and choices of the model: DESIGN CHOICE log entry 10; DEDUCED log entries 33, 47. -/

namespace Sys2Proof.Machine

/-- APPLY (R167, R168): fmt 0 and 1 are integers of 32 and 64 bits, 2 is FP32, 3 is FP16. -/
def atomApply (op : BitVec 4) (fmt : BitVec 2) (old opd : Nat) : Nat :=
  let w := 8 * fmtBytes fmt
  let F := if fmt = 2 then fp32 else fp16
  let o := opd % 2 ^ w
  if op = 0 then o
  else if 2 ≤ fmt.toNat then
    let a := F.value false old
    let b := F.value false o
    if op = 1 then F.round 0 false (a.add 0 b)
    else if op = 5 then F.round 0 false (a.min b)
    else F.round 0 false (a.max b)
  else match op.toNat with
    | 1 => (old + o) % 2 ^ w
    | 2 => old &&& o
    | 3 => old ||| o
    | 4 => old ^^^ o
    | 5 => if sext w old ≤ sext w o then old else o
    | 6 => if sext w old ≤ sext w o then o else old
    | 7 => min old o
    | _ => max old o

/-- The operation exists for the format (R167). -/
def atomOp (op : BitVec 4) (fmt : BitVec 2) : Bool :=
  decide (op.toNat < 9) && (fmt.toNat < 2 || [0, 1, 5, 6].contains op.toNat)

/-- The CXL.cache request of an access to host memory ends with this reason of cause 0x50 (R497, R499). -/
def State.hostErr (s : State) (pa n : Nat) : Option Nat :=
  if s.pclass pa != .host then none
  else if s.pkg.fenced then some 4
  else (s.pkg.hostPoison.find? fun x => (linesOf pa n).contains x.1).map (·.2)
/-- The failed request is over; the next one is a request of its own. -/
def forgetErr (pa n : Nat) (s : State) : State :=
  { s with pkg := { s.pkg with hostPoison := s.pkg.hostPoison.filter fun x => !(linesOf pa n).contains x.1 } }

/-- The atomic unit refuses n bytes at pa (R454): reasons 0x01 to 0x05, and the column word of reason 0x03. -/
def atomBad (pa n : Nat) (str : Bool) (s : State) : Option Nat × State :=
  if str then (some 1, s)
  else match s.physBad pa n with
    | some r => (some r, s)
    | none =>
      match s.pclass pa with
      | .priv | .unpriv => (some 2, s)
      | .host => if (s.hostErr pa n).isSome then (some 4, forgetErr pa n s) else (none, s)
      | _ =>
        match touchRead pa n s with
        | (some _, s) => (some 3, s)
        | (none, s) => (none, s)

/-- A record of the atomic unit for a REDW (R414, R454): KIND 1, SRC 13, UNIT the slice, VAL the virtual address. -/
def redwRecord (t : Nat) (pc : Word) (pa va reason : Nat) (s : State) : State :=
  let i := s.inst t
  report { cause := 0x30, kind := 1, src := 13, gstat := gstatOf i i.faulted, unit := homeSlice pa,
           place := match i.slots with | k :: _ => whereOf k | [] => 0,
           pc := pc, val := BitVec.ofNat 64 va, info := BitVec.ofNat 64 reason, task := taskRecord i } .none s

/-- A byte of a list of physical pieces. -/
def inPieces (ps : List (Nat × Nat)) (pa : Nat) : Bool := ps.any fun p => decide (p.1 ≤ pa) && decide (pa < p.1 + p.2)
/-- A byte of the tile window of a producer, as its first CUTPOST found it (R330). -/
def Inst.inWin (i : Inst) (pa : Nat) : Bool := inPieces (i.window.getD []) pa

/-- The runs of a task's open write that take their place: a frozen producer's bytes in its window are dropped (R334). -/
def Inst.liveBytes (i : Inst) (pa : Nat) (d : List Byte) : List (Nat × List Byte) :=
  if !i.frozen || i.window.isNone then [(pa, d)]
  else (d.mapIdx fun j b => (pa + j, [b])).filter fun x => !i.inWin x.1

/-- An open write of a task at the home. -/
def taskWrite (t pa : Nat) (d : List Byte) (s : State) : State :=
  ((s.inst t).liveBytes pa d).foldl (fun s x => homeWrite x.1 x.2 s) s

/-- One read-modify-write of a task at the home. -/
def atomDo (t pa n : Nat) (f : Nat → Nat) (s : State) : State :=
  taskWrite t pa (leBytes (f (s.physLe pa n)) n) s

/-- A write of the task to the n bytes at pa is held in its write set (R129): the task is guarded, and the write neither lies on
a page with GEX (R102) nor begins in the task's tile window (R132). -/
def State.holdsAt (s : State) (t pa : Nat) (gex : Bool) : Bool :=
  (s.inst t).holds && !gex && !inPieces (s.windowNow t) pa

/-- Ways of the line's set in a core's L1 that are in a transient state: their lines have an access outstanding (R364). -/
def State.transientWays (s : State) (core line : Nat) : Nat :=
  let ls := ((List.range 4).flatMap fun i => (s.slot (4 * core + i)).pend.flatMap fun a => partLines a.parts)
    ++ (s.core core).l1.flatMap fun x => partLines x.parts
  (ls.eraseDups.filter fun l => Config.l1Set l == Config.l1Set line).length

/-- An offered copy is installed with one token of the home, or refused and counted (R364). A copy whose line another write has
gathered since is refused (R453), as is a line of a LOST region (R496). -/
def decideOffer (o : Offer) (s : State) : State :=
  let c := s.core o.core
  let dlvq := (s.reg (0x080000 + 0x1000 * o.core)).toNat
  let l := s.lineCo o.line
  let win := s.clk / bits dlvq 23 12
  let got := if c.dlvWin = win then c.dlvAccepted else 0
  if decide (bits dlvq 7 0 ≤ got) || s.pkg.gated.getLsbD o.core || s.pkg.deadCores.getLsbD o.core
      || decide (8 ≤ s.transientWays o.core o.line) || s.lostReg.contains (regionOf o.line) || 16 < l.away then
    s.setCore o.core { c with dlvRefused := c.dlvRefused + 1 }
  else
    let s := s.setCore o.core { c with dlvAccepted := got + 1, dlvWin := win }
    let l := s.lineCo o.line
    nameSharer o.core o.line (if l.held o.core = 0 then s.setLine o.line { l with tok := mset 0 l.tok o.core 1 } else s)

/-- The copies that a held delivered store offers once it has taken its place (R129, R164). -/
def Held.offers : Held → List Offer
  | .deliver pa _ dset => ((List.range 16).filter fun c => dset.getLsbD c).map fun c => { core := c, line := lineOf pa }
  | .bytes _ _ | .redw _ _ _ _ _ _ | .add1 _ _ => []

/-- Puts an offer before the first of a higher line (R364). -/
def offerByLine (o : Offer) : List Offer → List Offer
  | [] => [o]
  | p :: l => if o.line < p.line then o :: p :: l else p :: offerByLine o l

/-- One held write takes its place (R129). -/
def commitOne (t : Nat) (h : Held) (s : State) : State :=
  match h with
  | .bytes pa d => taskWrite t pa d s
  | .deliver pa d _ => taskWrite t pa d s
  | .redw pa op fmt opd pc va =>
    match atomBad pa (fmtBytes fmt) false s with
    | (some r, s) => redwRecord t pc pa va r s
    | (none, s) => atomDo t pa (fmtBytes fmt) (fun old => atomApply op fmt old opd.toNat) s
  | .add1 pa va =>
    match atomBad pa 8 false s with
    | (some r, s) => redwRecord t 0 pa va r s
    | (none, s) => atomDo t pa 8 (fun old => (old + 1) % 2 ^ 64) s

/-- The write set commits in one step, in program order (R129), and the copies it delivers are decided, which the release that
the commit is waits for (R128). -/
def commitSet (t : Nat) (s : State) : State :=
  let hs := (s.inst t).held
  let s := s.setInst t { s.inst t with ents := [] }
  ((hs.flatMap Held.offers).foldr offerByLine []).foldl (fun s o => decideOffer o s) (hs.foldl (fun s h => commitOne t h s) s)

/-- A guarded task becomes irrevocable (R131, R329, R410). -/
def becomeIrrevocable (t reason : Nat) (s : State) : State :=
  if (s.inst t).holds then
    let s := commitSet t s
    let s := s.setInst t { s.inst t with irrevocable := true }
    eventRecord 0x70 reason 0 (some 2) t 0 s
  else s

/-- A held write would break the limits of a write set (R329, R455): 16 384 lines, or 8 ways of an LLC set. -/
def overflows (hs : List Held) (h : Held) : Bool :=
  let new := (heldLines [h]).filter fun l => !(heldLines hs).contains l
  let all := heldLines hs ++ new
  decide (16384 < all.length)
  || new.any fun l =>
    decide (8 < (all.filter fun m => homeSlice (64 * m) == homeSlice (64 * l) && Config.llcSet m == Config.llcSet l).length)

/-- The write set with one write more. -/
def Inst.hold (i : Inst) (op : Option Origin) (h : Held) : Inst :=
  { i with ents := i.ents ++ [{ w := h, num := i.nextEnt, op := op }], nextEnt := i.nextEnt + 1 }
/-- A held write takes the place that R129 gives it: in the write set, whose limits are tested first (R329); a write that
would break them takes its place once the set has committed. op is the operation that writes; none for a slot. -/
def hold1 (t : Nat) (op : Option Origin) (h : Held) (s : State) : State :=
  let i := s.inst t
  if overflows i.held h then commitOne t h (becomeIrrevocable t 1 s)
  else s.setInst t (i.hold op h)

/-- A write of a task by one of its operations: held, or open. -/
def holdOr (t : Nat) (op : Option Origin) (h : Held) (gex : Bool) (s : State) : State :=
  match h with
  | .bytes pa d =>
    if ((List.range d.length).any fun j => s.holdsAt t (pa + j) gex) && (List.range d.length).any fun j => !s.holdsAt t (pa + j) gex then
      -- the write meets the edge of the window: each byte goes its own way
      (d.mapIdx fun j b => (pa + j, [b])).foldl (fun s' x =>
        if s.holdsAt t x.1 gex && (s'.inst t).holds then hold1 t op (.bytes x.1 x.2) s' else commitOne t (.bytes x.1 x.2) s') s
    else if s.holdsAt t pa gex then hold1 t op h s else commitOne t h s
  | .deliver pa _ _ | .redw pa _ _ _ _ _ | .add1 pa _ =>
    if s.holdsAt t pa gex then hold1 t op h s else commitOne t h s

end Sys2Proof.Machine
end

