-- ==== Sys2Proof/Machine/Access.lean ====
section
/-! DEFINITION. The access words of the ASQ (R162 to R173), the pending memory events they leave behind, and when each
may be performed (R45, R46, R113 to R117, R170).
Readings and choices of the model: DEDUCED log entries 16, 60, 62, 68, 69. -/

namespace Sys2Proof.Machine

/-! ### Issuing an access -/

/-- Bytes of a size code; 0 for 0b111, which is no size (R162). -/
def szBytes (z : BitVec 3) : Nat :=
  match z.toNat with
  | 0 | 4 => 1
  | 1 | 5 => 2
  | 2 | 6 => 4
  | 3 => 8
  | _ => 0

/-- EXTEND (R162): sign for the .I sizes, zero for the .N sizes. -/
def szExtend (z : BitVec 3) (v : Nat) : Word :=
  match z.toNat with
  | 0 => wordOf (sext 8 v)
  | 1 => wordOf (sext 16 v)
  | 2 => wordOf (sext 32 v)
  | _ => BitVec.ofNat 64 v

/-- Step 1 of R438 for a global address. -/
def addrBad (va align : Nat) : Option Cause :=
  if 2 ^ 57 ≤ va then some { code := 0x23, reason := 0x60, val := va }
  else if va % align ≠ 0 then some { code := 0x23, reason := 0x61, val := va }
  else none

/-- Step 2 of R438 for n bytes of the slot's scratchpad window; VAL is the first byte outside it. -/
def spBad (sl : Slot) (a n : Nat) : Option Cause :=
  if a + n ≤ sl.spSize then none else some { code := 0x22, reason := 0x5C, val := max a sl.spSize }

def Acc.isSP (p : Acc) : Bool :=
  p.kind == .spLoad || p.kind == .spStore || p.kind == .queueStore || (p.kind == .queueLoad && p.parts == [])
def Acc.isGL (p : Acc) : Bool := !p.isSP && p.kind != .fence
def Acc.isRead (p : Acc) : Bool :=
  p.kind == .load || p.kind == .spLoad || p.kind == .queueLoad || p.kind == .amo || p.kind == .barg
def Acc.isWrite (p : Acc) : Bool :=
  p.kind == .store || p.kind == .spStore || p.kind == .queueStore || p.kind == .amo || p.kind == .barg
/-- An atomic of any kind. -/
def Acc.isAtom (p : Acc) : Bool := p.kind == .amo || p.kind == .barg
def Acc.isSO (p : Acc) : Bool := p.isGL && p.parts.any (·.2.2.1 == 0)
def Acc.isUO (p : Acc) : Bool := p.isGL && p.parts.all (·.2.2.1 == 2)

/-- The storage mask of a fence holds the access's space, and the page is not UO (R112, R113). -/
def Acc.covered (f p : Acc) : Bool :=
  (p.isSP && f.stor.getLsbD 0) || (p.isGL && !p.isUO && f.stor.getLsbD 2)

/-- Fence f, later than q, waits for q (R113). -/
def Acc.fenceWaits (f q : Acc) : Bool :=
  f.covered q && (f.fk != 0 || q.isRead)
/-- Access p, later than fence f, waits for f (R113). -/
def Acc.fenceHolds (f p : Acc) : Bool :=
  f.covered p && (f.fk == 0 || f.fk == 2 || (f.fk == 1 && (p.isWrite)))

/-- The two accesses touch one location (R114). -/
def Acc.sameLoc (q p : Acc) : Bool :=
  (q.isSP && p.isSP && overlap q.va q.len p.va p.len)
  || (q.isGL && p.isGL && q.parts.any fun x => p.parts.any fun y => overlap x.1 x.2.1 y.1 y.2.1)

/-- q, earlier in program order and not yet performed, must be performed before p (R113 to R117); an arrival comes after its
own release, and FULL fences of one slot keep their order among all FULL fences. -/
def Acc.before (q p : Acc) : Bool :=
  if p.kind = .bar then q.kind == .fence && q.data != 0 && q.walk == p.walk
  else if q.kind = .bar then false
  else if p.kind = .fence then p.fenceWaits q || (q.kind == .fence && q.fk == 2 && p.fk == 2)
  else if q.kind = .fence then q.fenceHolds p
  else q.sameLoc p
    || (q.isSO && p.isSO)
    || (p.isSO && p.isWrite && !q.isUO)
    || (q.isSO && q.isRead && !p.isUO)

/-- The slot has an SO access that is not yet performed at SYSTEM scope (R115): pending, or before its visibility
point. -/
def State.soPending (s : State) (k : Nat) : Bool :=
  (s.slot k).pend.any Acc.isSO
  || (s.core (coreOf k)).l1.any fun x => x.slot == k && x.parts.any (·.2.2.1 == 0)

/-- What precedes a fork to an agent of the scope has been performed (R113, R115, R123): SO accesses, and the XP and FULL fences
that cover the agent; before says which pending events come earlier in program order. -/
def State.forkReady (s : State) (k scope : Nat) (before : Acc → Bool) : Bool :=
  ((s.slot k).pend.all fun q => !before q
      || !(q.isSO || (q.kind == .fence && 2 ≤ q.fk.toNat && q.stor != 0 && decide (scope ≤ q.scope.toNat))))
    && !s.forkOwed k scope && (s.core (coreOf k)).l1.all fun x => x.slot != k || x.parts.all (·.2.2.1 != 0)

/-- The event stands before a word of this walk index and dispatch number in program order (R109). -/
def Acc.earlier (q : Acc) (walk : Option Int) (id : Nat) : Bool :=
  match walk with
  | none => false
  | some w => decide (q.walk < w) || (q.walk == w && decide (q.id < id))

/-- Adds a pending event in walk order and numbers it; what was read early and has to come after it is read again (R440). -/
def pushAcc (k : Nat) (p : Acc) (s : State) : State :=
  s.modSlot k fun sl =>
    { sl with pend := (sl.pend.takeWhile fun q => decide (q.walk ≤ p.walk)) ++ { p with id := sl.nextId, since := s.clk }
                :: sl.pend.dropWhile fun q => decide (q.walk ≤ p.walk),
              nextId := sl.nextId + 1,
              early := sl.early.filter fun e => !(decide (p.walk < e.acc.walk) && p.before e.acc) }

/-- Number of intervals the checker holds (R46). -/
def chkMax : Nat := 64

/-- Records an interval of the word with dispatch number owner (R45). -/
def addIval (k owner : Nat) (lo hi : Nat) (write : Bool) (walk : Option Int) (s : State) : State :=
  s.modSlot k fun sl =>
    { sl with checker := sl.checker ++ [{ owner := owner, lo := lo, hi := hi, write := write, walk := walk,
                                          seq := sl.nextId }], nextId := sl.nextId + 1 }

/-- Interval u comes before v in the checker's order (R45). -/
def Ival.prior (u v : Ival) : Bool :=
  match u.walk, v.walk with
  | some a, some b => decide (a < b) || (a == b && decide (u.seq < v.seq))
  | _, _ => decide (u.seq < v.seq)
def Ival.conflicts (u v : Ival) : Bool := decide (u.lo ≤ v.hi) && decide (v.lo ≤ u.hi) && (u.write || v.write)

/-- The accesses of word owner may begin: none of another word's intervals that conflict comes before (R45). -/
def Slot.checked (sl : Slot) (owner : Nat) : Bool :=
  sl.checker.all fun v => v.owner != owner
    || sl.checker.all fun u => u.owner == owner || !(u.prior v && u.conflicts v)
/-- The same for its reads or its writes alone. -/
def Slot.checkedBy (sl : Slot) (owner : Nat) (write : Bool) : Bool :=
  sl.checker.all fun v => v.owner != owner || v.write != write
    || sl.checker.all fun u => u.owner == owner || !(u.prior v && u.conflicts v)
/-- The intervals of a word whose accesses are done leave the checker. -/
def dropIvals (k owner : Nat) (s : State) : State :=
  s.modSlot k fun sl => { sl with checker := sl.checker.filter (·.owner ≠ owner) }

/-- The base pending event of the word being taken. -/
def State.newAcc (s : State) : Acc :=
  { pc := s.mySlot.asq.pc, word := s.sel.word, walk := s.mySlot.asq.walk }

/-- A scratchpad access of the ASQ is issued: recorded in the checker and left to be performed (R45, R46). -/
def issueSp (p : Acc) (write : Bool) (s : State) : Host.Outcome State Fault Refusal :=
  let k := s.sel.slot
  let sl := s.slot k
  if chkMax ≤ sl.checker.length ∨ s.soPending k then ok s
  else
    let s := pushAcc k p s
    done (addIval k sl.nextId p.va (p.va + p.len - 1) write (some p.walk) s)

/-- Translates n bytes at va for the word being taken, then goes on with the parts; a miss holds the word (R104). -/
def withGlobal (va n align : Nat) (w : Want) (s : State)
    (f : List (Nat × Nat × BitVec 2 × Bool) → Bool → Bool → State → Host.Outcome State Fault Refusal) :
    Host.Outcome State Fault Refusal :=
  match addrBad va align with
  | some c => stop c s
  | none =>
    match s.xlAccess s.sel.slot w (pageParts va n) with
    | .miss a => ok (addMiss s.sel.slot a s)
    | .bad c => stop c s
    | .ok parts dlv str => if s.soPending s.sel.slot then ok s else f parts dlv str s

/-- The column words behind the parts of a read are checked; a poisoned one stops the word (R459). -/
def readParts (parts : List (Nat × Nat × BitVec 2 × Bool)) (s : State) : Option Nat × State :=
  parts.foldl (fun r x => match r.1 with
    | some c => (some c, r.2)
    | none => touchRead x.1 x.2.1 r.2) (none, s)

/-- A global read whose parts have passed their checks, or the stop it comes to (R459). -/
def checkedRead (parts : List (Nat × Nat × BitVec 2 × Bool)) (s : State)
    (f : State → Host.Outcome State Fault Refusal) : Host.Outcome State Fault Refusal :=
  match readParts parts s with
  | (some col, s) => stop { code := 0x38, val := pmdBase + 32 * col, info := some (uncInfo s col 3) } s
  | (none, s) =>
    match parts.find? fun x => (s.hostErr x.1 x.2.1).isSome with
    | some x => stop { code := 0x50, val := x.1, info := s.hostErr x.1 x.2.1, src := some 14 } (forgetErr x.1 x.2.1 s)
    | none => f s

/-- A global write whose parts have passed their checks: a fenced host takes none (R497). -/
def checkedWrite (parts : List (Nat × Nat × BitVec 2 × Bool)) (s : State)
    (f : State → Host.Outcome State Fault Refusal) : Host.Outcome State Fault Refusal :=
  match parts.find? fun x => s.pclass x.1 == .host && s.pkg.fenced with
  | some x => stop { code := 0x50, val := x.1, info := some 4, src := some 14 } s
  | none => f s

/-! ### Loads and stores -/

/-- LDS (R163). -/
def execLds (d a : BitVec 5) (z : BitVec 3) (o : BitVec 10) (s : State) : Host.Outcome State Fault Refusal :=
  let sl := s.mySlot
  let n := szBytes z
  if sl.busyA a || sl.busyA d then ok s
  else if n = 0 then stop { code := 0x11, reason := 0x10 } s
  else
    let ea := (sl.ra a + simm o).toNat
    match spBad sl ea n with
    | some c => stop c s
    | none => issueSp { s.newAcc with kind := .spLoad, va := ea, len := n, dst := d.toNat, sz := z } false s

/-- STS (R163). -/
def execSts (d a : BitVec 5) (z : BitVec 3) (o : BitVec 10) (s : State) : Host.Outcome State Fault Refusal :=
  let sl := s.mySlot
  let n := szBytes z
  if sl.busyA a || sl.busyA d then ok s
  else if n = 0 then stop { code := 0x11, reason := 0x10 } s
  else
    let ea := (sl.ra a + simm o).toNat
    match spBad sl ea n with
    | some c => stop c s
    | none => issueSp { s.newAcc with kind := .spStore, va := ea, len := n, data := sl.ra d } true s

/-- LDG (R163). -/
def execLdg (d a : BitVec 5) (z : BitVec 3) (o : BitVec 10) (s : State) : Host.Outcome State Fault Refusal :=
  let sl := s.mySlot
  let n := szBytes z
  if sl.busyA a || sl.busyA d then ok s
  else if n = 0 then stop { code := 0x11, reason := 0x10 } s
  else
    let ea := (sl.ra a + simm o).toNat
    withGlobal ea n 1 .read s fun parts _ _ s => checkedRead parts s fun s =>
      done (pushAcc s.sel.slot { s.newAcc with kind := .load, va := ea, len := n, parts := parts, dst := d.toNat, sz := z } s)

/-- STG (R163). -/
def execStg (d a : BitVec 5) (z : BitVec 3) (o : BitVec 10) (s : State) : Host.Outcome State Fault Refusal :=
  let sl := s.mySlot
  let n := szBytes z
  if sl.busyA a || sl.busyA d then ok s
  else if n = 0 then stop { code := 0x11, reason := 0x10 } s
  else
    let ea := (sl.ra a + simm o).toNat
    withGlobal ea n 1 .write s fun parts _ _ s => checkedWrite parts s fun s =>
      done (pushAcc s.sel.slot { s.newAcc with kind := .store, va := ea, len := n, parts := parts, data := sl.ra d } s)

/-- STDL (R164): a store whose line is offered to the cores of the set once it is visible, on a page with DLV. -/
def execStdl (d a b : BitVec 5) (z : BitVec 3) (s : State) : Host.Outcome State Fault Refusal :=
  let sl := s.mySlot
  let n := szBytes z
  if sl.busyA a || sl.busyA d || sl.busyA b then ok s
  else if n = 0 then stop { code := 0x11, reason := 0x10 } s
  else
    let ea := (sl.ra a).toNat
    withGlobal ea n n .write s fun parts dlv _ s => checkedWrite parts s fun s =>
      done (pushAcc s.sel.slot { s.newAcc with kind := .store, va := ea, len := n, parts := parts, data := sl.ra d,
                                               dset := if dlv then (sl.ra b).extractLsb' 0 16 else 0 } s)

/-- Reserves a load-queue entry for the read with the next event number (R165). -/
def reserveLq (k q : Nat) (s : State) : State :=
  s.modSlot k fun sl => { sl with lq := mset [] sl.lq q (mget [] sl.lq q ++ [(sl.nextId, none)]) }

/-- QLD (R165). -/
def execQld (q a : BitVec 5) (o : BitVec 13) (s : State) : Host.Outcome State Fault Refusal :=
  let sl := s.mySlot
  let k := s.sel.slot
  if sl.busyA a then ok s
  else if 4 ≤ q.toNat then stop { code := 0x11, reason := 0x11 } s
  else
    let ea := (sl.ra a + simm o).toNat
    if ea % 16 ≠ 0 then stop { code := 0x23, reason := 0x61, val := ea } s
    else match spBad sl ea 256 with
      | some c => stop c s
      | none =>
        if 8 ≤ (mget [] sl.lq q.toNat).length ∨ chkMax ≤ sl.checker.length ∨ s.soPending k then ok s
        else issueSp { s.newAcc with kind := .queueLoad, va := ea, len := 256, dst := q.toNat, qid := sl.nextId } false
          (reserveLq k q.toNat s)

/-- QLDG (R165). -/
def execQldg (q a : BitVec 5) (o : BitVec 13) (s : State) : Host.Outcome State Fault Refusal :=
  let sl := s.mySlot
  let k := s.sel.slot
  if sl.busyA a then ok s
  else if 4 ≤ q.toNat then stop { code := 0x11, reason := 0x11 } s
  else
    let ea := (sl.ra a + simm o).toNat
    withGlobal ea 256 16 .read s fun parts _ _ s => checkedRead parts s fun s =>
      if 8 ≤ (mget [] sl.lq q.toNat).length then ok s
      else done (pushAcc k { s.newAcc with kind := .queueLoad, va := ea, len := 256, parts := parts, dst := q.toNat,
                                           qid := sl.nextId } (reserveLq k q.toNat s))

/-- QST (R165): the head entry leaves the store queue as the word issues. -/
def execQst (q a : BitVec 5) (o : BitVec 13) (s : State) : Host.Outcome State Fault Refusal :=
  let sl := s.mySlot
  let k := s.sel.slot
  if sl.busyA a then ok s
  else if 2 ≤ q.toNat then stop { code := 0x11, reason := 0x11 } s
  else
    let ea := (sl.ra a + simm o).toNat
    if ea % 16 ≠ 0 then stop { code := 0x23, reason := 0x61, val := ea } s
    else match spBad sl ea 256 with
      | some c => stop c s
      | none =>
        match mget [] sl.sq q.toNat with
        | [] => ok s
        | e :: es =>
          if chkMax ≤ sl.checker.length ∨ s.soPending k then ok s
          else issueSp { s.newAcc with kind := .queueStore, va := ea, len := 256, qdata := e } true
            (s.modSlot k fun sl => { sl with sq := mset [] sl.sq q.toNat es })

/-! ### Atomics and fences -/

/-- A fence of kind fk as a pending event. -/
def pushFence (k : Nat) (fk : BitVec 2) (scope stor : BitVec 3) (s : State) : State :=
  pushAcc k { s.newAcc with kind := .fence, fk := fk, scope := scope, stor := stor } s

/-- An atomic is issued with the fences its ordering field implies (R119); wait says that the ASQ stands still until the
old value returns (R168). -/
def issueAtom (p : Acc) (ord : BitVec 2) (scope : BitVec 3) (wait : Bool) (s : State) :
    Host.Outcome State Fault Refusal :=
  let k := s.sel.slot
  let s := if ord.getLsbD 1 then pushFence k 1 scope 4 s else s
  let id := (s.slot k).nextId
  let s := pushAcc k p s
  let s := if ord.getLsbD 0 then pushFence k 0 scope 4 s else s
  let s := if wait then s.modSlot k fun sl => { sl with hold := some id } else s
  done s

/-- The scope field of an ordering other than none names a scope (R111, R425). -/
def scopeBad (ord : BitVec 2) (scope : BitVec 3) : Bool := ord != 0 && decide (6 ≤ scope.toNat)

/-- An AMO or CAS of a guarded task to a page with GEX = 0 makes the task irrevocable first (R130). -/
def openFor (parts : List (Nat × Nat × BitVec 2 × Bool)) (reason : Nat) (s : State)
    (f : State → Host.Outcome State Fault Refusal) : Host.Outcome State Fault Refusal :=
  let t := s.mySlot.task.getD 0
  if (s.inst t).holds && parts.any (fun x => !x.2.2.2) then
    if s.commitWaits t then ok (sendBisnp (heldLines (s.inst t).held) s) else f (becomeIrrevocable t reason s)
  else f s

/-- The atomic unit's own checks of an AMO, CAS or BARG, which stop the word (R454). -/
def checkedAtom (parts : List (Nat × Nat × BitVec 2 × Bool)) (n : Nat) (str : Bool) (va : Nat) (s : State)
    (f : State → Host.Outcome State Fault Refusal) : Host.Outcome State Fault Refusal :=
  match parts with
  | [] => ok s
  | x :: _ =>
    match atomBad x.1 n str s with
    | (some r, s) => stop { code := 0x30, reason := r, val := va, src := some 13, unit := homeSlice x.1 } s
    | (none, s) => f s

/-- AMO (R167, R168). -/
def execAmo (d a : BitVec 5) (p : BitVec 4) (f : BitVec 2) (o : BitVec 2) (z : BitVec 3) (s : State) :
    Host.Outcome State Fault Refusal :=
  let sl := s.mySlot
  if sl.busyA a || sl.busyA d then ok s
  else if !atomOp p f then stop { code := 0x11, reason := 0x12 } s
  else if scopeBad o z then stop { code := 0x11, reason := 0x13 } s
  else
    let n := fmtBytes f
    let ea := (sl.ra a).toNat
    withGlobal ea n n .write s fun parts _ str s => checkedAtom parts n str ea s fun s => openFor parts 2 s fun s =>
      issueAtom { s.newAcc with kind := .amo, va := ea, len := n, parts := parts, data := sl.ra d, dst := d.toNat }
        o z true s

/-- CAS (R169). -/
def execCas (d a b : BitVec 5) (w : BitVec 1) (o : BitVec 2) (z : BitVec 3) (s : State) :
    Host.Outcome State Fault Refusal :=
  let sl := s.mySlot
  if sl.busyA a || sl.busyA d || sl.busyA b then ok s
  else if scopeBad o z then stop { code := 0x11, reason := 0x13 } s
  else
    let n := if w = 1 then 8 else 4
    let ea := (sl.ra a).toNat
    withGlobal ea n n .write s fun parts _ str s => checkedAtom parts n str ea s fun s => openFor parts 2 s fun s =>
      issueAtom { s.newAcc with kind := .amo, va := ea, len := n, parts := parts, data := sl.ra d, data2 := sl.ra b,
                                dst := d.toNat } o z true s

/-- REDW (R167, R168): the ASQ goes on once the request has left the slot. -/
def execRedw (d a : BitVec 5) (p : BitVec 4) (f : BitVec 2) (o : BitVec 2) (z : BitVec 3) (s : State) :
    Host.Outcome State Fault Refusal :=
  let sl := s.mySlot
  if sl.busyA a || sl.busyA d then ok s
  else if !atomOp p f then stop { code := 0x11, reason := 0x12 } s
  else if scopeBad o z then stop { code := 0x11, reason := 0x13 } s
  else
    let n := fmtBytes f
    let ea := (sl.ra a).toNat
    match addrBad ea n with
    | some c => stop c s
    | none =>
      match s.xlPage s.sel.slot ea .write with
      | .miss => ok (addMiss s.sel.slot ea s)
      | .bad c => stop c s
      | .hit t =>
        let e := t.pte.toNat
        if s.soPending s.sel.slot then ok s
        else issueAtom { s.newAcc with kind := .amo, va := ea, len := n, data := sl.ra d, dst := 0, str := pteStr e,
                                       parts := [(t.pa ea, n, BitVec.ofNat 2 (pteKind e), pteGex e)] } o z false s

/-- FENCE (R113, R170): a storage mask of NONE orders nothing. -/
def execFence (k : BitVec 2) (z : BitVec 3) (m : BitVec 3) (s : State) : Host.Outcome State Fault Refusal :=
  if 6 ≤ z.toNat then stop { code := 0x11, reason := 0x13 } s
  else if m = 0 then done s
  else done (pushFence s.sel.slot k z m s)

/-! ### Streams and rings -/

/-- SRSET (R171, R172): held until the ESQ has passed its walk index. -/
def execSrset (n a : BitVec 5) (f : BitVec 6) (s : State) : Host.Outcome State Fault Refusal :=
  let sl := s.mySlot
  if sl.busyA a then ok s
  else if 22 ≤ f.toNat ∨ 16 ≤ n.toNat then stop { code := 0x11, reason := 0x14 } s
  else if !sl.esq.passed sl.asq.walk then ok s
  else done (s.modSlot s.sel.slot fun sl =>
    { sl with streams := mset 0 sl.streams (32 * n.toNat + f.toNat) (sl.ra a) })

/-- SRGET (R171). -/
def execSrget (d n : BitVec 5) (f : BitVec 6) (s : State) : Host.Outcome State Fault Refusal :=
  let sl := s.mySlot
  if sl.busyA d then ok s
  else if 22 ≤ f.toNat ∨ 16 ≤ n.toNat then stop { code := 0x11, reason := 0x14 } s
  else done (s.modSlot s.sel.slot fun sl => sl.wa d (mget 0 sl.streams (32 * n.toNat + f.toNat)))

/-- Fields of COCFG (R237, R249). -/
def Co.kind (c : Co) : Nat := bits c.cfg.toNat 63 61
def Co.ns (c : Co) : Nat := bits c.cfg.toNat 43 36 + 1
def Co.nw (c : Co) : Nat := bits c.cfg.toNat 51 44 + 1
def Co.ssize (c : Co) : Nat := (bits c.cfg.toNat 35 24 + 1) * 16
/-- SLOTADDR (R249, R252). -/
def Co.slotAddr (c : Co) (i : Nat) : Nat := bits c.cfg.toNat 23 4 * 16 + i * c.ssize
def Co.addr (c : Co) : Nat := bits c.cfg.toNat 56 3 * 8
def Co.ctr (c : Co) : Nat := bits c.cfg.toNat 15 0

/-- Frees n slots of a ring in ring order (R250); none if one of them is not filled, or has been freed by the same word (DEDUCED, log
entry 69). -/
def Co.freeSlots (c : Co) : Nat → Option Co
  | 0 => some c
  | n + 1 =>
    if c.filled.getLsbD c.oldest then
      Co.freeSlots { c with filled := c.filled &&& ~~~(BitVec.twoPow 256 c.oldest), oldest := (c.oldest + 1) % c.ns,
                            free := c.free + 1 } n
    else none

/-- The sources of the slot's HALOs of lower walk index, which the checker does not hold (R45), have been read (R173). -/
def State.halosRead (s : State) (k : Nat) (i : Int) : Bool :=
  let lower := fun (w : Option Int) => match w with
    | some w => decide (w < i)
    | none => false
  (s.core (coreOf k)).xops.all (fun x => x.kind != .halo || x.org.slot != k || !lower x.walk)
  && (mget [] (s.slot k).queues 2).all fun e => !lower e.walk || match decodeCore e.word with
    | .ok (.halo _ _ _ _ _) => false
    | _ => true

/-- Every scratchpad read by the slot's words of lower walk index has been performed (R173). -/
def Slot.readsDone (sl : Slot) (i : Int) : Bool :=
  sl.checker.all fun v => v.write || match v.walk with
    | some w => decide (i ≤ w)
    | none => true

/-- ABFREE (R173, R250, R425): the sequencer stays at the word until it takes effect (DEDUCED, log entry 68). -/
def execAbfree (a : BitVec 5) (c : BitVec 6) (s : State) : Host.Outcome State Fault Refusal :=
  let sl := s.mySlot
  let o := mget {} sl.cos c.toNat
  if sl.busyA a then ok s
  else if o.kind ≠ 3 then stop { code := 0x16, reason := 0x20 } s
  else if !sl.esq.passed sl.asq.walk || !sl.readsDone sl.asq.walk || !s.halosRead s.sel.slot sl.asq.walk then ok s
  else match o.freeSlots ((sl.ra a).toNat % 65536) with
    | none => stop { code := 0x16, reason := 0x21 } s
    | some o' => done (s.modSlot s.sel.slot fun sl => { sl with cos := mset {} sl.cos c.toNat o' })

end Sys2Proof.Machine
end

