-- ==== Sys2Proof/Machine/Fetch.lean ====
section
/-! DEFINITION. Fetching: how a turn becomes a word to execute, a word passed, or nothing (R33 to R37, R135, R417,
R440, R441).
Readings and choices of the model: DEDUCED log entry 18; DESIGN CHOICE log entry 64. -/

namespace Sys2Proof.Machine

/-- What a turn comes to: the step is whole, or instruction i is to be executed. -/
inductive Fetched where
  | whole (o : Host.Outcome State Fault Refusal)
  | run (s : State) (i : Instr)

/-- The agent cannot move: nothing happens. -/
def hold (s : State) : Fetched := .whole (.next s)

/-- The party takes words with this tag and owner (R33, R136, R175). -/
def takesWord (p : Party) (w : W32) : Bool :=
  match p with
  | .asq => wordTag w == 0 || wordTag w == 1 || wordTag w == 6 || (wordTag w == 5 && w.extractLsb' 27 2 != ownE)
  | .esq => wordTag w == 2 || wordTag w == 3 || wordTag w == 4 || wordTag w == 6
      || (wordTag w == 5 && w.extractLsb' 27 2 != ownA)
  | .helper => wordTag w != 7

/-- The party follows the other sequencer at a shared C word (R39, R141). -/
def followsWord (p : Party) (w : W32) : Bool :=
  wordTag w == 5 && ((p == .asq && w.extractLsb' 27 2 == ownEA) || (p == .esq && w.extractLsb' 27 2 == ownAE))

/-- The helper's subset (R47). -/
def helperWord (w : W32) : Bool :=
  match wordTag w with
  | 0 => (w.extractLsb' 23 6).toNat ≤ 0x0A
  | 1 => (w.extractLsb' 20 5).toNat ≠ 0x0C
  | 5 => [0, 1, 4, 0x0D, 0x0E].contains (w.extractLsb' 22 5).toNat
  | _ => false

/-- SRET, HALT and TINV (R353, R430). -/
def privWord (w : W32) : Bool := wordTag w == 6 && [6, 0x10, 0x0F].contains (w.extractLsb' 23 6).toNat

/-- The party is able to take its next word at all (R31, R54, R181, R407). -/
def Slot.canFetch (sl : Slot) (p : Party) : Bool :=
  sl.task.isSome && (sl.st == 1 || sl.st == 3 || sl.st == 4) && sl.csrWait.isNone && sl.issuing.isNone &&
  match p with
  | .asq => !sl.asq.ended && sl.hold.isNone && sl.waitA == .none
  | .esq => !sl.esq.ended && sl.waitE == .none
  | .helper => sl.helper.run && !sl.helper.ending

/-- The walk position of the ASQ once it has executed or passed word w at its pc (R36): that of the next word in text
order, with loop ends, or of the target of a private C word that transfers. -/
def Slot.asqNext (sl : Slot) (w : W32) : Int :=
  let q := sl.asq
  let inText := (loopEnd q.pc q.walk q.loops).2.1
  let own := fun (o : BitVec 2) (d : Int) => q.walk + if o = ownA then d else 1
  if takesWord .asq w then
    match decodeCore w with
    | .ok (.br o c g f) => if o = ownA ∧ brCond c (sl.ra g) then q.walk + f.toInt else inText
    | .ok (.jmp o f) | .ok (.call o f) => own o f.toInt
    | .ok (.ret o) => own o ((q.ret.headD q.pc - q.pc).toInt / 4)
    | .ok (.loop o g l) =>
      if l = 0 then inText else if (sl.ra g).toNat % 2 ^ 32 = 0 then own o (l.toNat + 1) else q.walk + 1
    | _ => inText
  else inText

/-- The ASQ does not pass the word: the slip would then exceed SLIPW.WINDOW (R37). -/
def Slot.slipHeld (sl : Slot) (w : W32) : Bool :=
  !sl.esq.ended && decide ((sl.slipw.toNat : Int) < sl.asqNext w - sl.esq.walk)

/-- The cause of a slot's word whose data lie in a poisoned column word (R459). -/
def poisonCause (s : State) (col : Nat) : Cause :=
  { code := 0x38, val := pmdBase + 32 * col, info := some (uncInfo s col 3) }

/-- The word at a party's pc (R135, R441): the word, or the step that its absence comes to. A line that the host may hold
modified is snooped first (R358). The pc need not be a multiple of 4: the four bytes from there on are the word (log entry 64). -/
def fetchWord (k : Nat) (p : Party) (s : State) : Sum (Host.Outcome State Fault Refusal) (W32 × State) :=
  let pc := ((s.slot k).pcOf p)
  let fail := fun (c : Cause) (s : State) => faultStop k (srcOf p) 0 pc c (dropFailed k s)
  match s.xlSlot k pc.toNat 4 .fetch with
  | .miss => .inl (.next (addMiss k pc.toNat s))
  | .bad c => .inl (.next (fail c s))
  | .hit t =>
    let pa := t.pa pc.toNat
    let ls := linesOf pa 4
    if ls.any (fun l => (s.lineCo l).hostMod) || s.linkWaits ls then .inl (.next (sendData ls s))
    else match touchRead pa 4 s with
    | (some col, s) => .inl (.next (fail (poisonCause s col) s))
    | (none, s) => .inr (BitVec.ofNat 32 (s.physLe pa 4), s)

/-- A word passed without effect (R33): a private C word leaves its span to be checked, and in exposed mode a clk that
passes the rest of its group of eight words without issuing is a tick (R34, R58). -/
def passWord (k : Nat) (p : Party) (w : W32) (s : State) : State :=
  let span := fun (q : Seq) => match decodeCore w with
    | .ok i => q.record (spanOf q.pc q.walk i)
    | .bad _ => q.record none
  match p with
  | .asq => s.modSlot k fun sl => { sl with asq := (span sl.asq).step }
  | .esq =>
    let s := if (s.slot k).esq.pc.toNat % 32 = 28 then esqTicks k 1 s else s
    s.modSlot k fun sl => { sl with esq := (span sl.esq).step }
  | .helper => s.modSlot k fun sl => { sl with helper := sl.helper.step }

/-- Both sequencers stand at one dynamic word (R35). -/
def Slot.rendezvous (sl : Slot) : Bool :=
  sl.asq.pc == sl.esq.pc && sl.asq.walk == sl.esq.walk && !sl.asq.ended && !sl.esq.ended

/-- A wait or barrier word with a shared owner, which is one of the points at which a pending cause is delivered (R404). -/
def sharedWait (w : W32) : Bool :=
  wordTag w == 5 && !ownPriv (w.extractLsb' 27 2)
    && [0x07, 0x08, 0x09, 0x0A, 0x0B, 0x0C, 0x0E].contains (w.extractLsb' 22 5).toNat

/-- The word at a party's pc where its translation is at hand; nothing changes. -/
def State.wordAt (s : State) (k : Nat) (p : Party) : Option W32 :=
  let pc := ((s.slot k).pcOf p).toNat
  match s.xlSlot k pc 4 .fetch with
  | .hit t => some (BitVec.ofNat 32 (s.physLe (t.pa pc) 4))
  | _ => none

/-- A pending cause is to be delivered at the word at which both sequencers stand, a Y word or a shared wait word,
before the word has its effect or its wait ends (R404). -/
def State.trapDue (s : State) (k : Nat) : Bool :=
  let sl := s.slot k
  sl.upend != [] && !sl.handler && sl.rendezvous
    && ((sl.asq.waiting && sl.esq.waiting) || match s.wordAt k .esq with
      | some w => wordTag w == 6 || sharedWait w
      | none => false)

/-- The party does not act at the word of its pc and waits for the other sequencer: the ASQ at a Y word and the ESQ
before the rendezvous (R35), the follower at a shared C word (R39). -/
def Slot.attends (sl : Slot) (p : Party) (w : W32) : Bool :=
  (wordTag w == 6 && (p == .asq || !sl.rendezvous)) || followsWord p w

/-- A sequencer meets word w at its pc. -/
def meetWord (k : Nat) (p : Party) (w : W32) (s : State) : Fetched :=
  let sl := s.slot k
  let s := { s with sel := { slot := k, party := p, word := w } }
  let (q, o) := match p with
    | .asq => (sl.asq, sl.esq)
    | _ => (sl.esq, sl.asq)
  let takes := takesWord p w
  -- the party reports a cause that ranks before a broken span (R421)
  let ranked := takes && !sl.attends p w && (privWord w || match decodeCore w with
    | .bad _ => true
    | .ok _ => false)
  match if ranked then none else spanBroken q o w takes with
  | some c =>
    .whole (stop { code := 0x13, reason := 6, extra := (c.extractLsb' 2 24).toNat } s)
  | none =>
    if p = .asq ∧ sl.slipHeld w then hold s
    else if wordTag w = 7 then .run s (.hint (w.extractLsb' 0 29))
    else if !takes then .whole (.next (passWord k p w s))
    else if sl.upend ≠ [] ∧ !sl.handler ∧ sl.rendezvous ∧ (wordTag w = 6 ∨ sharedWait w) then .run s (.userTrapDeliver k)
    else if wordTag w = 6 ∧ (p = .asq ∨ ¬ sl.rendezvous) then hold s
    else match decodeCore w with
      | .bad r => if followsWord p w then hold s else .run s (.notAnInstruction r)
      | .ok i => .run s i

/-- The helper meets word w (R47, R423). -/
def meetHelper (k : Nat) (w : W32) (s : State) : Fetched :=
  let s := { s with sel := { slot := k, party := .helper, word := w } }
  if wordTag w = 7 then .run s (.hint (w.extractLsb' 0 29))
  else match decodeCore w with
    | .bad r => if r = 4 then .whole (stop { code := 0x15, reason := 5 } s) else .run s (.notAnInstruction r)
    | .ok i => if helperWord w then .run s i else .whole (stop { code := 0x15, reason := 5 } s)

/-- A turn of a party of a slot. -/
def fetchSeq (k : Nat) (p : Party) (s : State) : Fetched :=
  if 64 ≤ k then .whole (.fault .noSuchUnit)
  else if !(s.slot k).canFetch p || s.pkg.stopped || s.pkg.gated.getLsbD (coreOf k) || (s.core (coreOf k)).waking
    || s.pkg.deadCores.getLsbD (coreOf k) then hold s
  else match fetchWord k p s with
    | .inl o => .whole o
    | .inr (w, s) =>
      match p with
      | .helper => meetHelper k w s
      | p => meetWord k p w s

/-- The turn in which a word that has left its queue takes effect (R42). -/
def fetchIssue (k : Nat) (s : State) : Fetched :=
  match (s.slot k).issuing with
  | none => hold s
  | some (e, q) =>
    let p := queueParty q
    if s.pkg.stopped then hold s
    else match decodeCore e.word with
    | .bad _ => hold s
    | .ok i => .run { s with sel := { slot := k, party := p, issue := true, word := e.word } } i

end Sys2Proof.Machine
end

