-- ==== Sys2Proof/Machine/Perform.lean ====
section
/-! DEFINITION. The performing of pending memory events: accesses and fences (R114 to R122), atomics at their home
slice (R127, R168, R169, R183), delivered copies (R164, R364), and results that are written back (R57, R58).
Readings and choices of the model: DEDUCED log entries 13, 15, 21, 34, 47, 62, 72; DESIGN CHOICE log entry 14. -/

namespace Sys2Proof.Machine

/-- Key of a native barrier: scope, unit and id (R50). -/
def barKey (scope unit id : Nat) : Nat := 1024 * scope + 32 * unit + id
/-- Unit of a barrier of the scope for a slot: its core, its cluster, or the device. -/
def barUnit (scope k : Nat) : Nat := if scope = 0 then coreOf k else if scope = 1 then clusterOf k else 0
/-- Slots that take part in a barrier of the scope with slot k (R50). -/
def State.barMembers (s : State) (scope k : Nat) : List Nat :=
  ((s.inst ((s.slot k).task.getD 0)).slots).filter fun j => barUnit scope j == barUnit scope k
/-- The slot's arrival is sent (R51). -/
def arriveBar (k key : Nat) (s : State) : State :=
  let b := mget {} s.tgu.bars key
  { s with tgu := { s.tgu with bars := mset {} s.tgu.bars key { b with arrived := k :: b.arrived } } }

/-- Removes a pending event. -/
def dropAcc (k id : Nat) (s : State) : State :=
  s.modSlot k fun sl => { sl with pend := sl.pend.filter (·.id ≠ id) }

/-- Writes bytes into the slot's scratchpad window and marks the 4 KiB blocks written (R485). -/
def slotSpWrite (k a : Nat) (data : List Byte) (s : State) : State :=
  let s := spWrite (coreOf k) ((s.slot k).spBase + a) data s
  if data = [] then s
  else
    let blocks := (List.range ((a + data.length - 1) / 4096 - a / 4096 + 1)).map (a / 4096 + ·)
    s.modSlot k fun sl => { sl with dirtySp := blocks.foldl (fun m b => mset false m b true) sl.dirtySp }
/-- Reads bytes of the slot's window. -/
def State.slotSpRead (s : State) (k a n : Nat) : List Byte := s.spRead (coreOf k) ((s.slot k).spBase + a) n

/-- Bytes of parts in order, as physical address and byte. -/
def partBytes (parts : List (Nat × Nat × BitVec 2 × Bool)) (data : List Byte) : List (Nat × Byte) :=
  ((parts.flatMap fun p => (List.range p.2.1).map (p.1 + ·)).zip data)

/-- Bytes of a store that its core's slots may already read. -/
def L1Store.bytes (x : L1Store) : List (Nat × Byte) :=
  partBytes x.parts (leBytes x.data.toNat ((x.parts.map (·.2.1)).sum))

/-- A byte as a core reads it: memory, then the core's stores in order (R122). A byte of a register is its current value (R6). -/
def State.coreByte (s : State) (core pa : Nat) : Byte :=
  if s.inView pa then s.physByte pa
  else (s.core core).l1.foldl (fun b x => (x.bytes.find? (·.1 == pa)).elim b (·.2)) (s.physByte pa)
/-- A byte as a slot of the core reads it: the held writes of its own task come last (R129). -/
def State.slotByte (s : State) (k pa : Nat) : Byte :=
  let b := s.coreByte (coreOf k) pa
  match (s.slot k).task with
  | some t => if s.inView pa then b else heldByte (s.inst t).held pa b
  | none => b
def State.slotBytes (s : State) (k : Nat) (parts : List (Nat × Nat × BitVec 2 × Bool)) : List Byte :=
  parts.flatMap fun p => (List.range p.2.1).map fun i => s.slotByte k (p.1 + i)

/-- The bytes that parts of a read of n bytes at va bring: of registers, zero unless the read lies within one (R502). -/
def State.accBytes (s : State) (k va n : Nat) (parts : List (Nat × Nat × BitVec 2 × Bool)) : List Byte :=
  parts.flatMap fun p => (List.range p.2.1).map fun i =>
    if s.inView (p.1 + i) && !oneRegister va n then 0 else s.slotByte k (p.1 + i)
/-- A read of the parts waits for stores that are not visible yet: those of its core to the same bytes, where an SO read takes its
place in the one order of SO accesses (R115) or a register's value would be read ahead of its write (R6); those that an SO read, an
acquire at SYSTEM scope, may have released to it (R118); and those owed to the slot (R121). -/
def State.readWaits (s : State) (k : Nat) (parts : List (Nat × Nat × BitVec 2 × Bool)) : Bool :=
  (parts.any (fun p => p.2.2.1 == 0 || s.inView p.1)
    && (s.core (coreOf k)).l1.any fun x => x.parts.any fun a => parts.any fun b => overlap a.1 a.2.1 b.1 b.2.1)
  || (parts.any (fun p => p.2.2.1 == 0) && s.owes (coreOf k))
  || s.accOwed k parts

/-- The fence waits until the slot's stores, and those owed to it, are visible (R113, R123, R126, R134): the release of an arrival,
an XP fence, and a fence of SYSTEM scope, as far as they pass the core; a FULL fence for those owed, which it may carry to
operations. A REL or FULL fence of another scope passes them on (R118). -/
def Acc.settles (f : Acc) : Bool := f.data != 0 || f.fk == 3 || f.scope == 5
def State.fenceOwes (s : State) (k : Nat) (f : Acc) : Bool :=
  f.fk != 0 && f.stor.getLsbD 2 && f.scope != 0 &&
    (((f.settles || f.fk == 2) && s.dueTo k)
      || (f.settles && decide (2 ≤ f.scope.toNat) && (s.core (coreOf k)).l1.any fun x => x.slot == k && !x.isUO))
/-- A fence may retire besides its order against pending events (R113, R122, R128, R170): the ESQ has passed it where
its kind or storage says so, the stores it waits for are visible, and delivered copies are decided. -/
def State.fenceDone (s : State) (k : Nat) (f : Acc) : Bool :=
  let sl := s.slot k
  let c := s.core (coreOf k)
  (if f.data = 1 then (if f.dst = 0 then sl.asq else sl.esq).reached f.walk
   else if f.data = 2 then (if f.dst = 0 then sl.asq else sl.esq).passed f.walk
   else !(f.stor.getLsbD 0 || f.stor.getLsbD 1 || 2 ≤ f.fk.toNat) || sl.esq.passed f.walk)
  && (!f.stor.getLsbD 1 || ((mget [] sl.queues 0).all (fun e => match e.walk with
        | some w => decide (f.walk ≤ w)
        | none => true) && sl.results.all (fun r => r.acc.isNone)))
  && !s.fenceOwes k f
  && (f.fk == 0 || f.fk == 3 || (s.offers.all (·.slot != k) && c.l1.all fun x => x.slot != k || x.dset == 0))

/-- What the retirement of a fence passes on and takes over (R118, R120, R123). -/
def retireFence (k : Nat) (f : Acc) (s : State) : State :=
  if !f.stor.getLsbD 2 then s
  else
    let s := if f.fk == 0 || f.fk == 2 then acquireMarks k f.scope.toNat s else s
    let s := if f.fk == 1 || f.fk == 2 then releaseMarks k f.scope.toNat s else s
    if 2 ≤ f.fk.toNat then carryStores ((s.slot k).task.getD 0) f.scope.toNat s else s

/-- Nothing earlier in program order must be performed first (R114). -/
def Slot.accOrdered (sl : Slot) (p : Acc) : Bool :=
  (sl.pend.takeWhile (·.id ≠ p.id)).all fun q => !q.before p

/-- Every accumulator access of lower walk index has been performed (R114): the ESQ has passed the index, and none is queued
or in flight. -/
def Slot.accsDone (sl : Slot) (walk : Int) : Bool :=
  sl.esq.passed walk
  && (mget [] sl.queues 0).all (fun e => (match decodeCore e.word with
      | .ok (.vaccr _ _ _) | .ok (.vaccw _ _ _) => false
      | _ => true) || (match e.walk with
      | some w => decide (walk ≤ w)
      | none => true))
  && sl.results.all (fun r => r.acc.isNone)

/-- The event can be performed now. -/
def State.accReady (s : State) (k : Nat) (p : Acc) : Bool :=
  let sl := s.slot k
  sl.accOrdered p &&
  (if p.kind = .fence then s.fenceDone k p
   else if p.isSP then sl.bothPassed .asq p.walk && sl.checked p.id
   else !(p.isSO && p.isWrite) || sl.accsDone p.walk)

/-! ### The single-copy atomic units of an access (R92, R103, R110) -/

/-- Units of at most m bytes into which the n bytes from a on fall, as offset and length: they end at multiples of m. -/
def unitsOf (m a : Nat) : Nat → Nat → List (Nat × Nat)
  | 0, _ => []
  | fuel + 1, n => if n = 0 then [] else
    let l := min n (m - a % m)
    (0, l) :: (unitsOf m (a + l) fuel (n - l)).map fun u => (u.1 + l, u.2)

/-- The units of an access, each of which is performed whole: bank words in scratchpad; in global memory an aligned access,
the aligned dwords of a queue entry, and single bytes of an access that is not aligned. -/
def Acc.units (p : Acc) : List (Nat × Nat) :=
  if p.isSP then unitsOf 16 p.va p.len p.len
  else if p.len = 256 then unitsOf 8 p.va p.len p.len
  else if p.va % p.len = 0 then [(0, p.len)]
  else unitsOf 1 p.va p.len p.len

/-- The n bytes of the parts from offset o on. -/
def cutParts : List (Nat × Nat × BitVec 2 × Bool) → Nat → Nat → List (Nat × Nat × BitVec 2 × Bool)
  | [], _, _ => []
  | (pa, l, x) :: ps, o, n =>
    if n = 0 then []
    else if l ≤ o then cutParts ps (o - l) n
    else (pa + o, min n (l - o), x) :: cutParts ps 0 (n - min n (l - o))

/-- The unit that is performed next, its number, and whether it is the last: which of several comes first is free. -/
def nextUnit (p : Acc) (s : State) : (Nat × Nat) × Nat × Bool × State :=
  let us := p.units
  let l := (List.range us.length).filter fun i => !p.did.contains i
  if l.length ≤ 1 then (us.getD (l.headD 0) (0, p.len), l.headD 0, true, s)
  else
    let (w, s) := s.takeFree
    let i := l.getD (w.toNat % l.length) 0
    (us.getD i (0, p.len), i, false, s)

/-- A unit of the event that is not the last has been performed; bs are the bytes a read brought. -/
def markUnit (k : Nat) (p : Acc) (i o : Nat) (bs : List Byte) (s : State) : State :=
  s.modSlot k fun sl => { sl with pend := sl.pend.map fun q =>
    if q.id = p.id then { q with did := i :: q.did, qdata := if bs = [] then q.qdata else
      q.qdata ||| (BitVec.ofNat 2048 (leNat bs) <<< (8 * o)) } else q }

/-- The bytes of a read whose last unit, at offset o, has brought bs. -/
def Acc.gathered (p : Acc) (o : Nat) (bs : List Byte) : List Byte :=
  leBytes (p.qdata ||| (BitVec.ofNat 2048 (leNat bs) <<< (8 * o))).toNat p.len

/-- The n bytes of unit i of a read that has been performed early (R440). -/
def Slot.earlyRead (sl : Slot) (p : Acc) (i : Nat) : Option Early :=
  sl.early.find? fun e => e.unit == i && e.acc.walk == p.walk && e.acc.va == p.va && e.acc.len == p.len && e.acc.parts == p.parts

/-- A load's register, or a queue entry, receives the bytes read. -/
def landLoad (k : Nat) (p : Acc) (bs : List Byte) (s : State) : State :=
  let s := (dropAcc k p.id s).modSlot k fun sl => { sl with early := sl.early.filter (·.acc.walk ≠ p.walk) }
  if p.kind = .queueLoad then
    s.modSlot k fun sl => { sl with lq := mset [] sl.lq p.dst ((mget [] sl.lq p.dst).map fun e =>
      if e.1 = p.qid then (e.1, some (BitVec.ofNat 2048 (leNat bs))) else e) }
  else s.modSlot k fun sl => sl.wa (BitVec.ofNat 5 p.dst) (szExtend p.sz (leNat bs))

/-- A store of n bytes at offset o of event p, as its task's write set would hold it. -/
def Acc.held (p : Acc) (x : Nat × Nat × BitVec 2 × Bool) (o : Nat) : Held :=
  let d := leBytes (p.data.toNat / 2 ^ (8 * o)) x.2.1
  if p.dset = 0 then .bytes x.1 d else .deliver x.1 d p.dset
/-- The store would overflow the write set, and the set cannot commit yet (R329), or the task's tile window cannot be found yet. -/
def State.storeWaits (s : State) (k : Nat) (p : Acc) (o n : Nat) : Bool :=
  let t := (s.slot k).task.getD 0
  (s.inst t).holds && ((s.windowStop t).isSome
    || ((cutParts p.parts o n).any (fun x => s.holdsAt t x.1 x.2.2.2 && overflows (s.inst t).held (p.held x o)) && s.commitWaits t))
/-- n bytes at offset o of a store of the slot's task, which lie on one page, leave the slot: the task's write set takes them, or
they become readable by the core and keep their place before their visibility point (R102, R122, R129, R132). An SO store is
carried to later operations, with all before it (R114, R123). -/
def leaveStore (k : Nat) (p : Acc) (o n : Nat) (s : State) : State :=
  let t := (s.slot k).task.getD 0
  let ps := cutParts p.parts o n
  let leave := fun (s : State) => s.modCore (coreOf k) fun c =>
    { c with l1 := c.l1 ++ [{ slot := k, id := p.id, va := p.va + o, parts := ps, data := p.data >>> (8 * o), dset := p.dset, since := p.since,
                              pc := p.pc }] }
  let s := match ps.find? fun x => s.holdsAt t x.1 x.2.2.2 with
    | none => leave s
    | some x =>
      let h := p.held x o
      if overflows (s.inst t).held h then leave (becomeIrrevocable t 1 s)
      else s.setInst t ((s.inst t).hold none h)
  if p.isSO then carryStores t 5 s else s

/-- A store of the core reaches its visibility point (R122, R361, R358). -/
def seeStore (k id : Nat) (s : State) : State :=
  let core := coreOf k
  let l1 := (s.core core).l1
  match l1.find? fun x => x.slot == k && x.id == id with
  | none => s
  | some x =>
    let prior := l1.takeWhile fun y => !(y.slot == k && y.id == id)
    let clash := s.accOwed k x.parts || prior.any fun y => y.parts.any fun a => x.parts.any fun b => overlap a.1 a.2.1 b.1 b.2.1
    let so := x.parts.any (·.2.2.1 == 0)
    let waits := so && (s.dueTo k || prior.any (fun y => y.slot == k && (!y.isUO || y.dset != 0)) || s.offers.any (·.slot == k))
    let ls := partLines x.parts
    if clash || waits then s
    else if !s.canWrite core ls then sendBisnp ls s
    else
      let s := s.modCore core fun c => { c with l1 := prior ++ l1.drop (prior.length + 1) }
      let s := if x.dset = 0 then coWrites core ls s else coHomes ls s
      let i := s.inst ((s.slot k).task.getD 0)
      let s := (x.parts.foldl (fun (r : State × List Byte) y =>
          ((i.liveBytes y.1 (r.2.take y.2.1)).foldl (fun s z => physWrite z.1 z.2 s) r.1, r.2.drop y.2.1))
        (s, leBytes x.data.toNat ((x.parts.map (·.2.1)).sum))).1
      { s with offers := s.offers ++ (((List.range 16).filter fun c => x.dset.getLsbD c).map fun c =>
          { core := c, line := ls.headD 0, issuer := core, slot := k, id := id, clk := s.clk }) }

/-- Slot a precedes slot b in the choice of shared engine e of their core, 0 to 2 or 3 for the scratchpad port (R53): a higher
effective class, or sooner after the slot last taken at that class. -/
def State.chosenBefore (s : State) (e a b : Nat) : Bool :=
  let ca := (s.slot a).eclass
  let cb := (s.slot b).eclass
  let last := mget 3 (s.core (coreOf a)).last (4 * e + ca)
  let rr := fun k => (k % 4 + 7 - last) % 4
  decide (cb < ca) || (ca == cb && decide (rr a < rr b))
/-- Engine e has taken slot k (R53). -/
def tookSlot (k e : Nat) (s : State) : State :=
  s.modCore (coreOf k) fun c => { c with last := mset 3 c.last (4 * e + (s.slot k).eclass) (k % 4) }

/-- The slot has a scratchpad access that is ready for the port (R53). -/
def State.wantsPort (s : State) (k : Nat) : Bool := (s.slot k).pend.any fun p => p.isSP && s.accReady k p
/-- The scratchpad port may take an access of slot k (R53): no slot with a ready access comes first. -/
def State.portTakes (s : State) (k : Nat) : Bool :=
  ((List.range 4).map (4 * coreOf k + ·)).all fun j => j == k || !s.wantsPort j || s.chosenBefore 3 k j

/-- ACCESS_PERFORMED (R115, R122): a pending event of the slot is performed, one single-copy atomic unit of it (R110), or a store
of it becomes visible. A scratchpad access begins when the port has chosen its slot (R53). -/
def execAccessPerformed (k id : Nat) (s : State) : Host.Outcome State Fault Refusal :=
  let sl := s.slot k
  match sl.pend.find? (·.id == id) with
  | none => ok (seeStore k id s)
  | some p =>
    if !s.accReady k p || p.isAtom then ok s
    else if p.kind = .fence then ok (retireFence k p (dropAcc k id s))
    else if p.kind = .bar then ok (arriveBar k p.data.toNat (dropAcc k id s))
    else if p.isSP && p.did == [] && !s.portTakes k then ok s
    else
      let s := if p.isSP && p.did == [] then tookSlot k 3 s else s
      let ((o, n), i, last, s1) := nextUnit p s
      let gone := fun (s : State) => if last then dropAcc k id s else markUnit k p i o [] s
      let read := fun (bs : List Byte) (s : State) =>
        if last then landLoad k p (p.gathered o bs) s else markUnit k p i o bs s
      let free := fun (s : State) => if last then dropIvals k id s else s
      match p.kind with
      | .spStore => ok (free (slotSpWrite k (p.va + o) (leBytes (p.data.toNat / 2 ^ (8 * o)) n) (gone s1)))
      | .queueStore => ok (free (slotSpWrite k (p.va + o) (leBytes (p.qdata.toNat / 2 ^ (8 * o)) n) (gone s1)))
      | .store =>
        if s.storeWaits k p o n then ok (sendBisnp (s.taskLines (sl.task.getD 0) []) s)
        else ok (leaveStore k p o n (gone s1))
      | _ =>
        if p.isSP then ok (free (read (s1.slotSpRead k (p.va + o) n) s1))
        else if let some e := sl.earlyRead p i then ok (read (leBytes e.bits.toNat n) s1)
        else
          let ps := cutParts p.parts o n
          let ls := partLines ps
          if s.readWaits k ps then ok s
          else if !s.canAccess (coreOf k) ls then ok (sendData ls s)
          else ok (read (s1.accBytes k p.va p.len ps) (coReads (coreOf k) ls s1))

/-- HOME_SLICE_ATOMIC (R127): the atomic unit carries out a pending AMO, CAS, REDW or BARG arrival; one on an SO page after everything that
precedes it (R114, R115). The fields of the operation come from its word. A REDW of a guarded task is held (R129). -/
def execHomeSliceAtomic (k id : Nat) (s : State) : Host.Outcome State Fault Refusal :=
  let sl := s.slot k
  match sl.pend.find? (·.id == id) with
  | none => ok s
  | some p =>
    if !p.isAtom || !sl.accOrdered p then ok s
    else match p.parts with
      | [] => ok s
      | x :: _ =>
        let pa := x.1
        let ls := linesOf pa p.len
        if s.putWaits (sl.task.getD 0) ls || (p.isSO && (s.unreleased k false || s.offers.any (·.slot == k))) then ok (sendBisnp (s.taskLines (sl.task.getD 0) ls) s)
        else
          let s := dropAcc k id s
          let old := s.physLe pa p.len
          let t := sl.task.getD 0
          match decodeCore p.word with
          | .ok (.amo d _ op fmt _ _) =>
            let s := atomDo t pa p.len (fun old => atomApply op fmt old p.data.toNat) s
            ok (s.modSlot k fun sl => { sl.wa d (BitVec.ofNat 64 old) with hold := none })
          | .ok (.cas d _ _ _ _ _) =>
            let s := if old = p.data.toNat % 2 ^ (8 * p.len) then atomDo t pa p.len (fun _ => p.data2.toNat % 2 ^ (8 * p.len)) s
              else s
            ok (s.modSlot k fun sl => { sl.wa d (BitVec.ofNat 64 old) with hold := none })
          | .ok (.redw _ _ op fmt _ _) =>
            if s.holdsAt t pa x.2.2.2 then ok (hold1 t none (.redw pa op fmt p.data p.pc p.va) s)
            else match atomBad pa p.len p.str s with
              | (some r, s) => ok (redwRecord t p.pc pa p.va r s)
              | (none, s) => ok (atomDo t pa p.len (fun old => atomApply op fmt old p.data.toNat) s)
          | .ok (.barg _ _ _ _) =>
            -- R183: the arrival; data2 holds the count, dst says which sequencer waits
            let cnt := p.data2.toNat % 2 ^ 32
            let g := old / 2 ^ 32
            let s := atomDo t pa 8 (fun w => if cnt ≤ w % 2 ^ 32 + 1 then (w / 2 ^ 32 + 1) % 2 ^ 32 * 2 ^ 32
              else (w + 1) % 2 ^ 64) s
            let wf := WaitFor.barg p.va none (BitVec.ofNat 32 g) false
            ok (s.modSlot k fun sl =>
              if p.dst = 0 then { sl with waitA := wf } else { sl with waitE := wf })
          | _ => ok s

/-- DELIVERED_COPY_OFFER (R164, R364): an offer to a core is decided; of those sent to it in one clk the one of the lowest issuing
core comes first, then the one of the lowest line. -/
def execDeliveredCopyOffer (i : Nat) (s : State) : Host.Outcome State Fault Refusal :=
  match s.offers[i]? with
  | none => ok s
  | some o =>
    if s.offers.any fun p => p.core == o.core && p.clk == o.clk
        && (decide (p.issuer < o.issuer) || (p.issuer == o.issuer && decide (p.line < o.line))) then ok s
    else ok (decideOffer o { s with offers := s.offers.eraseIdx i })

/-- RESULT_WRITE_BACK (R57, R58): interlocked results land in text order; leftover results of the exposed pipe land
tick by tick while no word of the ESQ is due, which is so in interlocked mode and once the ESQ has passed END. -/
def execResultWriteBack (k : Nat) (s : State) : Host.Outcome State Fault Refusal :=
  let sl := s.slot k
  match sl.results with
  | [] => ok s
  | r :: rs =>
    if r.inter then ok (landRes k r (s.setSlot k { sl with results := rs }))
    else if !sl.exposed || sl.esq.ended then ok (tickOnce k s)
    else ok s

end Sys2Proof.Machine
end

