-- ==== Sys2Proof/Machine/Queue.lean ====
section
/-! DEFINITION. The ESQ's scalar words over the load and store queues, and its timing mode (R41, R56, R166, R174).
Readings and choices of the model: DEDUCED log entry 19. -/

namespace Sys2Proof.Machine

/-- A VQPOP of load queue q, or a VQPUSH of store queue q, waits in the V queue: it comes first in text order (R57). -/
def Slot.vPops (sl : Slot) (q : Nat) : Bool :=
  (mget [] sl.queues 0).any fun e => match decodeCore e.word with
    | .ok (.vqpop _ _ p) => p.toNat == q
    | _ => false
def Slot.vPushes (sl : Slot) (q : Nat) : Bool :=
  (mget [] sl.queues 0).any fun e => match decodeCore e.word with
    | .ok (.vqpush _ p _) => p.toNat == q
    | _ => false

/-- Head of a load queue, once its data have come (R165). -/
def Slot.lqHead (sl : Slot) (q : Nat) : Option Vec := (mget [] sl.lq q).head?.bind (·.2)
def Slot.lqPop (sl : Slot) (q : Nat) : Slot := { sl with lq := mset [] sl.lq q (mget [] sl.lq q).tail }
/-- Entries of a store queue, those on their way among them; it holds 8 (R28). -/
def Slot.sqFull (sl : Slot) (q : Nat) : Bool :=
  decide (8 ≤ (mget [] sl.sq q).length + (sl.results.filter fun r => r.sq.any (·.1 == q)).length)
/-- A push to the queue is in flight from an interlocked V word. -/
def Slot.sqBusy (sl : Slot) (q : Nat) : Bool := sl.results.any fun r => r.inter && r.sq.any (·.1 == q)

/-- QPOP (R166). -/
def execQpop (d q : BitVec 5) (s : State) : Host.Outcome State Fault Refusal :=
  let sl := s.mySlot
  let k := s.sel.slot
  if sl.busyP .esq d then ok s
  else if 4 ≤ q.toNat then stop { code := 0x11, reason := 0x11 } s
  else if sl.vPops q.toNat then ok s
  else match sl.lqHead q.toNat with
    | none => ok s
    | some v =>
      let x := v.extractLsb' 0 64
      if sl.exposed then
        done (s.modSlot k fun sl => { sl.lqPop q.toNat with
          results := sl.results ++ [{ due := sl.tick + 1, x := some (d.toNat, x) }] })
      else done (s.modSlot k fun sl => (sl.lqPop q.toNat).wx d x)

/-- QPUSH (R166). -/
def execQpush (q a : BitVec 5) (s : State) : Host.Outcome State Fault Refusal :=
  let sl := s.mySlot
  let k := s.sel.slot
  if sl.busyP .esq a then ok s
  else if 2 ≤ q.toNat then stop { code := 0x11, reason := 0x11 } s
  else if sl.vPushes q.toNat || sl.sqBusy q.toNat || sl.sqFull q.toNat then ok s
  else
    let v : Vec := (sl.rx a).setWidth 2048
    if sl.exposed then
      done (s.modSlot k fun sl => { sl with results := sl.results ++ [{ due := sl.tick + 1, sq := some (q.toNat, v) }] })
    else done (s.modSlot k fun sl => { sl with sq := mset [] sl.sq q.toNat (mget [] sl.sq q.toNat ++ [v]) })

/-- XMODE (R56, R174): a switch to exposed mode waits until every result in flight has been written. -/
def execXmode (m : BitVec 1) (s : State) : Host.Outcome State Fault Refusal :=
  let sl := s.mySlot
  let k := s.sel.slot
  if m = 1 ∧ sl.exposed = false ∧ (sl.results ≠ [] ∨ mget [] sl.queues 0 ≠ []) then ok s
  else ok ((adv k .esq s).modSlot k fun sl => { sl with exposed := m == 1 })

end Sys2Proof.Machine
end

