-- ==== Sys2Proof/Machine/Control.lean ====
section
/-! DEFINITION. The C words (R141, R142, R175 to R187), the hint words (R137), and the events that end a wait.
Readings and choices of the model: DEDUCED log entries 17, 18, 19, 21, 46; DESIGN CHOICE log entry 74. -/

namespace Sys2Proof.Machine

/-! ### Who evaluates a C word (R39, R47, R175) -/

/-- The part that the party of the present step has in a C word. -/
inductive Role where
  /-- The owner of a private word, or the helper. -/
  | alone
  /-- The evaluating sequencer of a shared word. -/
  | lead
  /-- The other sequencer of a shared word. -/
  | follow
deriving DecidableEq, Repr, Inhabited

def State.role (s : State) (o : BitVec 2) : Role :=
  match s.sel.party with
  | .helper => .alone
  | .asq => if ownPriv o then .alone else if o = ownAE then .lead else .follow
  | .esq => if ownPriv o then .alone else if o = ownEA then .lead else .follow

/-- The branch-outcome queue of a shared word (R39). -/
def Slot.outcomes (sl : Slot) (o : BitVec 2) : List Nat := if o = ownAE then sl.boAE else sl.boEA
def Slot.setOutcomes (sl : Slot) (o : BitVec 2) (l : List Nat) : Slot :=
  if o = ownAE then { sl with boAE := l } else { sl with boEA := l }
/-- The evaluator of a shared word pushes an outcome (R142). -/
def pushOutcome (o : BitVec 2) (r : Role) (v : Nat) (s : State) : State :=
  if r = .lead then s.modSlot s.sel.slot fun sl => sl.setOutcomes o (sl.outcomes o ++ [v]) else s
/-- The follower's queue has no room for an outcome (R39). -/
def State.outcomeFull (s : State) (o : BitVec 2) (r : Role) : Bool :=
  r == .lead && decide (32 ≤ (s.mySlot.outcomes o).length)

def Slot.seqOf (sl : Slot) (p : Party) : Seq := if p = .asq then sl.asq else sl.esq
def Slot.otherSeq (sl : Slot) (p : Party) : Seq := if p = .asq then sl.esq else sl.asq
def Slot.modSeq (sl : Slot) (p : Party) (f : Seq → Seq) : Slot :=
  if p = .asq then { sl with asq := f sl.asq } else { sl with esq := f sl.esq }

/-- Address of the C word plus four times an offset (R141). -/
def State.cTarget (s : State) (off : Int) : Word := s.mySlot.pcOf s.sel.party + BitVec.ofInt 64 (4 * off)

/-- The party goes to t (R176, R177): two ticks in exposed mode (R180). -/
def goTo (t : Word) (priv : Bool) (s : State) : State :=
  let k := s.sel.slot
  let s := progress k s
  match s.sel.party with
  | .helper => s.modSlot k fun sl => { sl with helper := sl.helper.goto t }
  | .asq => s.modSlot k fun sl => { sl with asq := sl.asq.goto t priv }
  | .esq => (esqTicks k 2 s).modSlot k fun sl => { sl with esq := sl.esq.goto t priv }

/-- A branch with its outcome known: a private one leaves it for R424. -/
def branch (o : BitVec 2) (r : Role) (taken : Bool) (t : Word) (s : State) : Host.Outcome State Fault Refusal :=
  let p := s.sel.party
  let s := if r = .alone ∧ p ≠ .helper then
      s.modSlot s.sel.slot fun sl => sl.modSeq p (·.noteTaken (if taken then some t else none))
    else s
  if taken then ok (goTo t (ownPriv o) s) else done s

/-- BR (R176). -/
def execBr (o : BitVec 2) (c : BitVec 3) (g : BitVec 5) (f : BitVec 14) (s : State) : Host.Outcome State Fault Refusal :=
  let sl := s.mySlot
  let p := s.sel.party
  let r := s.role o
  let t := s.cTarget f.toInt
  if s.isMgmt then ok (modMgmt (fun m => if brCond c (m.rx g) then m.goto (m.target f.toInt) else m.step) s)
  else if r = .follow then
    match sl.outcomes o with
    | [] => ok s
    | v :: vs => branch o r (v != 0) t (s.modSlot s.sel.slot fun sl => sl.setOutcomes o vs)
  else if sl.busyP p g || s.outcomeFull o r then ok s
  else
    let taken := brCond c (sl.rp p g)
    branch o r taken t (pushOutcome o r (if taken then 1 else 0) s)

/-- JMP (R177). -/
def execJmp (o : BitVec 2) (f : BitVec 22) (s : State) : Host.Outcome State Fault Refusal :=
  if s.isMgmt then ok (modMgmt (fun m => m.goto (m.target f.toInt)) s)
  else branch o (s.role o) true (s.cTarget f.toInt) s

/-- CALL (R177): each sequencer that acts on it pushes on its own stack of 16 entries (R425). -/
def execCall (o : BitVec 2) (f : BitVec 22) (s : State) : Host.Outcome State Fault Refusal :=
  let sl := s.mySlot
  let p := s.sel.party
  let q := sl.seqOf p
  if s.isMgmt then
    if 16 ≤ s.mgmt.ret.length then ok (mgmtTrap 0x14 s)
    else ok (modMgmt (fun m => { m.goto (m.target f.toInt) with ret := (m.pc + 4) :: m.ret }) s)
  else if 16 ≤ q.ret.length then stop { code := 0x14, reason := 0x30 } s
  else
    let t := s.cTarget f.toInt
    let s := s.modSlot s.sel.slot fun sl => sl.modSeq p fun q =>
      { q with ret := (q.pc + 4) :: q.ret,
               calls := if ownPriv o then (q.ret.length + 1, q.pc) :: q.calls else q.calls }
    ok (goTo t (ownPriv o) s)

/-- RET (R177). -/
def execRet (o : BitVec 2) (s : State) : Host.Outcome State Fault Refusal :=
  let p := s.sel.party
  if s.isMgmt then
    match s.mgmt.ret with
    | [] => ok (mgmtTrap 0x14 s)
    | t :: ts => ok (modMgmt (fun m => { m.goto t with ret := ts }) s)
  else
  match (s.mySlot.seqOf p).ret with
  | [] => stop { code := 0x14, reason := 0x31 } s
  | t :: ts =>
    let s := s.modSlot s.sel.slot fun sl => sl.modSeq p fun q =>
      { q with ret := ts, calls := q.calls.filter fun c => decide (c.1 ≤ ts.length) }
    ok (goTo t (ownPriv o) s)

/-- The loop stack of the party, and its depth limit (R178). -/
def Slot.loopsOf (sl : Slot) (p : Party) : List LoopLv := if p = .helper then sl.helper.loops else (sl.seqOf p).loops
def loopMax (p : Party) : Nat := if p = .helper then 4 else 8

/-- A LOOP with its trip count known (R178). -/
def enterLoop (o : BitVec 2) (n : Nat) (l : BitVec 17) (s : State) : Host.Outcome State Fault Refusal :=
  let p := s.sel.party
  let pc := s.mySlot.pcOf p
  if l = 0 then done s
  else if n = 0 then
    let t := pc + 4 + BitVec.ofNat 64 (4 * l.toNat)
    let s := progress s.sel.slot s
    match p with
    | .helper => ok (s.modSlot s.sel.slot fun sl => { sl with helper := sl.helper.goto t })
    | p => ok ((if p = .esq then esqTicks s.sel.slot 1 s else s).modSlot s.sel.slot fun sl =>
        sl.modSeq p (·.goto t (ownPriv o)))
  else
    let lv : LoopLv := { start := pc + 4, stop := pc + BitVec.ofNat 64 (4 * l.toNat), left := n,
                         priv := ownPriv o && p != .helper }
    let s := progress s.sel.slot s
    match p with
    | .helper => ok (s.modSlot s.sel.slot fun sl =>
        { sl with helper := { sl.helper with pc := pc + 4, loops := lv :: sl.helper.loops } })
    | p => ok ((if p = .esq then esqTicks s.sel.slot 1 s else s).modSlot s.sel.slot fun sl =>
        sl.modSeq p fun q => { q with pc := pc + 4, walk := q.walk + 1, loops := lv :: q.loops })

/-- A LOOP of the management core. -/
def mgmtLoop (n : Nat) (l : Nat) (s : State) : Host.Outcome State Fault Refusal :=
  if l = 0 then ok (modMgmt Mgmt.step s)
  else if n = 0 then ok (modMgmt (fun m => m.goto (m.target (l + 1))) s)
  else if 8 ≤ s.mgmt.loops.length then ok (mgmtTrap 0x14 s)
  else ok (modMgmt (fun m =>
    let lv : LoopLv := { start := m.pc + 4, stop := m.target l, left := n }
    { m with pc := m.pc + 4, loops := lv :: m.loops }) s)

/-- LOOP (R178, R425). -/
def execLoop (o : BitVec 2) (g : BitVec 5) (l : BitVec 17) (s : State) : Host.Outcome State Fault Refusal :=
  let sl := s.mySlot
  let p := s.sel.party
  let r := s.role o
  let full := fun (n : Nat) => n != 0 && l != 0 && decide (loopMax p ≤ (sl.loopsOf p).length)
  if s.isMgmt then mgmtLoop ((s.mgmt.rx g).toNat % 2 ^ 32) l.toNat s
  else if r = .follow then
    match sl.outcomes o with
    | [] => ok s
    | n :: ns =>
      if full n then stop { code := 0x14, reason := 0x32 } s
      else enterLoop o n l (s.modSlot s.sel.slot fun sl => sl.setOutcomes o ns)
  else if sl.busyP p g || s.outcomeFull o r then ok s
  else
    let n := (sl.rp p g).toNat % 2 ^ 32
    if full n then stop { code := 0x14, reason := 0x32 } s
    else enterLoop o n l (pushOutcome o r n s)

/-- A V word of the slot that changes the mask stack is queued or in flight (R179). -/
def Slot.maskPending (sl : Slot) : Bool :=
  sl.results.any (fun r => r.masks.isSome) || (mget [] sl.queues 0).any fun e => match decodeCore e.word with
    | .ok (.vcmp _ _ _ _ _) | .ok (.minv _) | .ok (.mpop _) | .ok (.mset _ _) => true
    | _ => false

/-- The top mask has no bit set among the lanes of its recorded width (R179). -/
def Slot.maskNone (sl : Slot) : Bool :=
  let t := sl.masks.headD (BitVec.allOnes 256, 8)
  t.1.toNat % 2 ^ (2048 / t.2) == 0

/-- BRNONE (R179): in exposed mode the pipe advances while the word waits for the mask. -/
def execBrnone (o : BitVec 2) (f : BitVec 22) (s : State) : Host.Outcome State Fault Refusal :=
  let sl := s.mySlot
  let r := s.role o
  let t := s.cTarget f.toInt
  if r = .follow then
    match sl.outcomes o with
    | [] => ok s
    | v :: vs => branch o r (v != 0) t (s.modSlot s.sel.slot fun sl => sl.setOutcomes o vs)
  else if s.outcomeFull o r then ok s
  else if sl.maskPending then ok (esqTicks s.sel.slot 1 s)
  else branch o r sl.maskNone t (pushOutcome o r (if sl.maskNone then 1 else 0) s)

/-- The state of a slot with a task that is not stopped (R31, R181): Ending, Waiting, Handler or Running. -/
def Slot.settle (sl : Slot) : Slot :=
  if sl.asq.ended && sl.esq.ended then { sl with st := 4 }
  else if (sl.asq.ended || sl.asq.waiting) && (sl.esq.ended || sl.esq.waiting) then { sl with st := 2 }
  else { sl with st := if sl.handler then 3 else 1 }

/-- END (R187): the sequencer stops at its END, which it has passed (R409); the helper's END takes effect by R48. -/
def execEndW (_ : BitVec 2) (s : State) : Host.Outcome State Fault Refusal :=
  let k := s.sel.slot
  match s.sel.party with
  | .helper => ok ((progress k s).modSlot k fun sl => { sl with helper := { sl.helper with ending := true } })
  | p =>
    let s := progress k s
    let s := if p = .esq then esqTicks k 1 s else s
    ok (s.modSlot k fun sl => { (sl.modSeq p fun q => { q with ended := true }).settle with endAt := s.clk })

/-- A hint word is passed by whoever meets it (R137). -/
def execHint (_ : BitVec 29) (s : State) : Host.Outcome State Fault Refusal :=
  ok (passWord s.sel.slot s.sel.party s.sel.word s)

/-! ### Waiting (R54, R181) -/

def Slot.waitOf (sl : Slot) (p : Party) : WaitFor := if p = .asq then sl.waitA else sl.waitE
def Slot.setWait (sl : Slot) (p : Party) (w : WaitFor) : Slot :=
  if p = .asq then { sl with waitA := w } else { sl with waitE := w }

/-- The sequencer is held at its wait word. -/
def holdAt (p : Party) (w : WaitFor) (s : State) : State :=
  s.modSlot s.sel.slot fun sl => ((sl.modSeq p fun q => { q with waiting := true }).setWait p w).settle

/-- The condition of a wait, and the state in which it has been taken (R182 to R186): what the operations signalled is observed
(R124). -/
def waitTaken (k : Nat) (w : WaitFor) (s : State) : Option State :=
  let sl := s.slot k
  match w with
  | .none | .arrive => none
  | .bar key phase => if phase < (mget {} s.tgu.bars key).phase then some s else none
  | .barg _ _ _ ready => if ready then some s else none
  | .wordv _ _ _ ready => if ready then some s else none
  | .count c target =>
    let o := mget {} sl.cos c
    if target ≤ o.count.toNat then
      some (carryOps k (fun o => o.sbit && o.co == c)
        (s.setSlot k { sl with cos := mset {} sl.cos c { o with count := o.count - BitVec.ofNat 32 target } }))
    else none
  | .ring c i => if (mget {} sl.cos c).filled.getLsbD i then some (carryOps k (fun o => o.sbit && o.co == c) s) else none

/-- The wait of a sequencer is over: it passes the word, and a follower held there goes on too (R175). -/
def endWait (k : Nat) (p : Party) (s : State) : State :=
  (adv k p s).modSlot k fun sl =>
    let other := fun (q : Seq) (w : WaitFor) => if w = .none then { q with waiting := false } else q
    let sl := (sl.modSeq p fun q => { q with waiting := false }).setWait p .none
    { sl with asq := other sl.asq sl.waitA, esq := other sl.esq sl.waitE }.settle

/-- A wait word is taken: it is passed at once where its condition holds, else its sequencer is held (R181); the
helper takes it again. -/
def startWait (w : WaitFor) (s : State) : Host.Outcome State Fault Refusal :=
  let k := s.sel.slot
  match waitTaken k w s, s.sel.party with
  | some s, .helper => done s
  | none, .helper => ok s
  | some s, p => ok (endWait k p s)
  | none, p => ok (holdAt p w s)

/-- The follower at a shared wait word holds until the evaluator has passed it (R175). -/
def followWait (s : State) : Host.Outcome State Fault Refusal :=
  let k := s.sel.slot
  let sl := s.mySlot
  let p := s.sel.party
  if (sl.otherSeq p).passed (sl.seqOf p).walk then ok (endWait k p s) else ok (holdAt p .none s)

/-- WAITC (R185, R425). -/
def execWaitc (o : BitVec 2) (c : BitVec 6) (i : BitVec 16) (s : State) : Host.Outcome State Fault Refusal :=
  if s.role o = .follow then followWait s
  else if (mget {} s.mySlot.cos c.toNat).kind ≠ 1 then stop { code := 0x16, reason := 0x20 } s
  else startWait (.count c.toNat i.toNat) s

/-- ABWAIT (R186, R425). -/
def execAbwait (o : BitVec 2) (c : BitVec 6) (i : BitVec 16) (s : State) : Host.Outcome State Fault Refusal :=
  let co := mget {} s.mySlot.cos c.toNat
  if s.role o = .follow then followWait s
  else if co.kind ≠ 3 then stop { code := 0x16, reason := 0x20 } s
  else if co.ns ≤ i.toNat then stop { code := 0x11, reason := 0x15 } s
  else startWait (.ring c.toNat i.toNat) s

/-- An 8-byte read at a physical address as the slot performs it (R184): none while an earlier store of the slot to it
is on its way, while a store that was released to the slot is not visible yet (the read that satisfies is an acquire at SYSTEM
scope), or while the line cannot be read, as the host may have changed it and is then snooped (R358). -/
def waitRead (k : Nat) (walk : Int) (pa : Nat) (s : State) : Option Word × State :=
  let ls := linesOf pa 8
  let p : Acc := { kind := .load, va := pa, len := 8, parts := [(pa, 8, 1, false)] }
  if (s.slot k).pend.any fun q => decide (q.walk < walk) && q.before p then (none, s)
  else if s.owes (coreOf k) then (none, s)
  else if !s.canAccess 16 ls then (none, sendData ls s)
  else (some (BitVec.ofNat 64 (leNat (s.slotBytes k [(pa, 8, 1, false)]))), s)

/-- WAITV (R184). -/
def execWaitv (o : BitVec 2) (a v : BitVec 5) (m : BitVec 3) (s : State) : Host.Outcome State Fault Refusal :=
  let sl := s.mySlot
  let k := s.sel.slot
  let p := s.sel.party
  if s.role o = .follow then followWait s
  else if sl.busyP p a || sl.busyP p v then ok s
  else withGlobal (sl.rp p a).toNat 8 8 .read s fun parts _ _ s => checkedRead parts s fun s =>
    match parts with
    | [] => ok s
    | x :: _ =>
      let (w, s) := waitRead k (sl.seqOf p).walk x.1 s
      startWait (.wordv x.1 m (sl.rp p v) ((w.map fun w => waitCmp m w (sl.rp p v)).getD false)) s

/-- The sequencer goes back to its WAITV or BARG, to take the word again. -/
def Slot.backToWait (sl : Slot) (p : Party) : Slot :=
  ((sl.modSeq p fun q => { q with waiting := false }).setWait p .none).settle
/-- The translation behind a wait is not used further: a WAITV is taken again, a BARG that has arrived finds its word anew (R352). -/
def Slot.rewait (sl : Slot) (p : Party) : Slot :=
  match sl.waitOf p with
  | .wordv _ _ _ _ => sl.backToWait p
  | .barg va _ g false => sl.setWait p (.barg va none g false)
  | _ => sl

/-- WAITV_REREAD (R183, R184): the home slice re-reads the words that the slot's sequencers wait on. A word found
poisoned, or whose page has gone, sends its sequencer back to take the wait word again, which meets the cause (R459). -/
def rereadOne (k : Nat) (p : Party) (s : State) : State :=
  let sl := s.slot k
  let walk := (sl.seqOf p).walk
  let again := fun (pa : Nat) (f : Word → WaitFor) =>
    match touchRead pa 8 s with
    | (some _, s) => s.modSlot k fun sl => sl.backToWait p
    | (none, s) =>
      match waitRead k walk pa s with
      | (some w, s) => s.modSlot k fun sl => sl.setWait p (f w)
      | (none, s) => s
  match sl.waitOf p with
  | .wordv pa m v false => again pa fun w => .wordv pa m v (waitCmp m w v)
  | .barg va (some pa) g false => again pa fun w => .barg va (some pa) g (w.extractLsb' 32 32 != g)
  | .barg va none g false =>
    match s.xlSlot k va 8 .write with
    | .hit t => s.modSlot k fun sl => sl.setWait p (.barg va (some (t.pa va)) g false)
    | .miss => addMiss k va s
    | .bad _ => s.modSlot k fun sl => sl.backToWait p
  | _ => s
def execWaitvReread (k : Nat) (s : State) : Host.Outcome State Fault Refusal :=
  if (s.slot k).st = 5 then ok s else ok (rereadOne k .esq (rereadOne k .asq s))

/-- WAIT_CONDITION_MET (R54): each wait of the slot whose condition holds is over, unless a pending cause is to be delivered
there first (R404); the accesses of what it observed have been performed before (R124). -/
def endIfMet (k : Nat) (p : Party) (s : State) : State :=
  if s.trapDue k then s
  else match waitTaken k ((s.slot k).waitOf p) s with
  | some s => endWait k p s
  | none => s
def execWaitConditionMet (k : Nat) (s : State) : Host.Outcome State Fault Refusal :=
  let st := (s.slot k).st
  if st = 1 ∨ st = 2 ∨ st = 3 then ok (endIfMet k .esq (endIfMet k .asq s)) else ok s

/-! ### Barriers -/

/-- The release of an arrival, by the sequencer of the present step (R126): a fence over the events of lower walk
index. It also waits for the other sequencer, which dst names (R182): where the sequencer is held at the word, until the
other has come to it, else until the other has passed it. -/
def pushRelease (scope : BitVec 3) (held : Bool) (s : State) : State :=
  let q := s.mySlot.seqOf s.sel.party
  pushAcc s.sel.slot { kind := .fence, fk := 1, scope := scope, stor := 7, data := if held then 1 else 2,
                       dst := if s.sel.party = .asq then 1 else 0, pc := q.pc, word := s.sel.word, walk := q.walk } s

/-- BARG (R183). -/
def execBarg (o : BitVec 2) (a c : BitVec 5) (z : BitVec 3) (s : State) : Host.Outcome State Fault Refusal :=
  let sl := s.mySlot
  let k := s.sel.slot
  let p := s.sel.party
  let q := sl.seqOf p
  if s.role o = .follow then followWait s
  else if sl.busyP p a || sl.busyP p c then ok s
  else if 6 ≤ z.toNat then stop { code := 0x11, reason := 0x13 } s
  else
    let ea := (sl.rp p a).toNat
    withGlobal ea 8 8 .write s fun parts _ str s => checkedAtom parts 8 str ea s fun s =>
      if !(sl.otherSeq p).reached q.walk then ok s
      else openFor parts 3 s fun s =>
        let s := pushRelease z true s
        let s := pushAcc k { kind := .barg, pc := q.pc, word := s.sel.word, walk := q.walk, va := ea, len := 8, parts := parts,
                             data2 := sl.rp p c, dst := if p = .asq then 0 else 1 } s
        ok (holdAt p .arrive s)

/-- The checks of BAR, BARA and BARW (R425): the scope, the task's level, and the ids of its type (R316). -/
def barBad (z : BitVec 2) (i : BitVec 5) (s : State) : Option Cause :=
  let sl := s.mySlot
  let ty := s.typeEnt (s.inst (sl.task.getD 0)).type
  if z = 3 then some { code := 0x11, reason := 0x16 }
  else if !bit (fieldOf ty 24 4) i.toNat || decide (sl.level.toNat < z.toNat) then some { code := 0x11, reason := 0x17 }
  else none

/-- A waiter lends its class to the participants that have not arrived (R52). -/
def lend (k key scope : Nat) (s : State) : State :=
  let cls := (s.slot k).cls
  let b := mget {} s.tgu.bars key
  (s.barMembers scope k).foldl (fun s j =>
    if j = k ∨ b.arrived.contains j then s
    else s.modSlot j fun sl => { sl with lent := (key, cls) :: sl.lent.filter (· ≠ (key, cls)) }) s

/-- The slot has an arrival at the barrier that has not completed (R182). -/
def State.arrivalOpen (s : State) (k key : Nat) : Bool :=
  (mget {} s.tgu.bars key).arrived.contains k
  || (s.slot k).pend.any fun p => p.kind == .bar && p.data.toNat == key

/-- An arrival of BAR or BARA (R182): after the release over the events of lower walk index. -/
def arrival (z : BitVec 2) (key : Nat) (held : Bool) (s : State) : State :=
  let q := s.mySlot.seqOf s.sel.party
  let s := pushRelease (BitVec.ofNat 3 (z.toNat + 1)) held s
  pushAcc s.sel.slot { kind := .bar, pc := q.pc, word := s.sel.word, walk := q.walk, data := BitVec.ofNat 64 key } s

/-- BAR (R182). -/
def execBar (o : BitVec 2) (z : BitVec 2) (i : BitVec 5) (s : State) : Host.Outcome State Fault Refusal :=
  let k := s.sel.slot
  let p := s.sel.party
  if s.role o = .follow then followWait s
  else match barBad z i s with
    | some c => stop c s
    | none =>
      let key := barKey z.toNat (barUnit z.toNat k) i.toNat
      if s.arrivalOpen k key || !(s.mySlot.otherSeq p).reached (s.mySlot.seqOf p).walk then ok s
      else ok (lend k key z.toNat (holdAt p (.bar key (mget {} s.tgu.bars key).phase) (arrival z key true s)))

/-- BARA (R51, R182): it records the phase it arrives in and goes on; the arrival is sent once the other sequencer has
passed the word too. -/
def execBara (o : BitVec 2) (z : BitVec 2) (i : BitVec 5) (s : State) : Host.Outcome State Fault Refusal :=
  let k := s.sel.slot
  let p := s.sel.party
  if s.role o = .follow then followWait s
  else match barBad z i s with
    | some c => stop c s
    | none =>
      let key := barKey z.toNat (barUnit z.toNat k) i.toNat
      if s.arrivalOpen k key then ok s
      else ok (endWait k p ((arrival z key false s).modSlot k fun sl =>
        { sl with bara := mset 0 sl.bara key ((mget {} s.tgu.bars key).phase + 1) }))

/-- BARW (R182): it waits for the phase of the slot's last BARA to the same scope and id. -/
def execBarw (o : BitVec 2) (z : BitVec 2) (i : BitVec 5) (s : State) : Host.Outcome State Fault Refusal :=
  let k := s.sel.slot
  if s.role o = .follow then followWait s
  else match barBad z i s with
    | some c => stop c s
    | none =>
      let key := barKey z.toNat (barUnit z.toNat k) i.toNat
      match mget 0 s.mySlot.bara key with
      | 0 => ok (endWait k s.sel.party s)
      | ph + 1 =>
        if ph < (mget {} s.tgu.bars key).phase then ok (endWait k s.sel.party s)
        else ok (lend k key z.toNat (holdAt s.sel.party (.bar key ph) s))

/-- BARRIER_RELEASE (R51): once every participant has arrived, the phase flips, lent classes end, and each slot counts
the cluster phase, one in which it arrived by BARA and that it never waited for too (R247; DESIGN CHOICE, log entry 74). -/
def execBarrierRelease (key : Nat) (s : State) : Host.Outcome State Fault Refusal :=
  let b := mget {} s.tgu.bars key
  match b.arrived with
  | [] => ok s
  | k :: _ =>
    let ms := s.barMembers (key / 1024) k
    if ms.all fun j => b.arrived.contains j then
      let s := { s with tgu := { s.tgu with bars := mset {} s.tgu.bars key { phase := b.phase + 1, arrived := [] } } }
      ok (ms.foldl (fun s j => s.modSlot j fun sl =>
        { sl with lent := sl.lent.filter (·.1 ≠ key),
                  seen := if key / 1024 = 1 then mset 0 sl.seen (key % 32) (mget 0 sl.seen (key % 32) + 1) else sl.seen }) s)
    else ok s

end Sys2Proof.Machine
end

