-- ==== Sys2Proof/Machine/TguBase.lean ====
section
/-! DEFINITION. The structures of the task graph unit (R312 to R316), readiness (R322, R49), counters (R315), cuts
(R330 to R334), and the ends of an instance: retirement, kill and supersession.
Readings and choices of the model: DEDUCED log entries 25, 32. -/

namespace Sys2Proof.Machine

/-! ### Instances -/

/-- The instance counts toward its node: it has not been killed or superseded. -/
def InstSt.live (st : InstSt) : Bool := st != .gone
/-- Live instances of a node of a replay at a place. -/
def State.instsAt (s : State) (g n node x y z : Nat) : List (Nat × Inst) :=
  s.tgu.insts.filter fun p => p.2.graph == g && p.2.replay == n && p.2.node == some node && p.2.x == x && p.2.y == y
    && p.2.z == z && p.2.st.live
def State.retiredAt (s : State) (g n node x y z : Nat) : Bool :=
  (s.instsAt g n node x y z).any fun p => p.2.st == .retired
/-- Every instance of a node of a replay has retired. -/
def State.nodeRetired (s : State) (gr : Graph) (g n node : Nat) : Bool :=
  let e := s.node gr node
  (List.range (nCount e)).all fun i => s.retiredAt g n node (nX e i) (nY e i) (nZ e i)

def State.replay? (s : State) (g n : Nat) : Option Replay := s.tgu.replays.find? fun r => r.graph == g && r.num == n
def setReplay (r : Replay) (s : State) : State :=
  { s with tgu := { s.tgu with replays := s.tgu.replays.map fun q => if q.graph = r.graph ∧ q.num = r.num then r else q } }

/-- Every task of a stage of replay n has retired (R49); a replay no longer kept is settled. -/
def State.stageDone (s : State) (gr : Graph) (g n stage : Nat) : Bool :=
  (s.replay? g n).isNone ||
  ((List.range gr.nnode).all (fun i => nStage (s.node gr i) != stage || s.nodeRetired gr g n i)
    && s.tgu.insts.all fun p => p.2.graph != g || p.2.replay != n || p.2.stage != stage || p.2.st == .retired || !p.2.st.live)

/-! ### The order of events within one clk (R324) -/

/-- An event of rank r may be applied in this clk: 0 a retirement, 1 a cut publication, 2 a vote, 3 a publish request, 4 a replay
start, 5 dispatch. None of a higher rank has been. -/
def State.tguMay (s : State) (r : Nat) : Bool := s.tgu.evClk != s.clk || decide (s.tgu.evRank ≤ r)
/-- An event of rank r has been applied in this clk. -/
def tguDid (r : Nat) (s : State) : State :=
  let t := s.tgu
  { s with tgu := { t with evClk := s.clk, evRank := r, evDisp := if t.evClk = s.clk then t.evDisp else 0 } }
/-- Tasks dispatched in this clk so far. -/
def State.dispatched (s : State) : Nat := if s.tgu.evClk = s.clk then s.tgu.evDisp else 0

/-! ### Cuts (R330 to R334) -/

/-- The producer instances that feed a consumer at (x, y, z) on an edge. -/
def State.producerOf (s : State) (g n : Nat) (e x y z : Nat) : Option (Nat × Inst) :=
  if eMap e = 2 then (s.instsAt g n (eSrc e) 0 0 0).getLast? else (s.instsAt g n (eSrc e) x y z).getLast?

/-- The latest cut of a producer that a policy accepts (R332). -/
def acceptedCut (refire : Nat) (p : Inst) : Option Nat :=
  if p.pub = 0 then none
  else if refire = 2 then (if p.fin then some p.pub else some p.firstCut)
  else some p.pub

/-- CUT edges into a node. -/
def State.cutEdges (s : State) (gr : Graph) (node : Nat) : List Nat :=
  ((s.edgesOf gr).filter fun p => eCut p.2 && eDst p.2 == node).map (·.2)

/-- The cut for which a consumer instance is made now: the smallest of the latest accepted cuts of its CUT edges, 0
without such edges, none while one has none (R332). -/
def State.cutNow (s : State) (gr : Graph) (g n node x y z : Nat) : Option Nat :=
  let rf := tRefire (s.typeEnt (nType (s.node gr node)))
  (s.cutEdges gr node).foldl (fun (a : Option (Option Nat)) e =>
    match a, (s.producerOf g n e x y z).bind fun p => acceptedCut rf p.2 with
    | none, _ => none
    | _, none => none
    | some none, some c => some (some c)
    | some (some b), some c => some (some (min b c))) (some none) |>.map (·.getD 0)

/-- The consumer's cut is final or frozen (R333): it has voted, or each producer has published its final cut or is
frozen. -/
def State.cutSettled (s : State) (i : Inst) : Bool :=
  i.votes != [] ||
  match s.graph? i.graph, i.node with
  | some gr, some node => (s.cutEdges gr node).all fun e =>
      (s.producerOf i.graph i.replay e i.x i.y i.z).any fun p => p.2.fin || p.2.frozen
  | _, _ => true

/-! ### Readiness (R322) -/

/-- The item of an edge is present for a consumer. -/
def State.itemPresent (s : State) (gr : Graph) (g n e x y z : Nat) : Bool :=
  if eCut e then true
  else match eMap e with
    | 0 => s.retiredAt g n (eSrc e) x y z
    | 2 => s.retiredAt g n (eSrc e) 0 0 0
    | _ => s.nodeRetired gr g n (eSrc e)

/-- Counters of a graph aimed at an instance. -/
def State.countersAt (s : State) (gr : Graph) (node x y z : Nat) : List Nat :=
  (List.range gr.nctr).filter fun i =>
    let c := s.ctrEnt (gr.ctr0 + i)
    fieldOf c 8 2 == node && fieldOf c 10 2 == x && fieldOf c 12 2 == y && fieldOf c 14 2 == z

def State.instReady (s : State) (gr : Graph) (r : Replay) (node x y z : Nat) : Bool :=
  let e := s.node gr node
  (r.num == 0 || s.stageDone gr r.graph (r.num - 1) (nStage e)) &&
  (nSrc e ||
    ((s.edgesOf gr).all (fun p => eDst p.2 != node || s.itemPresent gr r.graph r.num p.2 x y z)
      && (s.cutNow gr r.graph r.num node x y z).isSome
      && (s.countersAt gr node x y z).all r.counters.contains))

/-- Entries of the ready pool (R311). -/
def State.poolCount (s : State) : Nat := (s.tgu.insts.filter fun p => p.2.st == .pooled).length

/-- Adds a task to the pool. -/
def addInst (i : Inst) (s : State) : State :=
  let t := s.tgu
  { s with tgu := { t with insts := mput t.insts t.nextInst { i with entry := t.nextEntry },
                           nextInst := t.nextInst + 1, nextEntry := t.nextEntry + 1 } }

/-- An instance of a node of a replay enters the pool. -/
def makeInst (gr : Graph) (r : Replay) (node x y z : Nat) (s : State) : State :=
  let e := s.node gr node
  let s := addInst { type := nType e, graph := r.graph, bank := r.bank, stage := nStage e, x := x, y := y, z := z,
                     replay := r.num, node := some node, guarded := tGuarded (s.typeEnt (nType e)),
                     cut := (s.cutNow gr r.graph r.num node x y z).getD 0 } s
  match s.replay? r.graph r.num with
  | some r => setReplay { r with made := (node, nIdx e x y z) :: r.made } s
  | none => s

/-- Every instance that has become ready enters the pool while it has room (R322, R311). -/
def readyScan (s : State) : State :=
  s.tgu.replays.foldl (fun s r =>
    match s.graph? r.graph with
    | none => s
    | some gr =>
      if gr.aborted || r.settled then s
      else (List.range gr.nnode).foldl (fun s node =>
        let e := s.node gr node
        (List.range (nCount e)).foldl (fun s i =>
          match s.replay? r.graph r.num with
          | none => s
          | some r =>
            if r.made.contains (node, i) || decide (2048 ≤ s.poolCount)
              || !s.instReady gr r node (nX e i) (nY e i) (nZ e i) then s
            else makeInst gr r node (nX e i) (nY e i) (nZ e i) s) s) s) s

/-! ### Counters (R315, R426) -/

/-- A signal to counter idx of graph g for a replay: COUNT falls; at 0 its target is ready and COUNT is reloaded; a
signal to a counter at 0 is discarded and reported. -/
def signalCtr (o : Origin) (g n idx : Nat) (s : State) : State :=
  match s.graph? g with
  | none => s
  | some gr =>
    let off := 0x200000 + 16 * (gr.ctr0 + idx)
    let w := (s.reg off).toNat
    let count := bits w 31 0
    let reload := bits w 63 32
    if count = 0 then asyncRecord o 0x17 12 0 0 0x40 false .none s
    else if count = 1 then
      let s := s.setReg off (BitVec.ofNat 64 (reload * 2 ^ 32 + reload))
      match s.replay? g n with
      | some r => readyScan (setReplay { r with counters := idx :: r.counters } s)
      | none => s
    else s.setReg off (BitVec.ofNat 64 (reload * 2 ^ 32 + (count - 1)))

/-- A counter signal sets out (R315). -/
def sendCtr (o : Origin) (g n idx : Nat) (s : State) : State :=
  { s with tgu := { s.tgu with sigs := s.tgu.sigs ++ [(o, g, n, idx)] } }

/-! ### Slots leave their task -/

/-- Key of no binding in a gleaner link. -/
def unbound : Nat × Nat × Nat := (64, 0, 0)

/-- Links that a task bound become unbound (R452, R480). -/
def unbindTask (t : Nat) (s : State) : State :=
  { s with gctx := s.gctx.map fun p => (p.1, { p.2 with links := p.2.links.filter fun l => l.2.2.2 ≠ t }) }

/-- The leases of a slot end, and its lease requests lapse (R216). -/
def endLeases (k : Nat) (s : State) : State :=
  let c := s.cluster (clusterOf k)
  s.setCluster (clusterOf k) { c with
    reqs := c.reqs.filter (·.1 ≠ k),
    secs := (List.range 4).foldl (fun m i =>
      let v := mget {} m i
      if v.holder = some k then mset {} m i { v with holder := none, uses := 0, pass := false } else m) c.secs }

/-- The slot's barrier arrivals and lends are withdrawn. -/
def dropBarriers (k : Nat) (s : State) : State :=
  { s with tgu := { s.tgu with bars := (s.tgu.bars.map fun b =>
      (b.1, { b.2 with arrived := b.2.arrived.filter (· ≠ k) })).filter fun b => decide (b.2 ≠ ({} : Barrier)) } }

/-- The slot becomes Free. -/
def freeSlot (k : Nat) (s : State) : State :=
  let s := dropBarriers k (endLeases k s)
  let s := s.setSlot k {}
  if (List.range 4).all fun i => (s.slot (4 * coreOf k + i)).task.isNone then
    s.modCore (coreOf k) fun c => { c with idleSince := s.clk }
  else s

/-- A kill takes a slot away (R480): unissued words, core-resident operations and pushes claimed on its rings end.
Stores that left the slot were never held, and stand. -/
def killSlot (k t : Nat) (s : State) : State :=
  let s := s.modCore (coreOf k) fun c =>
    { c with xops := c.xops.filter (fun x => !(x.org.slot == k && x.org.task == t)) }
  let s := { s with gctx := s.gctx.map fun p => (p.1, { p.2 with pushes := p.2.pushes.filter (·.peer ≠ k) }) }
  freeSlot k s

/-- The chunks of an instance's images are free again (R479). -/
def freeImages (t : Nat) (s : State) : State :=
  ({ s with tgu := { s.tgu with used := s.tgu.used.filter (·.1 ≠ t) } }).setInst t
    { s.inst t with images := [], shadow := [], savedOps := [], savedBars := [], lateTok := [], lateUp := [] }

/-- Stands for the slot of a member whose image is stored, where a gleaner link or a push names a slot (R476). -/
def awayKey (t member : Nat) : Nat := 64 + 16 * t + member

/-- Pushes on rings of the task's stored images end without writing (R480). -/
def GCtx.withoutPushes (c : GCtx) (t : Nat) : GCtx :=
  { c with pushes := c.pushes.filter fun x => decide (x.peer < awayKey t 0) || decide (awayKey (t + 1) 0 ≤ x.peer) }

/-- The running, saved or stopped instance is taken off its executors: a kill without its requeue (R480, R326). -/
def takeOff (t : Nat) (s : State) : State :=
  let ks := (s.inst t).slots
  let s := ks.foldl (fun s k => killSlot k t s) (unbindTask t (freeImages t s))
  let s := { s with gctx := s.gctx.map fun (p : Nat × GCtx) => (p.1, p.2.withoutPushes t) }
  s.setInst t { s.inst t with slots := [], op := none, faulted := false }

/-! ### Publication, votes and supersession -/

/-- The instance is gone, and an instance of the same place with cut c enters the pool (R332). -/
def renewAfter (t c : Nat) (s : State) : State :=
  let i := s.inst t
  addInst { i with st := .pooled, cut := c, slots := [], images := [], ents := [], irrevocable := false, votes := [],
                   op := none, faulted := false, nextCut := none, pub := 0, fin := false, frozen := false, bound := 0,
                   firstCut := 0, window := none } (s.setInst t { i with st := .gone })

/-- An instance is superseded by cut c (R332, R411, R481). -/
def supersede (t c : Nat) (s : State) : State :=
  let i := s.inst t
  match i.st with
  | .retired | .gone => s
  | .pooled =>
    if i.images = [] then s.setInst t { i with cut := c }
    else if i.irrevocable then s.setInst t { i with nextCut := some c }
    else renewAfter t c (takeOff t (discardSet t 2 (some 1) s))
  | .parked => renewAfter t c (if i.irrevocable then s else discardSet t 2 (some 1) s)
  | _ =>
    if i.irrevocable || !i.guarded then s.setInst t { i with nextCut := some c }
    else renewAfter t c (takeOff t (discardSet t 2 (some 1) s))

/-- Consumer instances that a producer feeds on a CUT edge. -/
def State.fedBy (s : State) (p : Inst) (e : Nat) : List (Nat × Inst) :=
  s.tgu.insts.filter fun c => c.2.graph == p.graph && c.2.replay == p.replay && c.2.node == some (eDst e) && c.2.st.live
    && (if eMap e = 2 then p.x == 0 && p.y == 0 && p.z == 0 else c.2.x == p.x && c.2.y == p.y && c.2.z == p.z)

/-- CUT edges out of the instance's node. -/
def State.cutOut (s : State) (p : Inst) : List Nat :=
  match s.graph? p.graph, p.node with
  | some gr, some node => ((s.edgesOf gr).filter fun q => eCut q.2 && eSrc q.2 == node).map (·.2)
  | _, _ => []

/-- A newer accepted cut supersedes the consumers that have not voted (R332). -/
def refire (p : Inst) (s : State) : State :=
  (s.cutOut p).foldl (fun s e => (s.fedBy p e).foldl (fun s c =>
    match s.graph? c.2.graph, c.2.node with
    | some gr, some node =>
      let i := s.inst c.1
      match s.cutNow gr i.graph i.replay node i.x i.y i.z with
      | some n => if i.cut < n ∧ i.votes = [] then supersede c.1 n s else s
      | none => s
    | _, _ => s) s) s

/-- An item is free again once every consumer instance it feeds has retired (R323). -/
def freeItems (i : Inst) (s : State) : State :=
  match s.graph? i.graph, i.node, s.replay? i.graph i.replay with
  | some gr, some node, some r =>
    if s.nodeRetired gr i.graph i.replay node then
      (s.edgesOf gr).foldl (fun s p =>
        if eDst p.2 = node ∧ r.items.contains p.1 then
          let k := gr.edge0 + p.1
          { s with tgu := { s.tgu with edgeFree := mset 0 s.tgu.edgeFree k (mget 0 s.tgu.edgeFree k + 1) } }
        else s) s
    else s
  | _, _, _ => s

/-- The publication of cut c with its bound (R348, R330), and what it supersedes. -/
def publishCut (t c : Nat) (bound : BitVec 32) (fin : Bool) (s : State) : State :=
  let i := s.inst t
  let i := { i with pub := c, bound := bound, fin := fin, firstCut := if i.pub = 0 then c else i.firstCut }
  refire i (s.setInst t i)

/-- The instance retires (R32, R129, R330): its write set commits, a producer without a final cut publishes it, spawned
tasks signal their counter, and items are freed. -/
def retireCore (t : Nat) (s : State) : State :=
  let s := commitSet t s
  let i := s.inst t
  let s := if tTlen (s.typeEnt i.type) ≠ 0 ∧ ¬ i.fin ∧ ¬ i.frozen then publishCut t (i.pub + 1) 0 true s else s
  match i.nextCut with
  | some c => renewAfter t c s
  | none =>
    let s := s.setInst t { s.inst t with st := .retired, slots := [], op := none }
    let s := if i.node.isNone ∧ i.sctr ≠ 0 then
        sendCtr { slot := i.slots.headD 0, task := t, bySlot := false } i.graph i.replay (i.sctr - 1) s
      else s
    freeItems i s

/-- Parked consumers whose cut has become final or frozen, and whose write set can commit (R134), retire (R333); at most as many
rounds as instances. -/
def settleParked : Nat → State → State
  | 0, s => s
  | n + 1, s =>
    match s.tgu.insts.find? fun p => p.2.st == .parked && s.cutSettled p.2 && !s.commitWaits p.1 with
    | some p => settleParked n (retireCore p.1 s)
    | none => s

/-- The host's copies of the lines of write sets that are to commit are called back (R134, R358). -/
def callParked (s : State) : State :=
  s.tgu.insts.foldl (fun s p => if p.2.st == .parked && s.cutSettled p.2 then sendBisnp (heldLines p.2.held) s else s) s

/-- The clk's consequences of an event: parked instances that may retire, and instances that become ready. -/
def aftermath (s : State) : State := readyScan (callParked (settleParked s.tgu.insts.length s))

/-- A guarded consumer whose cut is open parks when it meets R32 (R333). -/
def State.parks (s : State) (t : Nat) : Bool :=
  let i := s.inst t
  i.guarded && !s.cutSettled i && i.nextCut.isNone
/-- The instance cannot end yet: the clk's retirements are over (R324), or its write set is to commit and waits (R125, R134). -/
def State.endWaits (s : State) (t : Nat) : Bool := !s.tguMay 0 || (!s.parks t && s.commitWaits t)

/-- The end of an instance that meets R32: a guarded consumer whose cut is open parks (R333), any other retires. One
that became irrevocable has committed already, and waits in the same way for its cut. -/
def endInst (t : Nat) (s : State) : State :=
  let parks := s.parks t
  let s := (s.inst t).slots.foldl (fun s k => freeSlot k s) (unbindTask t (tguDid 0 s))
  if parks then s.setInst t { s.inst t with st := .parked, slots := [], op := none }
  else aftermath (retireCore t s)

/-- A vote on a CUT edge (R334, R349): a producer all of whose consumers on the edge have voted is frozen, unless its
final cut is out. -/
def vote (t e : Nat) (s : State) : State :=
  let i := s.inst t
  let s := tguDid 2 s
  let i := { i with votes := if i.votes.contains (eIn e) then i.votes else eIn e :: i.votes }
  let s := s.setInst t i
  let s := match s.producerOf i.graph i.replay e i.x i.y i.z with
    | some (pt, p) =>
      let gr := (s.graph? p.graph).getD {}
      let d := s.node gr (eDst e)
      let fed := s.fedBy p e
      let want := if eMap e = 2 then nCount d else 1
      if !p.fin && decide (want ≤ fed.length) && fed.all (fun c => c.2.votes.contains (eIn e)) then
        s.setInst pt { p with frozen := true }
      else s
    | none => s
  aftermath s

/-! ### The launch port (R319, R320) -/

/-- A package in S1 is in S0 again, as a launch, a task or a core to wake needs it (R371, R372): its task graph unit is awake. -/
def leaveS1 (s : State) : State := if s.pkg.power = 1 then { s with pkg := { s.pkg with power := 0 } } else s

/-- A launch record reaches the port: discarded and counted, queued, or held while the queue is full. -/
def launchArrive (r : BitVec 512) (s : State) : State :=
  let s := leaveS1 s
  let v := r.toNat
  let g := fieldOf v 0 1 % 64
  match s.graph? g with
  | none => { s with tgu := { s.tgu with drop := s.tgu.drop + 1 } }
  | some gr =>
    if gr.aborted then { s with tgu := { s.tgu with drop := s.tgu.drop + 1 } }
    else if 64 ≤ s.tgu.launches.length ∨ s.tgu.port ≠ [] then { s with tgu := { s.tgu with port := s.tgu.port ++ [r] } }
    else
      let fl := fieldOf v 1 1
      let s := if bit fl 0 then setGraph g { gr with pubreq := true } s else s
      { s with tgu := { s.tgu with launches := s.tgu.launches ++
        [{ graph := g, publish := bit fl 0, irq := bit fl 1, nrep := fieldOf v 4 4, stop := fieldOf v 8 8,
           done := fieldOf v 16 8 }] } }

/-- Writes held at the port enter as entries free, oldest first. -/
def drainPort : Nat → State → State
  | 0, s => s
  | n + 1, s =>
    match s.tgu.port with
    | [] => s
    | r :: rs =>
      if 64 ≤ s.tgu.launches.length then s
      else
        let s := launchArrive r { s with tgu := { s.tgu with port := [] } }
        drainPort n { s with tgu := { s.tgu with port := rs } }

end Sys2Proof.Machine
end

