-- ==== Sys2Proof/Machine/Signal.lean ====
section
/-! DEFINITION. The retirement of an engine operation: its completion object is signalled (R240, R426, R476), its token
posted (R44), and a delegable cause delivered to its slot (R404).
Readings and choices of the model: DEDUCED log entry 22. -/

namespace Sys2Proof.Machine

/-- The slot that the issuer of an operation occupies now: a restored task may have moved (R487). -/
def State.slotOf (s : State) (o : Origin) : Option Nat :=
  let i := s.inst o.task
  if o.bySlot && (i.st == .running || i.st == .saved || i.st == .restoring) then
    match i.slots[o.member]? with
    | some k => if (s.slot k).task = some o.task then some k else none
    | none => none
  else none

/-- The image of the issuer, as the physical address of its first chunk (R476). -/
def State.imageOf (s : State) (o : Origin) : Option Nat :=
  if o.bySlot && (s.slotOf o).isNone then (s.inst o.task).images[o.member]? else none

/-- The address space of a task: its graph's (R312). -/
def State.spaceOf (s : State) (t : Nat) : Nat := ((s.graph? (s.inst t).graph).getD {}).space

/-- Counts a signal in COST (R238). -/
def countSignal (k c : Nat) (s : State) : State :=
  s.modSlot k fun sl => { sl with cos := mset {} sl.cos c { mget {} sl.cos c with count := (mget {} sl.cos c).count + 1 } }

/-- Counts a signal in the image of a stored task, whose PEND saturates (R238, R476). -/
def countImage (pa c : Nat) (s : State) : State :=
  let a := pa + 256 + 4 * c
  homeWrite a (leBytes (min (s.physLe a 4 + 1) (2 ^ 32 - 1)) 4) s
/-- Counts a signal that an operation sends elsewhere (R238), in the slot or its image. -/
def countSent (o : Origin) (s : State) : State :=
  match s.slotOf o with
  | some k => countSignal k o.co s
  | none => match s.imageOf o with
    | some pa => countImage pa o.co s
    | none => s

/-- A signal to a local counter (R240, R426): one more, but for a count at its end. src is the signalling unit. -/
def signalCount (o : Origin) (src : Nat) (s : State) : State :=
  match s.slotOf o with
  | some k =>
    if (mget {} (s.slot k).cos o.co).count = BitVec.allOnes 32 then asyncRecord o 0x16 src 0 0 0x22 false .none s
    else countSignal k o.co s
  | none =>
    match s.imageOf o with
    | some pa => countImage pa o.co s
    | none => s

/-- The engine TLB of the unit that signals for a slot's operation (R104). -/
def State.sigTier (s : State) (o : Origin) (src : Nat) : Nat :=
  match src with
  | 3 => tierXfer (coreOf o.slot)
  | 5 => tierGlean (s.sel.ctx / 8)
  | 7 => tierUnit (clusterOf o.slot)
  | _ => tierEngine src

/-- A signal to a completion word (R240, R129): an AMO that adds 1, held with the writes of a guarded task unless the
operation's writes are never held. -/
def signalWord (o : Origin) (src : Nat) (never : Bool) (s : State) : State :=
  let s := countSent o s
  let va := bits o.cfg.toNat 56 3 * 8
  match xlEngine (s.sigTier o src) (s.spaceOf o.task) va 8 .write s with
  | (.inl (c, r), s) => asyncRecord o c src 0 va r false .none s
  | (.inr (pa, e), s) =>
    if pteStr e then asyncRecord o 0x30 13 (homeSlice pa) va 1 false .none s
    else if s.holdsAt o.task pa (pteGex e) && !never then hold1 o.task (some o) (.add1 pa va) s
    else match atomBad pa 8 false s with
      | (some r, s) => asyncRecord o 0x30 13 (homeSlice pa) va r false .none s
      | (none, s) => atomDo o.task pa 8 (fun w => (w + 1) % 2 ^ 64) s

/-- The retirement of an operation of a slot has to wait, so that its completion word can be written (R122, R129, R134, R358). -/
def State.signalWaits (s : State) (o : Origin) (src : Nat) (never : Bool) : Bool :=
  o.sbit && bits o.cfg.toNat 63 61 == 4 && (s.inst o.task).st.live &&
  match (xlEngine (s.sigTier o src) (s.spaceOf o.task) (bits o.cfg.toNat 56 3 * 8) 8 .write s).1 with
  | .inl _ => false
  | .inr (pa, e) => !pteStr e &&
    if s.holdsAt o.task pa (pteGex e) && !never then overflows (s.inst o.task).held (.add1 pa 0) && s.commitWaits o.task
    else s.putWaits o.task [lineOf pa]
/-- Lines whose copies at the host are called back for the signal. -/
def State.signalLines (s : State) (o : Origin) (src : Nat) : List Nat :=
  match (xlEngine (s.sigTier o src) (s.spaceOf o.task) (bits o.cfg.toNat 56 3 * 8) 8 .write s).1 with
  | .inl _ => []
  | .inr (pa, _) => s.taskLines o.task [lineOf pa]
/-- The last act of an operation of a slot, which retires it, is done once its signal can be given (R134, R240). -/
def whenSignal (o : Origin) (src : Nat) (never : Bool) (s : State) (f : State → State) : State :=
  if s.signalWaits o src never then sendBisnp (s.signalLines o src) s else f s

/-- The completion object of an operation is signalled once (R240). -/
def signal (o : Origin) (src : Nat) (never : Bool) (s : State) : State :=
  if !o.sbit then s
  else match bits o.cfg.toNat 63 61 with
    | 1 => signalCount o src s
    | 2 =>
      let s := countSent o s
      let i := s.inst o.task
      if i.st.live then sendCtr o i.graph i.replay (bits o.cfg.toNat 15 0) s else s
    | 4 => if (s.inst o.task).st.live then signalWord o src never s else s
    | _ => s

/-- The token of a retired word of queue e is posted (R44), in the image if the task is saved (R476). -/
def postToken (o : Origin) (s : State) : State :=
  match s.slotOf o with
  | some k => s.modSlot k fun sl => sl.tokGive o.queue o.tok
  | none =>
    match s.imageOf o, partner o.queue o.tok with
    | some _, some p =>
      if tkPost o.tok then
        let i := s.inst o.task
        s.setInst o.task { i with lateTok := (o.member, 4 * o.queue + p) :: i.lateTok }
      else s
    | _, _ => s

/-- The operation retires: signal, token, and the slot has made progress (R416). -/
def retireOp (o : Origin) (src : Nat) (never : Bool) (s : State) : State :=
  let s := endEnts o (postToken o (signal o src never s))
  match s.slotOf o with
  | some k => progress k s
  | none => s

/-- A delegable asynchronous cause of a slot's operation (R403, R404): pending in the slot or its image, or reported as
0x18 without a handler, as 0x19 when five are pending. val is the block address, tok the token, st the state. -/
def delegable (o : Origin) (cause : Nat) (val tok st : Nat) (s : State) : State :=
  let u : UPend := { cause := BitVec.ofNat 64 (cause + 2 ^ 8 * (o.co + (if o.sbit then 64 else 0))), tval := BitVec.ofNat 64 val,
                     org := o, info := 2 ^ 8 * tok + 2 ^ 40 * st }
  match s.slotOf o with
  | some k =>
    let sl := s.slot k
    if sl.utvec = 0 then
      asyncRecord o 0x18 10 0 val (cause + u.info) false .none s
    else if 5 ≤ sl.upend.length then asyncRecord o 0x19 10 0 val (tok + 2 ^ 32 * st) false .none s
    else s.setSlot k { sl with upend := sl.upend ++ [u] }
  | none =>
    match s.imageOf o with
    | some _ =>
      let i := s.inst o.task
      let kept := ((lookupN i.shadow o.member).getD {}).upend.length + (i.lateUp.filter (·.1 == o.member)).length
      if 5 ≤ kept then asyncRecord o 0x19 10 0 val (tok + 2 ^ 32 * st) false .none s
      else s.setInst o.task { i with lateUp := i.lateUp ++ [(o.member, u)] }
    | none =>
      if o.bySlot then s else asyncRecord o cause 10 0 val (tok + 2 ^ 32 * st) false .none s

/-- The origin of a word that leaves queue q of slot k, with the held writes that R123 carries to its agent (R129). -/
def State.originOf (s : State) (k q : Nat) (e : QEnt) (tok : BitVec 4) (sbit : Bool) (co : Nat) : Origin :=
  let sl := s.slot k
  { slot := k, task := sl.task.getD 0, pc := e.pc, word := e.word, queue := q, tok := tok, sbit := sbit, co := co,
    cfg := (mget {} sl.cos co).cfg, member := sl.member, id := e.id,
    sees := (s.inst (sl.task.getD 0)).carriedTo (agentScope e.word) }

end Sys2Proof.Machine
end

