-- ==== Sys2Proof/Machine/Place.lean ====
section
/-! DEFINITION. Placement of tasks on cores (R325, R29), the start of a slot (R30), and requests for a checkpoint
(R328, R347, R479).
Readings and choices of the model: DEDUCED log entries 21, 26, 42. -/

namespace Sys2Proof.Machine

/-- Where one member goes: slot, scratchpad base and accumulator base in window units. -/
structure Spot where
  slot : Nat := 0
  sp : Nat := 0
  acc : Nat := 0
deriving DecidableEq, Repr, Inhabited

/-- A core that may run a task: not declared dead (R496). -/
def State.coreUp (s : State) (c : Nat) : Bool := !s.pkg.deadCores.getLsbD c
/-- Awake: powered and not waking. -/
def State.awake (s : State) (c : Nat) : Bool := s.coreUp c && !s.pkg.gated.getLsbD c && !(s.core c).waking

/-- Two ranges of window units meet. -/
def rangesMeet (a n b m : Nat) : Bool := decide (0 < n) && decide (0 < m) && decide (a < b + m) && decide (b < a + n)

/-- Windows taken on a core: scratchpad base and size, accumulator base and size, of its slots and of the members
already placed with demand (spw, accw). -/
def State.windows (s : State) (c spw accw : Nat) (ps : List Spot) : List (Nat × Nat × Nat × Nat) :=
  ((List.range 4).filterMap fun i =>
    let sl := s.slot (4 * c + i)
    if sl.task.isNone then none
    else some (bits sl.spwin.toNat 7 0, bits sl.spwin.toNat 24 16, bits sl.accwin.toNat 6 0, bits sl.accwin.toNat 23 16))
  ++ ((ps.filter fun p => coreOf p.slot == c).map fun p => (p.sp, spw, p.acc, accw))

/-- Free slots of a core. -/
def State.freeSlots (s : State) (c : Nat) (ps : List Spot) : List Nat :=
  ((List.range 4).map (4 * c + ·)).filter fun k => (s.slot k).task.isNone && !(ps.any fun p => p.slot == k)
/-- Bases at which a window of n units fits below top; a base field holds 0 to top - 1 (R90, R94). -/
def basesFor (n top : Nat) (used : List (Nat × Nat)) : List Nat :=
  (List.range (min top (top + 1 - n))).filter fun b => used.all fun u => !rangesMeet b n u.1 u.2

/-- Barrier ids that other tasks hold in a cluster: those with a member there, and those of device level, whose ids are taken
in every cluster (R50). -/
def State.idsHeld (s : State) (cl : Nat) : Nat :=
  (List.range 64).foldl (fun m k =>
    match (s.slot k).task with
    | some t =>
      let ty := s.typeEnt (s.inst t).type
      if clusterOf k = cl ∨ tLevel ty = 2 then m ||| tBarids ty else m
    | none => m) 0
/-- The ids of a type are free wherever a gang placed on cluster cl takes them (R50). -/
def State.idsFree (s : State) (cl ty : Nat) : Bool :=
  (if tLevel ty = 2 then List.range 4 else [cl]).all fun c => s.idsHeld c &&& tBarids ty == 0

/-- The places that a core offers to one member of type ty. -/
def State.spotsOn (s : State) (c ty : Nat) (ps : List Spot) : List Nat × List Nat × List Nat :=
  let w := s.windows c (tSpw ty) (tAccw ty) ps
  (s.freeSlots c ps, basesFor (tSpw ty) 256 (w.map fun x => (x.1, x.2.1)),
   basesFor (tAccw ty) 128 (w.map fun x => (x.2.2.1, x.2.2.2)))
def State.holds1 (s : State) (c ty : Nat) (ps : List Spot) : Bool :=
  let (a, b, d) := s.spotsOn c ty ps
  a != [] && b != [] && d != [] && s.idsFree (c / 4) ty

/-- The element that a free choice picks, and what is left of the choice. -/
def pickOf (l : List Nat) (pick : Nat) : Nat × Nat := (l.getD (pick % max 1 l.length) 0, pick / max 1 l.length)

/-- The core with the fewest free slots, ties to the lowest number. -/
def State.fullest (s : State) (ps : List Spot) : List Nat → Option Nat
  | [] => none
  | c :: cs =>
    match s.fullest ps cs with
    | none => some c
    | some d => if (s.freeSlots c ps).length ≤ (s.freeSlots d ps).length then some c else some d

/-- PLACE for one member among the given cores (R325): its spot, and whether the core must be woken. -/
def State.place1 (s : State) (ty : Nat) (cores : List Nat) (ps : List Spot) (pick : Nat) : Option (Spot × Nat) :=
  let a := cores.filter fun c => s.awake c && s.holds1 c ty ps
  let c := match s.fullest ps a with
    | some c => some c
    | none =>
      if tLatn ty = 0 ∨ 2460 ≤ tLatn ty then
        cores.find? fun c => s.coreUp c && !s.awake c && s.holds1 c ty ps
      else none
  match c with
  | none => none
  | some c =>
    let (ks, bs, as) := s.spotsOn c ty ps
    let (k, pick) := pickOf ks pick
    let (b, pick) := pickOf bs pick
    let (a, pick) := pickOf as pick
    some ({ slot := k, sp := b, acc := a }, pick)

/-- Places n members one after another (R29). -/
def State.placeN (s : State) (ty : Nat) (cores : List Nat) : Nat → List Spot → Nat → Option (List Spot)
  | 0, ps, _ => some ps
  | n + 1, ps, pick =>
    match s.place1 ty cores ps pick with
    | none => none
    | some (p, pick) => s.placeN ty cores n (ps ++ [p]) pick

/-- The members of a gang that find places, one after another, before one finds none; a gang of level cluster has one cluster for
all, or wakes nothing. -/
def State.placed (s : State) (ty pick : Nat) : List Spot :=
  let rec go : Nat → List Spot → Nat → List Spot
    | 0, ps, _ => ps
    | n + 1, ps, pick =>
      match s.place1 ty (List.range 16) ps pick with
      | none => ps
      | some (p, pick) => go n (ps ++ [p]) pick
  if tLevel ty = 1 then [] else go (tMembers ty) [] pick

/-- PLACE of a whole task (R325): a gang of level cluster goes to one cluster. -/
def State.place (s : State) (ty pick : Nat) : Option (List Spot) :=
  let n := tMembers ty
  if tLevel ty = 1 then
    let good := (List.range 4).filter fun cl => (s.placeN ty ((List.range 4).map (4 * cl + ·)) n [] pick).isSome
    match s.place1 ty (good.flatMap fun cl => (List.range 4).map (4 * cl + ·)) [] pick with
    | none => none
    | some (p, _) => s.placeN ty ((List.range 4).map (4 * (coreOf p.slot / 4) + ·)) n [] pick
  else s.placeN ty (List.range 16) n [] pick

/-- A core is woken (R24, R325), for which the package leaves S1. -/
def wakeCore (c : Nat) (s : State) : State :=
  if s.awake c then s
  else
    leaveS1 (s.modCore c fun v => { v with waking := true })

/-- The slot's registers at the start of a task (R30). -/
def startSlot (t member : Nat) (p : Spot) (s : State) : State :=
  let i := s.inst t
  let ty := s.typeEnt i.type
  let gr := (s.graph? i.graph).getD {}
  let r := fun (v : Nat) => BitVec.ofNat 64 v
  let regs : Map Word := ((((((mset 0 [] 1 (r i.x)) |> (mset 0 · 2 (r i.y))) |> (mset 0 · 3 (r i.z)))
    |> (mset 0 · 4 (r (gr.bankOf i.bank)))) |> (mset 0 · 5 (r (i.stage % 16 + 2 ^ 8 * min i.cut 255 + 2 ^ 16 * i.replay))))
    |> (mset 0 · 6 (r member))) |> (mset 0 · 7 (r (tMembers ty)))
  let pc := r (tCode ty)
  let s := wakeCore (coreOf p.slot) s
  s.setSlot p.slot { task := some t, st := 1, cls := BitVec.ofNat 2 (tCls ty), stage := BitVec.ofNat 4 i.stage,
                     level := BitVec.ofNat 2 (tLevel ty), member := member, space := gr.space,
                     asq := { pc := pc, ended := false }, esq := { pc := pc, ended := false }, a := regs, x := regs,
                     slipw := r (if tSlip ty = 0 then 256 else tSlip ty), trec := taskRecord i,
                     spwin := r (p.sp + 2 ^ 16 * tSpw ty), accwin := r (p.acc + 2 ^ 16 * tAccw ty),
                     started := s.clk, lastAct := s.clk }

/-- A task is started on its spots, every member at once (R29), or its restore begins (R487). -/
def startTask (t : Nat) (ps : List Spot) (s : State) : State :=
  let i := s.inst t
  let s := (ps.zipIdx).foldl (fun s p => startSlot t p.2 p.1 s) s
  let ks := ps.map (·.slot)
  if i.images = [] then s.setInst t { i with st := .running, slots := ks }
  else (ks.foldl (fun s k => s.modSlot k fun sl => { sl with st := 5 }) s).setInst t { i with st := .restoring, slots := ks }

/-! ### Checkpoints -/

/-- Enough chunks are free to save every member of the task (R479). -/
def State.canSave (s : State) (t : Nat) : Bool :=
  decide (((s.inst t).slots.foldl (fun n k => n + chunksFor (s.rawLen k (s.cutOps k))) 0) ≤ s.freeChunks.length)

/-- A checkpoint of the task begins (R473, R477): every member halts before its next word. -/
def beginSave (t : Nat) (s : State) : State :=
  let i := s.inst t
  (i.slots.foldl (fun s k => landAll k (s.modSlot k fun sl => { sl with st := 5, csrWait := none })) s).setInst t
    { i with st := .saved }

/-- The state with a task's slots taken away, for the question whether that would let another be placed. -/
def State.without (s : State) (t : Nat) : State :=
  { s with slots := s.slots.filter fun p => p.2.task ≠ some t }

/-- Every output edge of a pool entry has a free slot, or its replay has taken the item (R323). -/
def State.outFree (s : State) (i : Inst) : Bool :=
  match s.graph? i.graph, i.node, s.replay? i.graph i.replay with
  | some gr, some node, some r => (s.edgesOf gr).all fun p =>
      eSrc p.2 != node || r.items.contains p.1 || decide (0 < mget 0 s.tgu.edgeFree (gr.edge0 + p.1))
  | _, _, _ => true

/-- A ready core task of the class or above has no place now, and would have one without the task (R347). -/
def State.wanted (s : State) (t cls : Nat) : Bool :=
  s.tgu.insts.any fun p =>
    let ty := s.typeEnt p.2.type
    p.2.st == .pooled && tClass ty == 0 && decide (cls ≤ tCls ty) && s.outFree p.2
      && (s.place ty 0).isNone && ((s.without t).place ty 0).isSome

end Sys2Proof.Machine
end

