-- ==== Sys2Proof/Machine/System.lean ====
section
/-! DEFINITION. The Y words (R336 to R353), executed at the rendezvous of both sequencers or by the management core,
the CSRs (R337), the writes they hold for, and the delivery of pending user-level causes (R404).
Readings and choices of the model: DESIGN CHOICE log entry 14; DEDUCED log entries 22, 23, 24, 25, 26, 50, 58. -/

namespace Sys2Proof.Machine

/-! ### Shared forms -/

/-- A Y word of a slot: it waits for the x registers it names (R57). -/
def yWord (regs : List (BitVec 5)) (s : State) (f : Slot → Host.Outcome State Fault Refusal) :
    Host.Outcome State Fault Refusal :=
  let sl := s.mySlot
  if regs.any (sl.busyP .esq) then ok s else f sl

/-- The Y word is done and x[d] holds v; a result due at the word's tick is of an earlier word and does not stand over it (R58). -/
def yDone (d : BitVec 5) (v : Word) (s : State) : Host.Outcome State Fault Refusal :=
  ok ((adv s.sel.slot .esq (adv s.sel.slot .asq s)).modSlot s.sel.slot fun sl => sl.wx d v)

/-- The slot's task, its type and its graph. -/
def State.myTask (s : State) : Nat := s.mySlot.task.getD 0
def State.myInst (s : State) : Inst := s.inst s.myTask
def State.myType (s : State) : Nat := s.typeEnt s.myInst.type
def State.myGraph (s : State) : Graph := (s.graph? s.myInst.graph).getD {}

/-- The word is a VACCR or VACCW. -/
def accWord (w : W32) : Bool := match decodeCore w with
  | .ok (.vaccr _ _ _) | .ok (.vaccw _ _ _) => true
  | _ => false

/-- Every earlier access of the slot is performed and visible at SYSTEM scope, and its delivered copies are decided
(R126, R128, R344, R348). -/
def State.released (s : State) (k : Nat) : Bool :=
  let sl := s.slot k
  sl.pend == [] && sl.results.all (fun r => r.acc.isNone) && !(mget [] sl.queues 0).any (fun e => accWord e.word)
  && !s.unreleased k true && s.offers.all (·.slot != k)

/-- The slot's earlier accesses, and what is owed to it, let a read of these parts be performed now (R114, R120). -/
def State.mayRead (s : State) (k : Nat) (parts : List (Nat × Nat × BitVec 2 × Bool)) (len : Nat) : Bool :=
  ((s.slot k).pend.all fun q => !q.before { kind := .load, len := len, parts := parts }) && !s.accOwed k parts

/-- A store of the slot performed at once (R110, R129): open, or held in the write set of a guarded task. -/
def storeNow (k : Nat) (x : Nat × Nat × BitVec 2 × Bool) (d : List Byte) (s : State) : State :=
  let t := (s.slot k).task.getD 0
  if s.holdsAt t x.1 x.2.2.2 then hold1 t none (.bytes x.1 d) s
  else
    let s := coWrites (coreOf k) (linesOf x.1 d.length) s
    ((s.inst t).liveBytes x.1 d).foldl (fun s z => physWrite z.1 z.2 s) s

/-! ### CSRs (R337) -/

/-- The CSRs of a slot. -/
def csrListed (n : Nat) : Bool :=
  [0x010, 0x011, 0x020, 0x021, 0x030, 0x040, 0x041, 0x042, 0x043, 0x044, 0x050, 0x051, 0x052, 0x053].contains n
  || (decide (0x100 ≤ n) && decide (n < 0x180))

/-- COSTn (R238). -/
def Co.status (o : Co) : Word :=
  if o.kind = 3 then
    BitVec.ofNat 64 (o.free % 512 * 2 ^ 25 + ((List.range 256).countP fun i => o.filled.getLsbD i) % 512 * 2 ^ 16
      + o.oldest % 256 * 2 ^ 8 + o.next % 256)
  else o.count.setWidth 64

/-- The value of a CSR. -/
def csrRead (sl : Slot) (k n : Nat) : Word :=
  if n = 0x010 then sl.slipw
  else if n = 0x011 then slotst sl k
  else if n = 0x020 then sl.spwin
  else if n = 0x021 then sl.accwin
  else if n = 0x030 then sl.shape
  else if n = 0x040 then sl.utvec
  else if n = 0x041 then sl.uepc
  else if n = 0x042 then sl.ucause
  else if n = 0x043 then sl.utval
  else if n = 0x044 then sl.uscratch
  else if 0x050 ≤ n ∧ n < 0x054 then sl.trec.extractLsb' (64 * (n - 0x050)) 64
  else if 0x100 ≤ n ∧ n < 0x140 then (mget {} sl.cos (n - 0x100)).cfg
  else if 0x140 ≤ n ∧ n < 0x180 then (mget {} sl.cos (n - 0x140)).status
  else 0

/-- The COCFG value breaks R237 (R430). -/
def cocfgBad (sl : Slot) (nctr : Nat) (v : Word) : Bool :=
  let o : Co := { cfg := v }
  decide (4 < o.kind) || (o.kind == 2 && decide (nctr ≤ o.ctr))
  || (o.kind == 3 && (decide (o.ns < o.nw) || decide (sl.spSize < o.slotAddr 0 + o.ns * o.ssize)))

/-- An operation queued or in flight names object c, or a gleaner link is bound to it (R239). -/
def State.coNamed (s : State) (k c : Nat) : Bool :=
  let sl := s.slot k
  let t := sl.task.getD 0
  let o := fun (g : Origin) => s.slotOf g == some k && g.sbit && g.co == c
  let q := fun (w : W32) => match decodeCore w with
    | .ok (.copy _ _ _ _ _ b n) => b == 1 && n.toNat == c
    | .ok (.gath _ _ _ _ b n) | .ok (.scat _ _ _ _ b n) => b == 1 && n.toNat == c
    | .ok (.halo _ _ _ _ n) => n.toNat == c
    | .ok (.glkick _ _ _ b n) => b == 1 && n.toNat == c
    | .ok (.gllink _ _ _ n) => n.toNat == c
    | .ok (.attn _ _ b n) | .ok (.pimld _ _ b n) | .ok (.pimrun _ _ b n) | .ok (.reduce _ _ b n)
    | .ok (.sample _ _ b n) | .ok (.wnstep _ _ b n) => b == 1 && n.toNat == c
    | .ok (.mcommit _ b n) => b == 1 && n.toNat == c
    | _ => false
  (s.core (coreOf k)).xops.any (fun x => o x.org) || sl.batches.any (fun b => o b.org)
  || s.eops.any (fun e => o e.2.org) || s.gctx.any (fun g => (g.2.run && o g.2.org) || g.2.links.any fun l => l.2.1 == k && l.2.2.1 == c && l.2.2.2 == t)
  || [1, 2, 3].any fun i => (mget [] sl.queues i).any fun e => q e.word

/-- A write of the CSR can be done now (R190, R239). -/
def State.csrReady (s : State) (k n : Nat) : Bool :=
  if n = 0x030 then mget [] (s.slot k).queues 0 == []
  else if 0x100 ≤ n ∧ n < 0x140 then !s.coNamed k (n - 0x100)
  else true

/-- The bits of a COCFG that its kind uses: KIND, and the fields of ARG (R237); the others are reserved and read as zero (R6). -/
def cocfgMask (kind : Nat) : Word :=
  if kind = 2 then 0xE00000000000FFFF
  else if kind = 3 then 0xE00FFFFFFFFFFFF0
  else if kind = 4 then 0xE1FFFFFFFFFFFFF8
  else 0xE000000000000000
/-- The CSR after a write of v (R6, R38, R189, R237, R239, R339). -/
def csrWrite (sl : Slot) (n : Nat) (v : Word) : Slot :=
  let addr := v &&& 0x01FFFFFFFFFFFFFC
  if n = 0x010 then { sl with slipw := BitVec.ofNat 64 (min 1024 (max 1 (v.toNat % 2048))) }
  else if n = 0x030 then { sl with shape := v &&& 0xECF }
  else if n = 0x040 then { sl with utvec := addr }
  else if n = 0x041 then { sl with uepc := addr }
  else if n = 0x042 then { sl with ucause := v &&& 0x1FFFFF }
  else if n = 0x043 then { sl with utval := v }
  else if n = 0x044 then { sl with uscratch := v }
  else if 0x100 ≤ n ∧ n < 0x140 then
    let o : Co := { cfg := v &&& cocfgMask (bits v.toNat 63 61) }
    { sl with cos := mset {} sl.cos (n - 0x100) { o with free := if o.kind = 3 then o.nw else 0 } }
  else sl

/-- The new value of an access that reads, writes, sets or clears, none for one that does not write (R338). -/
def csrNew (op : Nat) (a : BitVec 5) (old xa : Word) : Option Word :=
  if op = 1 then some xa
  else if op = 0 ∨ a = 0 then none
  else if op = 2 then some (old ||| xa)
  else some (old &&& ~~~xa)

/-- An earlier VSHAPE of the slot still waits in the V queue: a read of SHAPE comes after it (R57). -/
def Slot.shapePending (sl : Slot) : Bool :=
  (mget [] sl.queues 0).any fun e => match decodeCore e.word with
    | .ok (.vshape _ _ _ _ _) => true
    | _ => false

/-- The access to a CSR: op 0 CSRR, 1 CSRW, 2 CSRS, 3 CSRC (R338, R430). -/
def csrWord (op : Nat) (d a : BitVec 5) (c : BitVec 12) (s : State) : Host.Outcome State Fault Refusal :=
  yWord [d, a] s fun sl =>
    let k := s.sel.slot
    let n := c.toNat
    if !csrListed n then stop { code := 0x11, reason := 0x26 } s
    else if n = 0x030 ∧ sl.shapePending then ok s
    else
      let old := csrRead sl k n
      match csrNew op a old (sl.rx a) with
      | none => yDone d old s
      | some v =>
        if 0x100 ≤ n ∧ n < 0x140 ∧ cocfgBad sl s.myGraph.nctr v then stop { code := 0x11, reason := 0x27 } s
        else if s.csrReady k n then yDone d old (s.modSlot k fun sl => csrWrite sl n v)
        else ok (s.modSlot k fun sl => { sl with csrWait := some (n, v, d) })

/-- CSRR (R338). -/
def execCsrr (d : BitVec 5) (c : BitVec 12) (s : State) : Host.Outcome State Fault Refusal := csrWord 0 d 0 c s
/-- CSRW (R338). -/
def execCsrw (d a : BitVec 5) (c : BitVec 12) (s : State) : Host.Outcome State Fault Refusal := csrWord 1 d a c s
/-- CSRS (R338). -/
def execCsrs (d a : BitVec 5) (c : BitVec 12) (s : State) : Host.Outcome State Fault Refusal := csrWord 2 d a c s
/-- CSRC (R338). -/
def execCsrc (d a : BitVec 5) (c : BitVec 12) (s : State) : Host.Outcome State Fault Refusal := csrWord 3 d a c s

/-- A CSR write that held its rendezvous is done (R190, R239), unless a pending cause is to be delivered there first (R404). -/
def csrFinish (k n : Nat) (v : Word) (d : BitVec 5) (s : State) : Host.Outcome State Fault Refusal :=
  if s.csrReady k n && (s.slot k).st != 5 && !s.trapDue k then
    let old := csrRead (s.slot k) k n
    ok ((adv k .esq (adv k .asq (s.modSlot k fun sl => { csrWrite sl n v with csrWait := none }))).modSlot k fun sl => sl.wx d old)
  else ok s

/-- The management core writes SLIPW or a COCFG of a slot (R38, R237, R437): a COCFG once no operation in flight names the object
(R239), and nothing that R237 does not allow. -/
def mgmtCsrWrite (k n : Nat) (v : Word) (s : State) : State :=
  let g := (s.graph? (s.inst ((s.slot k).task.getD 0)).graph).getD {}
  if 64 ≤ k ∨ s.pkg.stopped then s
  else if n = 0x010 ∨ (0x100 ≤ n ∧ n < 0x140 ∧ !cocfgBad (s.slot k) g.nctr v ∧ s.csrReady k n) then
    s.modSlot k fun sl => csrWrite sl n v
  else s

/-- COCFG_WRITE (R239). -/
def execCocfgWrite (k : Nat) (s : State) : Host.Outcome State Fault Refusal :=
  match (s.slot k).csrWait with
  | some (n, v, d) => if 0x100 ≤ n then csrFinish k n v d s else ok s
  | none => ok s

/-- SHAPE_CSR_WRITE (R190). -/
def execShapeCsrWrite (k : Nat) (s : State) : Host.Outcome State Fault Refusal :=
  match (s.slot k).csrWait with
  | some (n, v, d) => if n = 0x030 then csrFinish k n v d s else ok s
  | none => ok s

/-! ### User-level traps -/

/-- A synchronous delegable cause (R340, R403): its handler is entered, or the slot stops with cause 0x1A in state
Handler and with cause 0x18 without a handler. -/
def delegate (cause code : Nat) (tval : Word) (s : State) : Host.Outcome State Fault Refusal :=
  let k := s.sel.slot
  let sl := s.mySlot
  if sl.handler then stop { code := 0x1A, reason := cause, extra := code, val := tval.toNat } s
  else if sl.utvec = 0 then
    stop { code := 0x18, val := tval.toNat, info := some (cause + 2 ^ 8 * code + 2 ^ 32 * s.sel.word.toNat) } s
  else ok (userTrap k sl.esq.pc (cause + 2 ^ 8 * code) tval (progress k s))

/-- TRAP (R342). -/
def execTrap (c : BitVec 13) (s : State) : Host.Outcome State Fault Refusal := delegate 0x02 c.toNat 0 s

/-- UTRET (R341, R430). -/
def execUtret (t : BitVec 1) (s : State) : Host.Outcome State Fault Refusal :=
  let k := s.sel.slot
  if !s.mySlot.handler then stop { code := 0x11, reason := 0x28 } s
  else ok (userReturn k (t == 1) (esqTicks k 1 (progress k s)))

/-- USER_TRAP_DELIVER (R404): the oldest pending cause is delivered where both sequencers stand at one Y word or
shared wait word, if the slot is not in state Handler. -/
def execUserTrapDeliver (k : Nat) (s : State) : Host.Outcome State Fault Refusal :=
  let sl := s.slot k
  match sl.upend with
  | [] => ok s
  | u :: us =>
    if sl.handler || !sl.rendezvous || !(sl.st == 1 || sl.st == 2) then ok s
    else match fetchWord k .esq s with
      | .inl o => o
      | .inr (w, s) =>
        if wordTag w ≠ 6 ∧ !sharedWait w then ok s
        else
          let s := dropFailed k (s.modSlot k fun sl => { sl with upend := us })
          if sl.utvec = 0 then
            ok (asyncRecord { u.org with slot := k, task := sl.task.getD 0 } 0x18 10 0 u.tval.toNat (u.cause.toNat % 256 + u.info)
              false .none s)
          else ok (userTrap k sl.esq.pc u.cause.toNat u.tval (progress k s))

/-! ### Futures -/

/-- FGET (R343, R402). -/
def execFget (d a : BitVec 5) (s : State) : Host.Outcome State Fault Refusal :=
  yWord [d, a] s fun sl =>
    let k := s.sel.slot
    let ea := (sl.rx a).toNat
    withGlobal ea 16 16 .read s fun parts _ _ s => checkedRead parts s fun s =>
      let ls := partLines parts
      if !s.mayRead k parts 16 || s.owes (coreOf k) then ok s
      else if !s.canAccess (coreOf k) ls then ok (sendData ls s)
      else
        let bs := s.accBytes k ea 16 parts
        let s := coReads (coreOf k) ls s
        if bit (leNat (bs.take 8)) 0 then yDone d (BitVec.ofNat 64 (leNat (bs.drop 8))) s
        else delegate 0x01 0 (BitVec.ofNat 64 ea) s

/-- FPUT (R344): the value word, then the state word, as a release at SYSTEM scope. -/
def execFput (a b : BitVec 5) (s : State) : Host.Outcome State Fault Refusal :=
  yWord [a, b] s fun sl =>
    let k := s.sel.slot
    let ea := (sl.rx a).toNat
    withGlobal ea 16 16 .write s fun parts _ _ s =>
      match parts with
      | [] => ok s
      | x :: _ =>
        let t := s.myTask
        let ls := linesOf x.1 16
        if !s.released k then ok s
        else if s.putWaits t ls then ok (sendBisnp (s.taskLines t ls) s)
        else if !s.canWrite (coreOf k) ls then ok (sendBisnp ls s)
        else doneY (storeNow k x (leBytes 1 8) (storeNow k (x.1 + 8, 8, x.2.2) (leBytes (sl.rx b).toNat 8) s))

/-! ### Priority, spawning, yielding -/

/-- PRIO (R345). -/
def execPrio (a : BitVec 5) (g : BitVec 1) (n : BitVec 2) (s : State) : Host.Outcome State Fault Refusal :=
  yWord (if g = 1 then [a] else []) s fun sl =>
    let v := if g = 1 then (sl.rx a).toNat % 4 else n.toNat
    let c := min v (tCmax s.myType)
    doneY (s.modSlot s.sel.slot fun sl => { sl with cls := BitVec.ofNat 2 c })

/-- TSPAWN (R346, R430): a fork to the task graph unit, a unit of the die. -/
def execTspawn (a : BitVec 5) (s : State) : Host.Outcome State Fault Refusal :=
  yWord [a] s fun sl =>
    let k := s.sel.slot
    let ea := (sl.rx a).toNat
    withGlobal ea 32 32 .read s fun parts _ _ s => checkedRead parts s fun s =>
      let ls := partLines parts
      if !s.mayRead k parts 32 || !s.forkReady k 3 (fun _ => true) then ok s
      else if !s.canAccess (coreOf k) ls then ok (sendData ls s)
      else
        let r := leNat (s.accBytes k ea 32 parts)
        let s := coReads (coreOf k) ls s
        let gr := s.myGraph
        let i := s.myInst
        let ty := fieldOf r 0 1
        let sctr := fieldOf r 10 2
        if !((List.range gr.nnode).any fun n => nType (s.node gr n) == ty) ∨ (sctr ≠ 0 ∧ gr.nctr ≤ sctr - 1) then
          stop { code := 0x17, reason := 0x41 } s
        else if 2048 ≤ s.poolCount then ok s
        else doneY (addInst { type := ty, graph := i.graph, bank := i.bank, replay := i.replay, stage := fieldOf r 2 1 % 16,
                              cut := fieldOf r 3 1, x := fieldOf r 4 2, y := fieldOf r 6 2, z := fieldOf r 8 2,
                              sctr := sctr, guarded := tGuarded (s.typeEnt ty) } s)

/-- YIELD (R347): where a waiting task needs what this one holds, it is checkpointed and resumes at the next word. -/
def execYield (s : State) : Host.Outcome State Fault Refusal :=
  let t := s.myTask
  let s' := adv s.sel.slot .esq (adv s.sel.slot .asq s)
  if s.wanted t s.mySlot.eclass && s'.canSave t then ok (beginSave t s') else ok s'

/-! ### Cuts -/

/-- Held writes into the window of a guarded producer take their place (R132). -/
def releaseWindow (t : Nat) (s : State) : State :=
  let i := s.inst t
  let inside := fun (e : HeldEnt) => inPieces (i.window.getD []) e.w.span.1
  (i.ents.filter inside).foldl (fun s e => commitOne t e.w s) (s.setInst t { i with ents := i.ents.filter fun e => !inside e })

/-- The write set of a task holds a write into these pieces. -/
def State.windowHeld (s : State) (t : Nat) (w : List (Nat × Nat)) : Bool :=
  (s.inst t).held.any fun h => inPieces w h.span.1

/-- CUTPOST (R330, R334, R348, R430). -/
def execCutpost (a b : BitVec 5) (s : State) : Host.Outcome State Fault Refusal := putOff s <|
  yWord [a, b] s fun sl =>
    let k := s.sel.slot
    let t := s.myTask
    let i := s.myInst
    let v := (sl.rx a).toNat
    let c := v % 256
    let fin := bit v 8
    if tTlen s.myType = 0 then stop { code := 0x17, reason := 0x42 } s
    else if i.frozen then doneY s
    else if c = 0 ∨ c ≤ i.pub ∨ i.fin then stop { code := 0x17, reason := 0x42 } s
    else if !s.released k || !s.tguMay 1 then ok s
    else match (if i.window.isSome then (.inr (i.window.getD []), s) else windowOf t s : Sum Cause (List (Nat × Nat)) × State) with
      | (.inl q, s) => stop q s
      | (.inr w, s) =>
        if i.window.isNone && s.windowHeld t w && s.commitWaits t then ok (sendBisnp (heldLines (s.inst t).held) s)
        else
        let s := if i.window.isSome then s else releaseWindow t (s.setInst t { s.inst t with window := some w })
        let s := publishCut t c (if fin then 0 else (sl.rx b).extractLsb' 0 32) fin (tguDid 1 s)
        match doneY s with
        | .next s => ok (aftermath s)
        | o => o

/-- The CUT edge of the issuer's node with an input index (R349, R350). -/
def State.cutIn (s : State) (i : Inst) (x : Nat) : Option Nat :=
  match s.graph? i.graph, i.node with
  | some gr, some node => (s.cutEdges gr node).find? fun e => eIn e == x
  | _, _ => none

/-- CUTSTOP (R349, R430). -/
def execCutstop (a : BitVec 5) (s : State) : Host.Outcome State Fault Refusal :=
  yWord [a] s fun sl =>
    match s.cutIn s.myInst ((sl.rx a).toNat % 8) with
    | none => stop { code := 0x17, reason := 0x43 } s
    | some e => if !s.tguMay 2 then ok s else match doneY s with
      | .next s => ok (vote (s.mySlot.task.getD 0) e s)
      | o => o

/-- CUTGET (R350, R430). -/
def execCutget (d a : BitVec 5) (s : State) : Host.Outcome State Fault Refusal :=
  yWord [d, a] s fun sl =>
    let i := s.myInst
    let v := (sl.rx a).toNat % 256
    let b := fun (x : Bool) (n : Nat) => if x then 2 ^ n else 0
    if v = 0xFF then yDone d (BitVec.ofNat 64 (b i.frozen 0 + min i.pub 255 * 2 ^ 8)) s
    else if 8 ≤ v then stop { code := 0x17, reason := 0x43 } s
    else match s.cutIn i v with
      | none => stop { code := 0x17, reason := 0x43 } s
      | some e =>
        let p := ((s.producerOf i.graph i.replay e i.x i.y i.z).map (·.2)).getD {}
        yDone d (BitVec.ofNat 64 (min p.pub 255 + b p.fin 8 + b p.frozen 9 + b (i.votes.contains v) 10
          + p.bound.toNat * 2 ^ 32)) s

/-- PARAMPUBLISH (R351, R430). -/
def execParampublish (a : BitVec 5) (s : State) : Host.Outcome State Fault Refusal :=
  yWord [a] s fun sl =>
    let g := (sl.rx a).toNat % 64
    if g ≠ s.myInst.graph then stop { code := 0x17, reason := 0x44 } s
    else if !s.tguMay 3 then ok s
    else doneY (setGraph g { s.myGraph with pubreq := true } (tguDid 3 s))

/-! ### The management core's words (R352, R353, R431) -/

/-- An invalidation of mode m covers a cached translation (R352). -/
def tinvCovers (m va space : Nat) (t : TlbEnt) : Bool :=
  match m with
  | 0 => t.covers space va
  | 1 => t.space == space
  | _ => true

/-- An invalidation begins: the translations are removed from every tier, and waits on words find them anew (R352). -/
def startTinv (m va space : Nat) (s : State) : State :=
  let s := { s with tlbs := (s.tlbs.map fun p => (p.1, p.2.filter fun t => !tinvCovers m va space t)).filter (fun p => decide (p.2 ≠ [])),
                    tinv := some (BitVec.ofNat 2 m, va, space) }
  (List.range 64).foldl (fun s k => s.modSlot k fun sl =>
    if sl.st = 1 ∨ sl.st = 2 ∨ sl.st = 3 then (sl.rewait .asq).rewait .esq else sl) s

/-- A word that only the management core executes meets a slot (R430). -/
def privileged (s : State) (f : Mgmt → Host.Outcome State Fault Refusal) : Host.Outcome State Fault Refusal :=
  if s.isMgmt then f s.mgmt else stop { code := 0x12, reason := 0x07 } s

/-- SRET (R353). -/
def execSret (s : State) : Host.Outcome State Fault Refusal :=
  privileged s fun m => ok { s with mgmt := { m with pc := m.epc, priv := m.epriv } }

/-- HALT (R353). -/
def execHalt (s : State) : Host.Outcome State Fault Refusal :=
  privileged s fun m => ok { s with mgmt := { m.step with halted := true } }

/-- TINV (R352, R431): mode 0b11 is ignored; the core goes on when the invalidation completes. -/
def execTinv (a b : BitVec 5) (md : BitVec 2) (s : State) : Host.Outcome State Fault Refusal :=
  privileged s fun m =>
    let s := { s with mgmt := m.step }
    if md = 3 then ok s else ok (startTinv md.toNat (m.rx a).toNat ((m.rx b).toNat % 4096) s)

/-- NOT_AN_INSTRUCTION (R422, R431, R435, R436): cause 0x10 at the party that takes the word. A gleaner context and an
NBU thread meet it in their own families. -/
def takerTrap (r : Nat) (s : State) : Host.Outcome State Fault Refusal :=
  if s.isMgmt then ok (mgmtTrap 0x10 s) else stop { code := 0x10, reason := r } s

end Sys2Proof.Machine
end

