-- ==== Sys2Proof/Machine/Transc.lean ====
section
/-! DEFINITION. The transcendental functions (R83 to R85): tables of coefficients RNI(2^32 × c), worked out from the
exact real values, and their evaluation in integer arithmetic. -/

namespace Sys2Proof.Machine

def exp2Tab0 : List (Int × Int × Int) := [
  (4318288544, 2993209529, 1037367373), (4365311623, 3025803444, 1048663563),
  (4412846750, 3058752283, 1060082760), (4460899500, 3092059911, 1071626305),
  (4509475511, 3125730236, 1083295550), (4558580480, 3159767207, 1095091865),
  (4608220167, 3194174816, 1107016634), (4658400394, 3228957099, 1119071255),
  (4709127049, 3264118137, 1131257142), (4760406080, 3299662053, 1143575724),
  (4812243504, 3335593017, 1156028448), (4864645400, 3371915243, 1168616772),
  (4917617915, 3408632993, 1181342174), (4971167263, 3445750573, 1194206147),
  (5025299726, 3483272336, 1207210200), (5080021652, 3521202685, 1220355857)]
def exp2Tab1 : List (Int × Int × Int) := [
  (5135339461, 3559546068, 1233644661), (5191259641, 3598306984, 1247078170),
  (5247788752, 3637489978, 1260657961), (5304933425, 3677099647, 1274385626),
  (5362700363, 3717140637, 1288262776), (5421096341, 3757617644, 1302291038),
  (5480128210, 3798535418, 1316472058), (5539802893, 3839898756, 1330807498),
  (5600127392, 3881712512, 1345299042), (5661108781, 3923981590, 1359948388),
  (5722754214, 3966710948, 1374757255), (5785070921, 4009905599, 1389727380),
  (5848066214, 4053570608, 1404860519), (5911747479, 4097711098, 1420158447),
  (5976122189, 4142332246, 1435622959), (6041197893, 4187439287, 1451255868)]
def exp2Tab2 : List (Int × Int × Int) := [
  (6106982225, 4233037511, 1467059008), (6173482901, 4279132267, 1483034233),
  (6240707722, 4325728962, 1499183417), (6308664574, 4372833062, 1515508454),
  (6377361427, 4420450093, 1532011259), (6446806340, 4468585638, 1548693768),
  (6517007458, 4517245345, 1565557938), (6587973017, 4566434922, 1582605746),
  (6659711339, 4616160138, 1599839192), (6732230841, 4666426826, 1617260299),
  (6805540029, 4717240883, 1634871109), (6879647501, 4768608268, 1652673688),
  (6954561950, 4820535008, 1670670125), (7030292165, 4873027192, 1688862530),
  (7106847027, 4926090979, 1707253037), (7184235517, 4979732593, 1725843803)]
def exp2Tab3 : List (Int × Int × Int) := [
  (7262466713, 5033958326, 1744637010), (7341549790, 5088774538, 1763634862),
  (7421494026, 5144187660, 1782839586), (7502308797, 5200204191, 1802253437),
  (7584003584, 5256830702, 1821878690), (7666587968, 5314073835, 1841717648),
  (7750071638, 5371940305, 1861772638), (7834464385, 5430436900, 1882046013),
  (7919776109, 5489570480, 1902540150), (8006016816, 5549347984, 1923257454),
  (8093196623, 5609776421, 1944200355), (8181325756, 5670862881, 1965371309),
  (8270414553, 5732614529, 1986772799), (8360473463, 5795038609, 2008407336),
  (8451513050, 5858142442, 2030277458), (8543543993, 5921933431, 2052385730)]
/-- Coefficients of 2^u (R83, R84). -/
def exp2Tab : List (Int × Int × Int) := exp2Tab0 ++ exp2Tab1 ++ exp2Tab2 ++ exp2Tab3

def log2Tab0 : List (Int × Int × Int) := [
  (48220695, 6148294468, -3050316635), (143550699, 6054427377, -2957888184),
  (237436253, 5963383356, -2869598006), (329920477, 5875036936, -2785202696),
  (421044590, 5789269974, -2704476484), (510848017, 5705971125, -2627209727),
  (599368495, 5625035365, -2553207541), (686642163, 5546363541, -2482288578),
  (772703658, 5469861975, -2414283906), (857586191, 5395442084, -2349036010),
  (941321628, 5323020043, -2286397871), (1023940559, 5252516466, -2226232145),
  (1105472367, 5183856120, -2168410403), (1185945290, 5116967654, -2112812451),
  (1265386481, 5051783353, -2059325698), (1343822060, 4988238908, -2007844592)]
def log2Tab1 : List (Int × Int × Int) := [
  (1421277169, 4926273207, -1958270095), (1497776018, 4865828137, -1910509207),
  (1573341930, 4806848402, -1864474532), (1647997388, 4749281356, -1820083873),
  (1721764068, 4693076843, -1777259869), (1794662886, 4638187055, -1735929658),
  (1866714024, 4584566395, -1696024562), (1937936969, 4532171351, -1657479808),
  (2008350545, 4480960375, -1620234260), (2077972941, 4430893779, -1584230178),
  (2146821738, 4381933626, -1549412995), (2214913940, 4334043642, -1515731110),
  (2282265995, 4287189116, -1483135694), (2348893820, 4241336826, -1451580518),
  (2414812824, 4196454954, -1421021784), (2480037932, 4152513018, -1391417975)]
def log2Tab2 : List (Int × Int × Int) := [
  (2544583599, 4109481795, -1362729714), (2608463835, 4067333264, -1334919635),
  (2671692221, 4026040540, -1307952257), (2734281925, 3985577821, -1281793872),
  (2796245722, 3945920330, -1256412443), (2857596005, 3907044268, -1231777503),
  (2918344806, 3868926763, -1207860063), (2978503803, 3831545828, -1184632527),
  (3038084339, 3794880318, -1162068614), (3097097433, 3758909888, -1140143284),
  (3155553791, 3723614960, -1118832664), (3213463820, 3688976681, -1098113989),
  (3270837638, 3654976896, -1077965536), (3327685082, 3621598111, -1058366571),
  (3384015725, 3588823468, -1039297294), (3439838878, 3556636710, -1020738787)]
def log2Tab3 : List (Int × Int × Int) := [
  (3495163602, 3525022162, -1002672970), (3549998721, 3493964698, -985082558),
  (3604352825, 3463449722, -967951014), (3658234277, 3433463145, -951262516),
  (3711651229, 3403991358, -935001918), (3764611620, 3375021219, -919154715),
  (3817123189, 3346540027, -903707012), (3869193478, 3318535508, -888645492),
  (3920829844, 3290995794, -873957389), (3972039458, 3263909409, -859630462),
  (4022829316, 3237265251, -845652963), (4073206244, 3211052577, -832013623),
  (4123176902, 3185260990, -818701620), (4172747791, 3159880424, -805706562),
  (4221925255, 3134901132, -793018468), (4270715492, 3110313672, -780627745)]
/-- Coefficients of log2(1 + u) (R83, R84). -/
def log2Tab : List (Int × Int × Int) := log2Tab0 ++ log2Tab1 ++ log2Tab2 ++ log2Tab3

def rcpTab0 : List (Int × Int × Int) := [
  (4261672976, -4228636751, 4195856621), (4196609266, -4100503711, 4006599045),
  (4133502360, -3978107534, 3828554620), (4072265288, -3861110792, 3660905047),
  (4012816160, -3749200500, 3502902657), (3955077798, -3642086030, 3353863394),
  (3898977403, -3539497217, 3213160594), (3844446251, -3441182658, 3080219442),
  (3791419406, -3346908165, 2954512036), (3739835469, -3256455374, 2835552979),
  (3689636335, -3169620476, 2722895442), (3640766979, -3086213069, 2616127634),
  (3593175254, -3006055115, 2514869638), (3546811703, -2928979987, 2418770570),
  (3501629388, -2854831603, 2327506020), (3457583735, -2783463636, 2240775757)]
def rcpTab1 : List (Int × Int × Int) := [
  (3414632384, -2714738790, 2158301647), (3372735055, -2648528141, 2079825779),
  (3331853418, -2584710530, 2005108775), (3291950981, -2523172010, 1933928247),
  (3252992982, -2463805335, 1866077414), (3214946280, -2406509496, 1801363833),
  (3177779271, -2351189287, 1739608259), (3141461794, -2297754912, 1680643593),
  (3105965050, -2246121618, 1624313939), (3071261530, -2196209362, 1570473734),
  (3037324939, -2147942498, 1518986960), (3004130131, -2101249490, 1469726419),
  (2971653048, -2056062649, 1422573076), (2939870663, -2012317887, 1377415452),
  (2908760920, -1969954486, 1334149070), (2878302691, -1928914892, 1292675949)]
def rcpTab2 : List (Int × Int × Int) := [
  (2848475720, -1889144519, 1252904137), (2819260584, -1850591563, 1214747282),
  (2790638649, -1813206838, 1178124240), (2762592030, -1776943617, 1142958708),
  (2735103552, -1741757486, 1109178896), (2708156719, -1707606207, 1076717214),
  (2681735678, -1674449594, 1045509990), (2655825188, -1642249392, 1015497208),
  (2630410593, -1610969167, 986622265), (2605477791, -1580574205, 958831745),
  (2581013211, -1551031413, 932075215), (2557003786, -1522309230, 906305030),
  (2533436930, -1494377544, 881476155), (2510300520, -1467207610, 857546000),
  (2487582868, -1440771978, 834474268), (2465272708, -1415044424, 812222809)]
def rcpTab3 : List (Int × Int × Int) := [
  (2443359173, -1389999885, 790755490), (2421831779, -1365614395, 770038073),
  (2400680410, -1341865033, 750038097), (2379895298, -1318729862, 730724772),
  (2359467012, -1296187887, 712068882), (2339386442, -1274218998, 694042688),
  (2319644784, -1252803934, 676619846), (2300233531, -1231924234, 659775322),
  (2281144456, -1211562201, 643485318), (2262369604, -1191700862, 627727203),
  (2243901281, -1172323935, 612479443), (2225732040, -1153415794, 597721545),
  (2207854674, -1134961439, 583433993), (2190262207, -1116946464, 569598197),
  (2172947881, -1099357031, 556196442), (2155905153, -1082179841, 543211842)]
/-- Coefficients of 1 / (1 + u) (R83, R84). -/
def rcpTab : List (Int × Int × Int) := rcpTab0 ++ rcpTab1 ++ rcpTab2 ++ rcpTab3

def rsqTab0 : List (Int × Int × Int) := [
  (4261801029, -2098117430, 1549379025), (4197710145, -2004876487, 1436329424),
  (4136426415, -1918342685, 1334499259), (4077750728, -1837859483, 1242496552),
  (4021503196, -1762850716, 1159134717), (3967520839, -1692808891, 1083397690),
  (3915655591, -1627285441, 1014411703), (3865772592, -1565882569, 951422320),
  (3817748708, -1508246403, 893775646), (3771471255, -1454061207, 840902867),
  (3726836887, -1403044475, 792307468), (3683750620, -1354942757, 747554624),
  (3642124983, -1309528084, 706262337), (3601879272, -1266594909, 668094018),
  (3562938893, -1225957469, 632752242), (3525234775, -1187447503, 599973475)]
def rsqTab1 : List (Int × Int × Int) := [
  (3488702859, -1150912283, 569523604), (3453283638, -1116212893, 541194130),
  (3418921752, -1083222733, 514798923), (3385565620, -1051826212, 490171439),
  (3353167118, -1021917598, 467162330), (3321681283, -993400010, 445637388),
  (3291066056, -966184530, 425475756), (3261282040, -940189417, 406568397),
  (3232292291, -915339410, 388816741), (3204062124, -891565113, 372131525),
  (3176558936, -868802444, 356431772), (3149752052, -846992148, 341643892),
  (3123612579, -826079360, 327700903), (3098113274, -806013210, 314541740),
  (3073228427, -786746477, 302110647), (3048933750, -768235276, 290356640)]
def rsqTab2 : List (Int × Int × Int) := [
  (3013548408, -1483593062, 1095576415), (2968229309, -1417661759, 1015638275),
  (2924895168, -1356473121, 943633476), (2883405191, -1299562903, 878577737),
  (2843632180, -1246523696, 819632019), (2805460890, -1196996646, 766077854),
  (2768786621, -1150664570, 717297394), (2733514014, -1107246183, 672757174),
  (2699556000, -1066491259, 631994820), (2666832900, -1028176540, 594608119),
  (2635271635, -992102263, 560245984), (2604805043, -958089211, 528600944),
  (2575371273, -925976188, 499402888), (2546913259, -895617849, 472413811),
  (2519378252, -866882839, 447423401), (2492717415, -839652182, 424245313)]
def rsqTab3 : List (Int × Int × Int) := [
  (2466885449, -813817880, 402714003), (2441840278, -789281706, 382682039),
  (2417542755, -765954140, 364017809), (2393956408, -743753447, 346603548),
  (2371047208, -722604863, 330333652), (2348783360, -702439884, 315113219),
  (2327135126, -683195633, 300856793), (2306074646, -664814312, 287487270),
  (2285575798, -647242704, 274934954), (2265614055, -630431737, 263136725),
  (2246166364, -614336100, 252035323), (2227211035, -598913892, 241578713),
  (2208727636, -584126317, 231719531), (2190696905, -569937406, 222414598),
  (2173100661, -556313769, 213624487), (2155921730, -543224373, 205313149)]
/-- Coefficients of (1 + u)^(-1/2), with the factor 2^(-1/2) from entry 32 on (R83, R84). -/
def rsqTab : List (Int × Int × Int) := rsqTab0 ++ rsqTab1 ++ rsqTab2 ++ rsqTab3

/-- POLY (R83): floors of exact quotients. -/
def poly (tab : List (Int × Int × Int)) (j : Nat) (d : Int) : Int :=
  let c := tab.getD j (0, 0, 0)
  c.1 + c.2.1 * d / 2 ^ 32 + c.2.2 * d / 2 ^ 32 * d / 2 ^ 32

/-- Index and offset from the midpoint of T, intervals of width 2^w (R84). -/
def polyAt (w : Nat) (t : Nat) : Nat × Int := (t / 2 ^ w, (t : Int) - (2 * (t / 2 ^ w) + 1 : Nat) * 2 ^ (w - 1))

def fvOfInt (i : Int) (e : Int) : FV := .fin (decide (i < 0)) i.natAbs e

/-- EXP2 (R84, R85), before the final rounding. -/
def fvExp2 : FV → FV
  | .nan => .nan
  | .inf n => if n then .fin false 0 0 else .inf false
  | .fin n m e =>
    -- x = ±m × 2^e; from 2^20 on every result is beyond every format, as it is at 2^20
    if m ≠ 0 ∧ 20 ≤ (Nat.log2 m : Int) + e then (if n then .fin false 1 (-1048576) else .fin false 1 1048576)
    else if 0 ≤ e ∨ m % 2 ^ (-e).toNat = 0 then
      let i : Int := if 0 ≤ e then (m * 2 ^ e.toNat : Nat) else (m / 2 ^ (-e).toNat : Nat)
      .fin false 1 (if n then -i else i)
    else
      let den : Nat := 2 ^ (-e).toNat
      let x : Int := if n then -(m : Int) else m
      let k := x / den
      let t := ((x - k * den) * 2 ^ 32 / den).toNat
      let (j, d) := polyAt 26 t
      fvOfInt (poly exp2Tab j d) (k - 32)

/-- Significand fraction T = (M - 1) × 2^32 and exponent of a positive value m × 2^e of at most 32 fraction bits. -/
def sigT (m : Nat) (e : Int) : Nat × Int :=
  let l := Nat.log2 m
  (m * 2 ^ 32 / 2 ^ l - 2 ^ 32, (l : Int) + e)

/-- LOG2 (R84, R85). -/
def fvLog2 : FV → FV
  | .nan => .nan
  | .inf n => if n then .nan else .inf false
  | .fin n m e =>
    if m = 0 then .inf true
    else if n then .nan
    else
      let (t, x) := sigT m e
      if t = 0 then .ofInt x
      else
        let (j, d) := polyAt 26 t
        fvOfInt (x * 2 ^ 32 + poly log2Tab j d) (-32)

/-- RCP (R84, R85). -/
def fvRcp : FV → FV
  | .nan => .nan
  | .inf n => .fin n 0 0
  | .fin n m e =>
    if m = 0 then .inf n
    else
      let (t, x) := sigT m e
      if t = 0 then .fin n 1 (-x)
      else
        let (j, d) := polyAt 26 t
        .fin n (poly rcpTab j d).natAbs (-x - 32)

/-- RSQRT (R84, R85). -/
def fvRsqrt : FV → FV
  | .nan => .nan
  | .inf n => if n then .nan else .fin false 0 0
  | .fin n m e =>
    if m = 0 then .inf n
    else if n then .nan
    else
      let (t, x) := sigT m e
      let g := x - x % 2
      if t = 0 ∧ g = x then .fin false 1 (-(x / 2))
      else
        let (i, d) := polyAt 27 t
        fvOfInt (poly rsqTab (if g = x then i else 32 + i) d) (-(g / 2) - 32)

end Sys2Proof.Machine
end

