-- ==== Sys2Proof/Machine/Vector.lean ====
section
/-! DEFINITION. The vector words (R188 to R206, R209, R210), all but VACCR and VACCW: how a V word is taken, queued
or issued, and what each writes.
Readings and choices of the model: DEDUCED log entries 12, 13, 19, 20. -/

namespace Sys2Proof.Machine

/-! ### Types and modes (R188 to R191) -/

/-- Type, rounding mode, saturation, flushing (R66) and MX format in force for a V word. -/
structure VCtx where
  t : Nat := 8
  rm : Nat := 0
  sat : Bool := false
  flush : Bool := false
  mxf : Nat := 0
deriving DecidableEq, Repr, Inhabited

/-- The vector types (R188). -/
def vecType (t : Nat) : Bool := [0, 1, 2, 4, 5, 6, 8, 9, 0xA].contains t
/-- The type that a variant names (R191). -/
def varType (v : BitVec 4) : Option Nat :=
  match v.toNat with
  | 1 => some 8 | 2 => some 9 | 3 => some 0xA
  | 4 => some 0 | 5 => some 1 | 6 => some 2
  | 7 => some 4 | 8 => some 5 | 9 => some 6
  | _ => none

/-- What a variant and SHAPE give (R189, R191). -/
def vCtx (shape : Word) (exposed : Bool) (v : BitVec 4) : VCtx :=
  let sh := shape.toNat
  { t := (varType v).getD (sh % 16), rm := if 0xB ≤ v.toNat then v.toNat - 0xB else bits sh 7 6,
    sat := v == 0xA || bit sh 9, flush := exposed, mxf := bits sh 11 10 }

def VCtx.w (c : VCtx) : Nat := typeBits c.t
def VCtx.n (c : VCtx) : Nat := 2048 / typeBits c.t
/-- Float format of a type code. -/
def fmtOf (t : Nat) : Fmt := if t = 9 then fp16 else if t = 0xA then bf16 else fp32
/-- Type code of an MX format field. -/
def mxType (m : Nat) : Nat := 0xB + m

/-! ### Lanes -/

/-- Lane i of width w. -/
def lane (w : Nat) (v : Vec) (i : Nat) : Nat := v.toNat / 2 ^ (w * i) % 2 ^ w
/-- Lanes packed, lane 0 lowest. -/
def packLanes (w : Nat) : List Nat → Nat
  | [] => 0
  | x :: xs => x % 2 ^ w + 2 ^ w * packLanes w xs
def toVec (w : Nat) (ls : List Nat) : Vec := BitVec.ofNat 2048 (packLanes w ls)

/-- The top mask (R193), and the mask below it (R194). -/
def Slot.topMask (sl : Slot) : BitVec 256 := (sl.masks.headD (BitVec.allOnes 256, 8)).1
def Slot.parentMask (sl : Slot) : BitVec 256 := ((sl.masks.drop 1).headD (BitVec.allOnes 256, 8)).1
/-- Depth of the stack as the word finds it (R195). -/
def Slot.maskDepth (sl : Slot) : Nat := sl.masks.length
/-- Masks that comparisons in flight will push. -/
def Slot.maskPushes (sl : Slot) : Nat := (sl.results.filter fun r => match r.masks with
  | some (.push _ _) => true
  | _ => false).length

/-- A result that writes lanes 0 to n - 1 of vd, those that act says. -/
def vWrite (w n : Nat) (vd : BitVec 5) (act : Nat → Bool) (f : Nat → Nat) : Res :=
  let ix := List.range n
  { v := some (vd.toNat, toVec w (ix.map fun i => if act i then f i else 0),
      toVec w (ix.map fun i => if act i then 2 ^ w - 1 else 0)) }
/-- A Merge word (R193, R196). -/
def vMerge (c : VCtx) (sl : Slot) (vd : BitVec 5) (f : Nat → Nat) : Res :=
  vWrite c.w c.n vd (fun i => sl.topMask.getLsbD i) f
/-- A result that writes all of vd. -/
def vWhole (w : Nat) (vd : BitVec 5) (ls : List Nat) : Res :=
  { v := some (vd.toNat, toVec w ls, BitVec.allOnes 2048) }

/-! ### Lane arithmetic -/

/-- A lane as an integer (R68), and an exact integer placed in a lane (R198). -/
def intLane (t x : Nat) : Int := if isSigned t then sext (typeBits t) x else (x : Int)
def wrapLane (t : Nat) (e : Int) : Nat := (e % (2 : Int) ^ typeBits t).toNat
def placeInt (c : VCtx) (e : Int) : Nat := wrapLane c.t (if c.sat then satInt (isSigned c.t) (typeBits c.t) e else e)
/-- A lane as a float value with the flush of R66, and a value rounded into a lane (R196). -/
def fpLane (c : VCtx) (x : Nat) : FV := (fmtOf c.t).value c.flush x
def placeFp (c : VCtx) (v : FV) : Nat := (fmtOf c.t).round c.rm c.flush v

/-- A lane-wise operation given for floats and for integers. -/
def lane2 (c : VCtx) (f : FV → FV → FV) (g : Int → Int → Int) (a b : Nat) : Nat :=
  if isFloat c.t then placeFp c (f (fpLane c a) (fpLane c b)) else placeInt c (g (intLane c.t a) (intLane c.t b))
def lane3 (c : VCtx) (f : FV → FV → FV → FV) (g : Int → Int → Int → Int) (a b d : Nat) : Nat :=
  if isFloat c.t then placeFp c (f (fpLane c a) (fpLane c b) (fpLane c d))
  else placeInt c (g (intLane c.t a) (intLane c.t b) (intLane c.t d))
/-- Integer quotient by R69, never saturated (R198). -/
def divLane (t a b : Nat) : Nat :=
  let x := intLane t a
  let y := intLane t b
  if y = 0 then wrapLane t (-1) else wrapLane t (x.tdiv y)

/-- The six comparisons of VCMP (R194). -/
def cmpLane (c : VCtx) (op a b : Nat) : Bool :=
  if isFloat c.t then
    let x := fpLane c a
    let y := fpLane c b
    match op with
    | 0 => x.eq y
    | 1 => !x.eq y
    | 2 => x.lt y
    | 3 => x.lt y || x.eq y
    | 4 => y.lt x
    | _ => y.lt x || x.eq y
  else
    let x := intLane c.t a
    let y := intLane c.t b
    match op with
    | 0 => x == y
    | 1 => x != y
    | 2 => decide (x < y)
    | 3 => decide (x ≤ y)
    | 4 => decide (y < x)
    | _ => decide (y ≤ x)

/-! ### Reductions (R81, R199 to R201) -/

/-- The pairwise tree over a list whose length is a power of two, at most 2^fuel. -/
def treeFold {α : Type} (op : α → α → α) : Nat → List α → List α
  | 0, l => l
  | n + 1, l =>
    if l.length ≤ 1 then l
    else treeFold op n ((l.take (l.length / 2)).zipWith op (l.drop (l.length / 2)))

/-- Identity of a float sum under the mode (R81). -/
def sumIdent (rm : Nat) : FV := .fin (rm != 2) 0 0

/-- One value of a float tree from the lanes, identity where the mask excludes them. -/
def reduceFp (c : VCtx) (sl : Slot) (va : BitVec 5) (ident : FV) (op : FV → FV → FV) : Nat :=
  let v := sl.rv va
  let ls := (List.range c.n).map fun i => if sl.topMask.getLsbD i then fpLane c (lane c.w v i) else ident
  placeFp c ((treeFold op 8 ls).headD ident)
def reduceInt (c : VCtx) (sl : Slot) (va : BitVec 5) (ident : Int) (op : Int → Int → Int) : Nat :=
  let v := sl.rv va
  let ls := (List.range c.n).map fun i => if sl.topMask.getLsbD i then intLane c.t (lane c.w v i) else ident
  wrapLane c.t ((treeFold op 8 ls).headD ident)

/-- One addition of a reduction or scan, rounded, or wrapped or saturated (R199, R201). -/
def addFp (c : VCtx) (a b : FV) : FV := (fmtOf c.t).rv c.rm c.flush (a.add c.rm b)
def addInt (c : VCtx) (a b : Int) : Int := intLane c.t (placeInt c (a + b))

/-- Least and greatest integer of the type. -/
def VCtx.imin (c : VCtx) : Int := intMin (isSigned c.t) (typeBits c.t)
def VCtx.imax (c : VCtx) : Int := intMax (isSigned c.t) (typeBits c.t)

/-- A pair of VARGMAX: value, index, whether its lane is active. -/
structure ArgF where
  v : FV
  i : Nat
  act : Bool
deriving DecidableEq, Repr, Inhabited

/-- The order of VMAX: +0 above −0 (R200). -/
def FV.gtMax (a b : FV) : Bool := b.lt a || (a.isZero && b.isZero && b.isNeg && !a.isNeg)
/-- The right pair wins by R200's conditions: over an inactive lane, by a greater value, or as the only NaN. -/
def argWins (l r : ArgF) : Bool := (!l.act && r.act) || r.v.gtMax l.v || (r.v.isNan && !l.v.isNan)
/-- The pair a combination keeps (R200): the pair of lower index, the left pair of the rule, unless the other wins; so the
result is the lowest-indexed active lane of greatest value. -/
def argStep (l r : ArgF) : ArgF :=
  if argWins l r || (!argWins r l && decide (r.i < l.i)) then r else l

/-- VARGMAX over the lanes as values: an integer is its exact value. -/
def argmax (c : VCtx) (sl : Slot) (va : BitVec 5) : ArgF :=
  let v := sl.rv va
  let ident : FV := if isFloat c.t then .inf true else .ofInt c.imin
  let val := fun x => if isFloat c.t then fpLane c x else .ofInt (intLane c.t x)
  let ls := (List.range c.n).map fun i =>
    if sl.topMask.getLsbD i then ({ v := val (lane c.w v i), i := i, act := true } : ArgF)
    else { v := ident, i := 2 ^ c.w - 1, act := false }
  (treeFold argStep 8 ls).headD { v := ident, i := 2 ^ c.w - 1, act := false }

/-- VSCAN: the running sums of the active lanes, in lane order (R201). -/
def scanLanes {α : Type} (add : α → α → α) (act : Nat → Bool) (val : Nat → α) : List Nat → α → List α
  | [], _ => []
  | i :: is, acc =>
    let acc := if act i then add acc (val i) else acc
    acc :: scanLanes add act val is acc

/-! ### Taking, queueing and issuing (R57 to R59, R66, R209, R427) -/

/-- What a V word is: its tokens, its variant if it has a type, the types it takes, the x registers it reads, its
latency and issue interval, what holds it or stops it at issue, and its effect. -/
structure VOp where
  tk : BitVec 4
  var : Option (BitVec 4) := none
  okT : Nat → Bool := vecType
  mx : Bool := false
  xs : List (BitVec 5) := []
  takeBad : Option Cause := none
  lat : VCtx → Nat × Nat := fun _ => (1, 1)
  ready : State → Nat → Bool := fun _ _ => true
  bad : State → Option Cause := fun _ => none
  /-- An accumulator row of the window read whole into a vector register (R207). -/
  acc : Option (Nat × BitVec 5) := none
  eff : VCtx → List Word → Slot → Res × Slot

/-- The causes found at queue issue (R427). -/
def VOp.issueBad (o : VOp) (c : VCtx) (s : State) : Option Cause :=
  if o.var.isSome && (!o.okT c.t || (o.mx && c.mxf == 3)) then some { code := 0x11, reason := 0x1A } else o.bad s

/-- Entry e of row r of the slot's accumulator window (R93, R94). -/
def State.accEntry (s : State) (k r e : Nat) : BitVec 32 :=
  mget 0 (s.core (coreOf k)).acc (((s.slot k).accBase + r) * 64 + e)
/-- A whole row, entry e in bits 32e + 31 to 32e (R207). -/
def State.accRow (s : State) (k r : Nat) : Vec := toVec 32 ((List.range 64).map fun e => (s.accEntry k r e).toNat)

/-- The row as a VACCR reads it: behind every VACCW to it that the slot has issued, landed or in flight (R208). -/
def State.accSeen (s : State) (k r : Nat) : Vec :=
  (s.slot k).results.foldl (fun v q => match q.acc with
    | some (row, w) => if row = r then w else v
    | none => v) (s.accRow k r)

/-- The word takes effect: tokens move, its result is in flight (R44, R58, R209). -/
def VOp.perform (o : VOp) (c : VCtx) (xs : List Word) (k : Nat) (s : State) : State :=
  let sl := s.slot k
  let (lat, ivl) := o.lat c
  let (r, sl) := o.eff c xs sl
  let r := match o.acc with
    | some (row, d) => { r with v := some (d.toNat, s.accSeen k row, BitVec.allOnes 2048) }
    | none => r
  let sl := sl.tokTake 0 o.tk
  -- the mask stack has changed when tick t + L starts (R195), a register when it ends (R58)
  let due := if r.masks.isSome then sl.tick + lat - 1 else sl.tick + lat
  let s := tokCarry k 0 o.tk (s.setSlot k { sl with results := sl.results ++ [{ r with due := due, inter := !sl.exposed, tok := o.tk }] })
  if ivl = 1 then s else s.modCore (coreOf k) fun c => { c with unitBusy := s.clk + ivl }

/-- A word of a queue cannot issue after all: it returns to the head. -/
def holdIssue (k : Nat) (s : State) : State :=
  s.modSlot k fun sl => match sl.issuing with
    | some (e, q) => { sl with queues := mset [] sl.queues q (e :: mget [] sl.queues q), issuing := none }
    | none => sl

/-- A V word: from its queue in interlocked mode, directly in exposed mode. -/
def runV (o : VOp) (s : State) : Host.Outcome State Fault Refusal :=
  let k := s.sel.slot
  let sl := s.slot k
  let c := vCtx sl.shape sl.exposed (o.var.getD 0)
  let busy := (o.lat c).2 != 1 && decide (s.clk < (s.core (coreOf k)).unitBusy)
  if s.sel.issue then
    match sl.issuing with
    | none => ok s
    | some (e, _) =>
      match o.issueBad c s with
      | some b => stopIssue b s
      | none =>
        if !o.ready s e.id || busy || !sl.tokReady 0 o.tk then ok (holdIssue k s)
        else ok (progress k ((o.perform c e.regs k s).modSlot k fun sl => { sl with issuing := none }))
  else if o.var = some 0xF then stop { code := 0x11, reason := 0x18 } s
  else if ((o.var.bind varType).map o.okT) = some false then stop { code := 0x11, reason := 0x19 } s
  else match o.takeBad with
    | some b => stop b s
    | none =>
      if sl.exposed then
        match o.issueBad c s with
        | some b => stop b s
        | none =>
          if !o.ready s sl.nextId || busy || !sl.tokReady 0 o.tk then ok s
          else done (o.perform c (o.xs.map sl.rx) k s)
      else if o.xs.any sl.busyX || decide (32 ≤ (mget [] sl.queues 0).length) then ok s
      else
        let e : QEnt := { word := s.sel.word, pc := sl.esq.pc, walk := some sl.esq.walk, id := sl.nextId,
                          regs := o.xs.map sl.rx }
        done (s.setSlot k { sl with queues := mset [] sl.queues 0 (mget [] sl.queues 0 ++ [e]), nextId := sl.nextId + 1 })

/-! ### Latencies that depend on the type (R209) -/

def latAdd (c : VCtx) : Nat × Nat := (if isFloat c.t then 4 else 2, 1)
def latDiv (c : VCtx) : Nat × Nat := (if isFloat c.t then 16 else 20, 8)
def latRed (c : VCtx) : Nat × Nat := (if c.w = 32 then 13 else if c.w = 16 then 15 else 17, 1)
def latScan (c : VCtx) : Nat × Nat := if c.w = 32 then (20, 16) else if c.w = 16 then (36, 32) else (68, 64)

/-- A Merge word over va and vb. -/
def vBin (tk : BitVec 4) (d a b : BitVec 5) (v : BitVec 4) (okT : Nat → Bool) (lat : VCtx → Nat × Nat)
    (f : VCtx → Nat → Nat → Nat) (s : State) : Host.Outcome State Fault Refusal :=
  runV { tk := tk, var := some v, okT := okT, lat := lat,
         eff := fun c _ sl => (vMerge c sl d (fun i => f c (lane c.w (sl.rv a) i) (lane c.w (sl.rv b) i)), sl) } s
/-- A Merge word over va alone. -/
def vUn (tk : BitVec 4) (d a : BitVec 5) (v : BitVec 4) (okT : Nat → Bool) (lat : VCtx → Nat × Nat)
    (f : VCtx → Nat → Nat) (s : State) : Host.Outcome State Fault Refusal :=
  runV { tk := tk, var := some v, okT := okT, lat := lat,
         eff := fun c _ sl => (vMerge c sl d (fun i => f c (lane c.w (sl.rv a) i)), sl) } s
/-- A fused word over va, vb and vd. -/
def vTri (tk : BitVec 4) (d a b : BitVec 5) (v : BitVec 4) (f : VCtx → Nat → Nat → Nat → Nat) (s : State) :
    Host.Outcome State Fault Refusal :=
  runV { tk := tk, var := some v, lat := fun _ => (5, 1),
         eff := fun c _ sl => (vMerge c sl d (fun i =>
           f c (lane c.w (sl.rv a) i) (lane c.w (sl.rv b) i) (lane c.w (sl.rv d) i)), sl) } s

def intType (t : Nat) : Bool := vecType t && isInt t
def floatType (t : Nat) : Bool := isFloat t
/-- Narrow types of VPACK and VUNPK (R204), and the wide type of each. -/
def narrowType (t : Nat) : Bool := [0, 4, 1, 5, 9, 0xA].contains t
def wideType (t : Nat) : Nat := if isFloat t then 8 else t + 1

/-! ### The words -/

/-- VSHAPE (R190): every later V word reads the new value, so it is written as the word issues. -/
def execVshape (tk : BitVec 4) (x : BitVec 2) (ss : BitVec 1) (m : BitVec 2) (t : BitVec 4) (s : State) :
    Host.Outcome State Fault Refusal :=
  runV { tk := tk, eff := fun _ _ sl =>
    ({}, { sl with shape := BitVec.ofNat 64 (x.toNat * 2 ^ 10 + ss.toNat * 2 ^ 9 + m.toNat * 2 ^ 6 + t.toNat) }) } s
/-- VADD (R197, R198). -/
def execVadd (tk : BitVec 4) (d a b : BitVec 5) (v : BitVec 4) (s : State) : Host.Outcome State Fault Refusal :=
  vBin tk d a b v vecType latAdd (fun c => lane2 c (fun x y => x.add c.rm y) (fun x y => x + y)) s
/-- VSUB (R197, R198). -/
def execVsub (tk : BitVec 4) (d a b : BitVec 5) (v : BitVec 4) (s : State) : Host.Outcome State Fault Refusal :=
  vBin tk d a b v vecType latAdd (fun c => lane2 c (fun x y => x.add c.rm y.neg) (fun x y => x - y)) s
/-- VMUL (R197, R198). -/
def execVmul (tk : BitVec 4) (d a b : BitVec 5) (v : BitVec 4) (s : State) : Host.Outcome State Fault Refusal :=
  vBin tk d a b v vecType (fun _ => (4, 1)) (fun c => lane2 c FV.mul (fun x y => x * y)) s
/-- VFMA (R197, R198). -/
def execVfma (tk : BitVec 4) (d a b : BitVec 5) (v : BitVec 4) (s : State) : Host.Outcome State Fault Refusal :=
  vTri tk d a b v (fun c => lane3 c (fun x y z => (x.mul y).add c.rm z) (fun x y z => x * y + z)) s
/-- VFMS (R197, R198). -/
def execVfms (tk : BitVec 4) (d a b : BitVec 5) (v : BitVec 4) (s : State) : Host.Outcome State Fault Refusal :=
  vTri tk d a b v (fun c => lane3 c (fun x y z => z.add c.rm (x.mul y).neg) (fun x y z => z - x * y)) s
/-- VMIN (R197, R198). -/
def execVmin (tk : BitVec 4) (d a b : BitVec 5) (v : BitVec 4) (s : State) : Host.Outcome State Fault Refusal :=
  vBin tk d a b v vecType (fun _ => (2, 1)) (fun c => lane2 c FV.min (fun x y => if x ≤ y then x else y)) s
/-- VMAX (R197, R198). -/
def execVmax (tk : BitVec 4) (d a b : BitVec 5) (v : BitVec 4) (s : State) : Host.Outcome State Fault Refusal :=
  vBin tk d a b v vecType (fun _ => (2, 1)) (fun c => lane2 c FV.max (fun x y => if x ≤ y then y else x)) s
/-- VABS (R197, R198). -/
def execVabs (tk : BitVec 4) (d a : BitVec 5) (v : BitVec 4) (s : State) : Host.Outcome State Fault Refusal :=
  vUn tk d a v vecType (fun _ => (2, 1)) (fun c x => lane2 c (fun y _ => y.abs) (fun y _ => y.natAbs) x x) s
/-- VNEG (R197, R198). -/
def execVneg (tk : BitVec 4) (d a : BitVec 5) (v : BitVec 4) (s : State) : Host.Outcome State Fault Refusal :=
  vUn tk d a v vecType (fun _ => (2, 1)) (fun c x => lane2 c (fun y _ => y.neg) (fun y _ => -y) x x) s
/-- VDIV (R197, R198). -/
def execVdiv (tk : BitVec 4) (d a b : BitVec 5) (v : BitVec 4) (s : State) : Host.Outcome State Fault Refusal :=
  vBin tk d a b v vecType latDiv (fun c x y =>
    if isFloat c.t then placeFp c ((fpLane c x).div (fpLane c y)) else divLane c.t x y) s
/-- VSQRT (R197). -/
def execVsqrt (tk : BitVec 4) (d a : BitVec 5) (v : BitVec 4) (s : State) : Host.Outcome State Fault Refusal :=
  vUn tk d a v floatType (fun _ => (16, 8)) (fun c x => placeFp c (fpLane c x).sqrt) s
/-- VRCP (R84, R85, R197). -/
def execVrcp (tk : BitVec 4) (d a : BitVec 5) (v : BitVec 4) (s : State) : Host.Outcome State Fault Refusal :=
  vUn tk d a v floatType (fun _ => (8, 1)) (fun c x => placeFp c (fvRcp (fpLane c x))) s
/-- VRSQ (R84, R85, R197). -/
def execVrsq (tk : BitVec 4) (d a : BitVec 5) (v : BitVec 4) (s : State) : Host.Outcome State Fault Refusal :=
  vUn tk d a v floatType (fun _ => (8, 1)) (fun c x => placeFp c (fvRsqrt (fpLane c x))) s
/-- VEXP2 (R84, R85, R197). -/
def execVexp2 (tk : BitVec 4) (d a : BitVec 5) (v : BitVec 4) (s : State) : Host.Outcome State Fault Refusal :=
  vUn tk d a v floatType (fun _ => (8, 1)) (fun c x => placeFp c (fvExp2 (fpLane c x))) s
/-- VLOG2 (R84, R85, R197). -/
def execVlog2 (tk : BitVec 4) (d a : BitVec 5) (v : BitVec 4) (s : State) : Host.Outcome State Fault Refusal :=
  vUn tk d a v floatType (fun _ => (8, 1)) (fun c x => placeFp c (fvLog2 (fpLane c x))) s
/-- VAND (R198): raw bits. -/
def execVand (tk : BitVec 4) (d a b : BitVec 5) (v : BitVec 4) (s : State) : Host.Outcome State Fault Refusal :=
  vBin tk d a b v vecType (fun _ => (1, 1)) (fun _ x y => x &&& y) s
/-- VOR (R198). -/
def execVor (tk : BitVec 4) (d a b : BitVec 5) (v : BitVec 4) (s : State) : Host.Outcome State Fault Refusal :=
  vBin tk d a b v vecType (fun _ => (1, 1)) (fun _ x y => x ||| y) s
/-- VXOR (R198). -/
def execVxor (tk : BitVec 4) (d a b : BitVec 5) (v : BitVec 4) (s : State) : Host.Outcome State Fault Refusal :=
  vBin tk d a b v vecType (fun _ => (1, 1)) (fun _ x y => x ^^^ y) s
/-- VSHL (R198). -/
def execVshl (tk : BitVec 4) (d a b : BitVec 5) (v : BitVec 4) (s : State) : Host.Outcome State Fault Refusal :=
  vBin tk d a b v intType (fun _ => (1, 1)) (fun c x y => if c.w ≤ y then 0 else x * 2 ^ y % 2 ^ c.w) s
/-- VSHR (R198). -/
def execVshr (tk : BitVec 4) (d a b : BitVec 5) (v : BitVec 4) (s : State) : Host.Outcome State Fault Refusal :=
  vBin tk d a b v intType (fun _ => (1, 1)) (fun c x y =>
    wrapLane c.t (intLane c.t x / (2 : Int) ^ (min y c.w))) s
/-- VCMP (R194): the result ANDed with the top mask is pushed with the width compared. -/
def execVcmp (tk : BitVec 4) (cc : BitVec 5) (a b : BitVec 5) (v : BitVec 4) (s : State) :
    Host.Outcome State Fault Refusal :=
  runV { tk := tk, var := some v, lat := fun _ => (2, 1),
         bad := fun s => if 16 ≤ s.mySlot.maskDepth + s.mySlot.maskPushes then some { code := 0x14, reason := 0x33 } else none,
         eff := fun c _ sl =>
           let m : BitVec 256 := BitVec.ofNat 256 (packLanes 1 ((List.range c.n).map fun i =>
             if cmpLane c cc.toNat (lane c.w (sl.rv a) i) (lane c.w (sl.rv b) i) then 1 else 0))
           ({ masks := some (.push (m &&& sl.topMask) c.w) }, sl) } s
/-- MINV (R194). -/
def execMinv (tk : BitVec 4) (s : State) : Host.Outcome State Fault Refusal :=
  runV { tk := tk, eff := fun _ _ sl => ({ masks := some (.repl sl.maskDepth (sl.parentMask &&& ~~~sl.topMask)) }, sl) } s
/-- MPOP (R194). -/
def execMpop (tk : BitVec 4) (s : State) : Host.Outcome State Fault Refusal :=
  runV { tk := tk,
         bad := fun s => if s.mySlot.maskDepth ≤ 1 then some { code := 0x14, reason := 0x34 } else none,
         eff := fun _ _ sl => ({ masks := some (.pop sl.maskDepth) }, sl) } s
/-- MGET (R194). -/
def execMget (tk : BitVec 4) (d : BitVec 5) (s : State) : Host.Outcome State Fault Refusal :=
  runV { tk := tk, eff := fun _ _ sl =>
    ({ v := some (d.toNat, sl.topMask.setWidth 2048, BitVec.allOnes 2048) }, sl) } s
/-- MSET (R194). -/
def execMset (tk : BitVec 4) (a : BitVec 5) (s : State) : Host.Outcome State Fault Refusal :=
  runV { tk := tk, eff := fun _ _ sl =>
    ({ masks := some (.repl sl.maskDepth ((sl.rv a).extractLsb' 0 256 &&& sl.parentMask)) }, sl) } s
/-- VSEL (R202). -/
def execVsel (tk : BitVec 4) (d a b : BitVec 5) (v : BitVec 4) (s : State) : Host.Outcome State Fault Refusal :=
  runV { tk := tk, var := some v, eff := fun c _ sl =>
    (vWrite c.w c.n d (fun _ => true) (fun i =>
      if sl.topMask.getLsbD i then lane c.w (sl.rv a) i else lane c.w (sl.rv b) i), sl) } s
/-- A reduction writes lane 0 and clears the rest (R199). -/
def vRed (tk : BitVec 4) (d : BitVec 5) (v : BitVec 4) (f : VCtx → Slot → List Nat) (s : State) :
    Host.Outcome State Fault Refusal :=
  runV { tk := tk, var := some v, lat := latRed, eff := fun c _ sl => (vWhole c.w d (f c sl), sl) } s
/-- VRSUM (R199). -/
def execVrsum (tk : BitVec 4) (d a : BitVec 5) (v : BitVec 4) (s : State) : Host.Outcome State Fault Refusal :=
  vRed tk d v (fun c sl => [if isFloat c.t then reduceFp c sl a (sumIdent c.rm) (addFp c) else reduceInt c sl a 0 (addInt c)]) s
/-- VRMAX (R199). -/
def execVrmax (tk : BitVec 4) (d a : BitVec 5) (v : BitVec 4) (s : State) : Host.Outcome State Fault Refusal :=
  vRed tk d v (fun c sl => [if isFloat c.t then reduceFp c sl a (.inf true) FV.max
    else reduceInt c sl a c.imin (fun x y => if x ≤ y then y else x)]) s
/-- VRMIN (R199). -/
def execVrmin (tk : BitVec 4) (d a : BitVec 5) (v : BitVec 4) (s : State) : Host.Outcome State Fault Refusal :=
  vRed tk d v (fun c sl => [if isFloat c.t then reduceFp c sl a (.inf false) FV.min
    else reduceInt c sl a c.imax (fun x y => if x ≤ y then x else y)]) s
/-- VARGMAX (R200). -/
def execVargmax (tk : BitVec 4) (d a : BitVec 5) (v : BitVec 4) (s : State) : Host.Outcome State Fault Refusal :=
  vRed tk d v (fun c sl =>
    let r := argmax c sl a
    [if isFloat c.t then (fmtOf c.t).round 0 false r.v else wrapLane c.t (r.v.toIntSat 0 true 64), r.i]) s
/-- VSCAN (R201). -/
def execVscan (tk : BitVec 4) (d a : BitVec 5) (v : BitVec 4) (s : State) : Host.Outcome State Fault Refusal :=
  runV { tk := tk, var := some v, lat := latScan, eff := fun c _ sl =>
    let act := fun i => sl.topMask.getLsbD i
    let ls := if isFloat c.t then
        (scanLanes (addFp c) act (fun i => fpLane c (lane c.w (sl.rv a) i)) (List.range c.n) (sumIdent c.rm)).map
          (fun x => (fmtOf c.t).round 0 false x)
      else (scanLanes (addInt c) act (fun i => intLane c.t (lane c.w (sl.rv a) i)) (List.range c.n) 0).map (wrapLane c.t)
    (vMerge c sl d (fun i => ls.getD i 0), sl) } s
/-- VBCST (R202). -/
def execVbcst (tk : BitVec 4) (d a : BitVec 5) (v : BitVec 4) (s : State) : Host.Outcome State Fault Refusal :=
  runV { tk := tk, var := some v, xs := [a], eff := fun c xs sl =>
    (vMerge c sl d (fun _ => (xs.headD 0).toNat % 2 ^ c.w), sl) } s
/-- VMOV (R202). -/
def execVmov (tk : BitVec 4) (d a : BitVec 5) (v : BitVec 4) (s : State) : Host.Outcome State Fault Refusal :=
  vUn tk d a v vecType (fun _ => (1, 1)) (fun _ x => x) s
/-- VXTR (R202): an x register receives a lane. -/
def execVxtr (tk : BitVec 4) (d a b : BitVec 5) (v : BitVec 4) (s : State) : Host.Outcome State Fault Refusal :=
  runV { tk := tk, var := some v, xs := [b], lat := fun _ => (2, 1), eff := fun c xs sl =>
    let x := lane c.w (sl.rv a) ((xs.headD 0).toNat % c.n)
    ({ x := some (d.toNat, wordOf (intLane c.t x)) }, sl) } s
/-- VINS (R202). -/
def execVins (tk : BitVec 4) (d a b : BitVec 5) (v : BitVec 4) (s : State) : Host.Outcome State Fault Refusal :=
  runV { tk := tk, var := some v, xs := [a, b], eff := fun c xs sl =>
    (vWrite c.w c.n d (fun i => i == (xs.getD 1 0).toNat % c.n) (fun _ => (xs.headD 0).toNat % 2 ^ c.w), sl) } s
/-- VPERM (R202). -/
def execVperm (tk : BitVec 4) (d a b : BitVec 5) (v : BitVec 4) (s : State) : Host.Outcome State Fault Refusal :=
  runV { tk := tk, var := some v, lat := fun _ => (2, 1), eff := fun c _ sl =>
    (vMerge c sl d (fun i => lane c.w (sl.rv a) (lane c.w (sl.rv b) i % c.n)), sl) } s
/-- VSLIDE (R202). -/
def execVslide (tk : BitVec 4) (d a b : BitVec 5) (v : BitVec 4) (s : State) : Host.Outcome State Fault Refusal :=
  runV { tk := tk, var := some v, xs := [b], lat := fun _ => (2, 1), eff := fun c xs sl =>
    (vMerge c sl d (fun i =>
      let j : Int := i + (xs.headD 0).toInt
      if 0 ≤ j ∧ j < c.n then lane c.w (sl.rv a) j.toNat else 0), sl) } s
/-- VCVT (R203): the lower lanes that both types have. -/
def cvtLane (c : VCtx) (dt : Nat) (x : Nat) : Nat :=
  if isFloat c.t then
    let v := fpLane c x
    if isFloat dt then (fmtOf dt).round c.rm c.flush v else wrapLane dt (v.toIntSat c.rm (isSigned dt) (typeBits dt))
  else
    let v := intLane c.t x
    if isFloat dt then (fmtOf dt).round c.rm c.flush (.ofInt v)
    else wrapLane dt (satInt (isSigned dt) (typeBits dt) v)
def execVcvt (tk : BitVec 4) (d a : BitVec 5) (t v : BitVec 4) (s : State) : Host.Outcome State Fault Refusal :=
  let dt := t.toNat
  runV { tk := tk, var := some v, lat := fun _ => (3, 1),
         takeBad := if vecType dt then none else some { code := 0x11, reason := 0x19 },
         eff := fun c _ sl =>
           (vWrite (typeBits dt) (min c.n (2048 / typeBits dt)) d (fun i => sl.topMask.getLsbD i)
             (fun i => cvtLane c dt (lane c.w (sl.rv a) i)), sl) } s
/-- VQMX (R74, R205). -/
def execVqmx (tk : BitVec 4) (d a : BitVec 5) (v : BitVec 4) (s : State) : Host.Outcome State Fault Refusal :=
  runV { tk := tk, var := some v, okT := floatType, mx := true, lat := fun _ => (6, 2), eff := fun c _ sl =>
    let t := mxType c.mxf
    let ew := typeBits t
    let blk := fun k => mxQuant t c.rm ((List.range 32).map fun j =>
      if sl.topMask.getLsbD (32 * k + j) then fpLane c (lane c.w (sl.rv a) (32 * k + j)) else .fin false 0 0)
    let body := (List.range (c.n / 32)).foldl (fun acc k =>
      let q := blk k
      acc + packLanes ew (q.2.map fun i => (i % (2 : Int) ^ ew).toNat) * 2 ^ (32 * ew * k)
        + q.1 * 2 ^ (8 * (248 + k))) 0
    ({ v := some (d.toNat, BitVec.ofNat 2048 body, BitVec.allOnes 2048) }, sl) } s
/-- VDQMX (R73, R205). -/
def execVdqmx (tk : BitVec 4) (d a : BitVec 5) (v : BitVec 4) (s : State) : Host.Outcome State Fault Refusal :=
  runV { tk := tk, var := some v, okT := floatType, mx := true, lat := fun _ => (4, 1), eff := fun c _ sl =>
    let t := mxType c.mxf
    let ew := typeBits t
    (vMerge c sl d (fun i =>
      placeFp c (mxValue t (sext ew (lane ew (sl.rv a) i)) (lane 8 (sl.rv a) (248 + i / 32)))), sl) } s
/-- One lane narrowed, or widened (R204). -/
def narrowLane (c : VCtx) (x : Nat) : Nat :=
  let wt := wideType c.t
  if isFloat c.t then (fmtOf c.t).round c.rm c.flush (fp32.value c.flush x)
  else wrapLane c.t (satInt (isSigned c.t) (typeBits c.t) (intLane wt x))
def widenLane (c : VCtx) (x : Nat) : Nat :=
  if isFloat c.t then fp32.round 0 false (fpLane c x) else wrapLane (wideType c.t) (intLane c.t x)
/-- VPACK (R204). -/
def execVpack (tk : BitVec 4) (d a b : BitVec 5) (v : BitVec 4) (s : State) : Host.Outcome State Fault Refusal :=
  runV { tk := tk, var := some v, okT := narrowType, lat := fun _ => (2, 1), eff := fun c _ sl =>
    let h := c.n / 2
    (vWrite c.w c.n d (fun _ => true) (fun i =>
      if i < h then narrowLane c (lane (2 * c.w) (sl.rv a) i) else narrowLane c (lane (2 * c.w) (sl.rv b) (i - h))), sl) } s
/-- VUNPK (R204). -/
def execVunpk (tk : BitVec 4) (d a : BitVec 5) (h : BitVec 1) (v : BitVec 4) (s : State) :
    Host.Outcome State Fault Refusal :=
  runV { tk := tk, var := some v, okT := narrowType, lat := fun _ => (2, 1), eff := fun c _ sl =>
    let o := if h = 1 then c.n / 2 else 0
    (vWrite (2 * c.w) (c.n / 2) d (fun _ => true) (fun i => widenLane c (lane c.w (sl.rv a) (i + o))), sl) } s
/-- VQPOP (R206): the head entry leaves its load queue as the word issues. -/
def execVqpop (tk : BitVec 4) (d : BitVec 5) (q : BitVec 2) (s : State) : Host.Outcome State Fault Refusal :=
  runV { tk := tk, ready := fun s _ => (s.mySlot.lqHead q.toNat).isSome, eff := fun _ _ sl =>
    ({ v := some (d.toNat, (sl.lqHead q.toNat).getD 0, BitVec.allOnes 2048) }, sl.lqPop q.toNat) } s
/-- VQPUSH (R206). -/
def execVqpush (tk : BitVec 4) (q : BitVec 1) (a : BitVec 5) (s : State) : Host.Outcome State Fault Refusal :=
  runV { tk := tk, ready := fun s _ => !s.mySlot.sqFull q.toNat, eff := fun _ _ sl =>
    ({ sq := some (q.toNat, sl.rv a) }, sl) } s
/-- VIOTA (R202). -/
def execViota (tk : BitVec 4) (d a : BitVec 5) (v : BitVec 4) (s : State) : Host.Outcome State Fault Refusal :=
  runV { tk := tk, var := some v, xs := [a], eff := fun c xs sl =>
    (vMerge c sl d (fun i =>
      let e := (xs.headD 0).toInt + i
      if isFloat c.t then placeFp c (.ofInt e) else placeInt c e), sl) } s

end Sys2Proof.Machine
end

