-- ==== Sys2Proof/Machine/Matrix.lean ====
section
/-! DEFINITION. The matrix words (R211 to R236), VACCR and VACCW (R207, R208), the leases, recalibrations and errors
of the arrays (R216, R217, R466 to R469), and the retirement of M words and batches (R220, R221).
Readings and choices of the model: DEDUCED log entries 13, 27, 28, 29, 60; DESIGN CHOICE log entries 14, 70. -/

namespace Sys2Proof.Machine

/-! ### Descriptors (R223, R226, R228, R233) -/

def mdFirst (d : Nat) : Nat := bits d 5 0
def mdNmac (d : Nat) : Nat := bits d 12 6
def mdWf (d : Nat) : Nat := bits d 14 13
def mdAf (d : Nat) : Nat := bits d 16 15
def mdE (d : Nat) : Int := sext 8 (bits d 24 17)
def mdCut (d : Nat) : Nat := bits d 26 25
def mdBrow (d : Nat) : Nat := bits d 37 27
def mdTag (d : Nat) : Nat := bits d 63 48
def ddRows (d : Nat) : Nat := bits d 11 0
def ddSrc (d : Nat) : Nat := bits d 13 12
def ddE (d : Nat) : Int := sext 8 (bits d 21 14)
def ddRm (d : Nat) : Nat := bits d 23 22
def ddClr (d : Nat) : Bool := bit d 24

/-- Columns per plane, cells per weight, offset and fraction bits of a weight format (R211, R72). -/
def wCols (wf : Nat) : Nat := if wf = 2 then 128 else 64
def wCells (wf : Nat) : Nat := if wf = 2 then 2 else 4
def wOff (wf : Nat) : Int := if wf = 0 then 128 else if wf = 1 then 32 else 8
def wFrac (wf : Nat) : Int := if wf = 0 then 6 else if wf = 1 then 4 else 2
/-- Rows per macro (R218). -/
def mRpm (wf af : Nat) : Nat := (if wf = 2 then 2 else 1) * (if af = 2 then 2 else 1)
/-- The step's cut has a bound (R229). -/
def mdBound (d : Nat) : Bool := mdCut d != 0 && decide (mdCut d < if mdWf d = 2 then 2 else 3)
/-- Values of a drained row (R233). -/
def ddVals (d : Nat) : Nat := if ddSrc d < 2 then 64 else 32

/-- Rows of the window that an M word touches from cursor c on, as first row and number (R208, R219). -/
def mRows (w : W32) (d : Nat) (st : List Word) (c : Nat) : List (Nat × Nat) :=
  match decodeCore w with
  | .ok (.mstep _ _ _ row) =>
    if sCount st = 0 then []
    else
      let per := mdNmac d * mRpm (mdWf d) (mdAf d)
      let n := (sRuns st - c) * per
      (row.toNat + c * per, n) :: if mdBound d then [(mdBrow d + c * per, n)] else []
  | .ok (.mdrain _ _ _ row) => if sCount st = 0 then [] else [(row.toNat + c, ddRows d - c)]
  | .ok (.mzero _ n row) => [(row.toNat + c, n.toNat + 1 - c)]
  | _ => []
/-- The macros that an M word names. -/
def mMacs (w : W32) (d : Nat) : List Nat :=
  match decodeCore w with
  | .ok (.mplane _ _ _) | .ok (.mstep _ _ _ _) => (List.range (mdNmac d)).map (mdFirst d + ·)
  | .ok (.mswap _ f c _) => (List.range (c.toNat + 1)).map (f.toNat + ·)
  | _ => []
/-- Sections of a list of macros (R211). -/
def secsOf (ms : List Nat) : BitVec 4 := ms.foldl (fun a m => a ||| BitVec.twoPow 4 (m / 16)) 0
def rowsHit (l : List (Nat × Nat)) (r : Nat) : Bool := l.any fun x => decide (x.1 ≤ r) && decide (r < x.1 + x.2)
def rowsMeet (l m : List (Nat × Nat)) : Bool := l.any fun x => m.any fun y => overlap x.1 x.2 y.1 y.2
def MOp.touches (o : MOp) : List (Nat × Nat) := mRows o.org.word o.desc.toNat o.s1 o.cursor
def MOp.macs (o : MOp) : List Nat := mMacs o.org.word o.desc.toNat

/-! ### VACCR and VACCW (R207, R208) -/

/-- Accumulator row of a V word. -/
def accRowOf (w : W32) : Option Nat := match decodeCore w with
  | .ok (.vaccr _ _ c) | .ok (.vaccw _ _ c) => some c.toNat
  | _ => none
/-- Every M word dispatched before word id has finished with the row (R208). -/
def Slot.rowFree (sl : Slot) (id row : Nat) : Bool :=
  sl.mops.all (fun o => decide (id < o.id) || !rowsHit o.touches row)
  && (mget [] sl.queues 1).all fun e => decide (id < e.id)
      || !rowsHit (mRows e.word (e.regs.headD 0).toNat e.s1 0) row
/-- The walk index of the V word at hand, on its way out of its queue or taken by the ESQ. -/
def Slot.vWalk (sl : Slot) : Option Int := match sl.issuing with
  | some (e, _) => e.walk
  | none => some sl.esq.walk
/-- No earlier event of the slot holds an accumulator access (R112 to R115, R170): a fence with ACC that orders it, or an
access to an SO page. -/
def State.accOrdered (s : State) (k : Nat) (walk : Option Int) (id : Nat) (write : Bool) : Bool :=
  (s.slot k).pend.all (fun q => !q.earlier walk id
    || !(q.isSO || (q.kind == .fence && q.stor.getLsbD 1 && (q.fk == 0 || q.fk == 2 || (q.fk == 1 && write)))))
  && (s.core (coreOf k)).l1.all fun x => x.slot != k || x.parts.all (·.2.2.1 != 0)
/-- The cause of a row outside the window; VAL is its byte offset (R428, R439). -/
def accBad (sl : Slot) (l : List (Nat × Nat)) : Option Cause :=
  (l.find? fun x => decide (0 < x.2) && decide (sl.accRows < x.1 + x.2)).map fun x =>
    { code := 0x22, reason := 0x5D, val := 256 * max x.1 sl.accRows }

/-- VACCR (R207). -/
def execVaccr (tk : BitVec 4) (d : BitVec 5) (c : BitVec 11) (s : State) : Host.Outcome State Fault Refusal :=
  runV { tk := tk, lat := fun _ => (4, 1),
         ready := fun s id => s.mySlot.rowFree id c.toNat && s.accOrdered s.sel.slot s.mySlot.vWalk id false,
         bad := fun s => accBad s.mySlot [(c.toNat, 1)], acc := some (c.toNat, d), eff := fun _ _ sl => ({}, sl) } s
/-- VACCW (R207). -/
def execVaccw (tk : BitVec 4) (a : BitVec 5) (c : BitVec 11) (s : State) : Host.Outcome State Fault Refusal :=
  runV { tk := tk, lat := fun _ => (2, 1),
         ready := fun s id => s.mySlot.rowFree id c.toNat && s.accOrdered s.sel.slot s.mySlot.vWalk id true,
         bad := fun s => accBad s.mySlot [(c.toNat, 1)],
         eff := fun _ _ sl => ({ acc := some (c.toNat, sl.rv a) }, sl) } s

/-! ### Taking an M word (R57, R172, R223, R224, R428) -/

/-- What an M word reads and checks at take: registers, stream, causes, and whether its stream is written. -/
structure MTake where
  tk : BitVec 4
  xs : List (BitVec 5) := []
  st : Option (BitVec 4) := none
  bad : Slot → Nat → List Word → Option Cause := fun _ _ _ => none
  write : Bool := false
  /-- The word closes the open batch (R220). -/
  close : Bool := false

/-- Checker intervals of a stream in scratchpad (R45, R219). -/
def mIvals (st : List Word) : List (Nat × Nat) :=
  if sCount st = 0 then []
  else
    let iv := fun (p : Int × Int) => (p.1.toNat, p.2.toNat)
    iv (srcBounds st) :: if isMx (sType st) then [iv (scaleBounds st)] else []

/-- An M word enters the M queue. -/
def takeM (o : MTake) (s : State) : Host.Outcome State Fault Refusal :=
  let k := s.sel.slot
  let sl := s.slot k
  if o.xs.any (sl.busyP .esq) then ok s
  else if o.st.isSome && !sl.asq.reached sl.esq.walk then ok s
  else
    let regs := o.xs.map sl.rx
    let st := (o.st.map fun n => sl.stream n.toNat).getD []
    match o.bad sl (regs.headD 0).toNat st with
    | some c => stop c s
    | none =>
      let ivs := if o.st.isSome then mIvals st else []
      if 16 ≤ (mget [] sl.queues 1).length ∨ chkMax < sl.checker.length + ivs.length then ok s
      else
        let e : QEnt := { word := s.sel.word, pc := sl.esq.pc, walk := some sl.esq.walk, id := sl.nextId, regs := regs,
                          s1 := st, exposed := sl.exposed, batch := sl.batch }
        let s := s.setSlot k { sl with queues := mset [] sl.queues 1 (mget [] sl.queues 1 ++ [e]), nextId := sl.nextId + 1,
                                       batch := if o.close then sl.batch + 1 else sl.batch }
        done (ivs.foldl (fun s v => addIval k e.id v.1 v.2 o.write (some sl.esq.walk) s) s)

/-! ### Issue -/

/-- An M word leaves its queue: f gives its cause, its wait (none), or its effect. -/
inductive MIssue where
  | bad (c : Cause)
  | wait (s : State)
  | go (s : State)

/-- The word that has left queue number eng takes effect, waits at its head, or stops its slot (R42, R44, R418). -/
def issueWord (eng : Nat) (tk : BitVec 4) (f : QEnt → Slot → State → MIssue) (s : State) :
    Host.Outcome State Fault Refusal :=
  let k := s.sel.slot
  let sl := s.slot k
  match sl.issuing with
  | none => ok s
  | some (e, _) =>
    if !sl.tokReady eng tk then ok (holdIssue k s)
    else match f e sl (tokCarry k eng tk (s.modSlot k fun sl => { sl.tokTake eng tk with issuing := none })) with
      | .bad c => stopIssue c s
      | .wait s' =>
        -- the word goes back with its token; what waiting has changed elsewhere stands
        ok (holdIssue k (s'.setSlot k { sl with mxst := (s'.slot k).mxst }))
      | .go s => ok (progress k s)

/-- An M word: taken, or issued. -/
def runM (o : MTake) (f : QEnt → Slot → State → MIssue) (s : State) : Host.Outcome State Fault Refusal :=
  if s.sel.issue then issueWord 1 o.tk f s else takeM o s

/-- The word retires as it issues. -/
def mDone (k : Nat) (tk : BitVec 4) (s : State) : MIssue := .go (s.modSlot k fun sl => sl.tokGive 1 tk)

/-- The word is in flight from now on (R219). -/
def mFly (k : Nat) (e : QEnt) (tk : BitVec 4) (rows : Nat) (s : State) : MIssue :=
  .go (s.modSlot k fun sl => { sl with mops := sl.mops ++
    [{ id := e.id, org := s.originOf k 1 e tk false 0, walk := e.walk, desc := e.regs.headD 0, s1 := e.s1,
       exposed := e.exposed, batch := e.batch, rows := rows }] })

/-- A request for sections is on file; the slot has at most one. -/
def askSecs (k : Nat) (m : BitVec 4) (s : State) : State :=
  let c := s.cluster (clusterOf k)
  let old := ((c.reqs.find? (·.1 == k)).map (·.2)).getD 0
  if old &&& m = m then s
  else if old = 0 then s.setCluster (clusterOf k) { c with reqs := c.reqs ++ [(k, m)] }
  else s.setCluster (clusterOf k) { c with reqs := c.reqs.map fun r => if r.1 = k then (k, r.2 ||| m) else r }

def State.sec (s : State) (cl i : Nat) : Section := mget {} (s.cluster cl).secs i
/-- Its uses are spent and no re-arbitration has let its holder go on (R216). -/
def Section.spent (v : Section) : Bool := decide (256 ≤ v.uses) && !v.pass
def setSec (cl i : Nat) (v : Section) (s : State) : State :=
  s.setCluster cl { s.cluster cl with secs := mset {} (s.cluster cl).secs i v }
/-- Sections of a mask that satisfy p. -/
def secsWith (m : BitVec 4) (p : Nat → Bool) : List Nat := (List.range 4).filter fun i => m.getLsbD i && p i

/-- The cause of a word that names a disabled section (R468). -/
def secOff (s : State) (k : Nat) (m : BitVec 4) : Option Cause :=
  if (s.cluster (clusterOf k)).arrdis &&& m = 0 then none else some { code := 0x39, reason := 3 }

/-- Sections that the word uses, checked and counted (R216, R217, R428): extra are the word's causes of rank below
0x11. A section lost to a re-arbitration is asked for again. -/
def useSecs (k : Nat) (m : BitVec 4) (extra : Option Cause) (s : State) (f : State → MIssue) : MIssue :=
  let cl := clusterOf k
  let held := heldSecs s k
  let off := (s.cluster cl).arrdis
  let lost := (s.slot k).lostSecs
  if m &&& ~~~held &&& ~~~off &&& ~~~lost ≠ 0 then .bad { code := 0x11, reason := 0x23 }
  else match extra with
    | some c => .bad c
    | none =>
      match secOff s k m with
      | some c => .bad c
      | none =>
        if m &&& ~~~held ≠ 0 then .wait (askSecs k (m &&& ~~~held) s)
        else if secsWith m (fun i => (s.sec cl i).recal) ≠ [] then .wait (setFlags k mxRCW s)
        else if secsWith m (fun i => (s.sec cl i).spent) ≠ [] then .wait s
        else f ((secsWith m fun _ => true).foldl (fun s i =>
          setSec cl i { s.sec cl i with uses := (s.sec cl i).uses + 1, pass := false } s) s)

/-- The first cause of a stream of scratchpad elements: alignment, then the window (R98, R438). -/
def streamBad (sl : Slot) (st : List Word) : Option Cause :=
  if sCount st = 0 then none
  else
    let t := sType st
    let n := if isMx t then unitBytes t else typeBits t / 8
    let al := if isMx t then 1 else typeBits t / 8
    let (lo, hi) := srcBounds st
    let (sl0, sh) := if isMx t then scaleBounds st else (0, 0)
    let calm := (al == 1 || (decide (sBase st % al = 0) && (List.range 6).all fun l => decide (sSrc st l % al = 0)))
      && decide (0 ≤ lo) && decide (hi < sl.spSize) && decide (0 ≤ sl0) && decide (sh < sl.spSize)
    if calm then none
    else
      let ix := List.range (sCount st)
      match ix.find? fun i => srcAddr st i % al != 0 with
      | some i => some { code := 0x23, reason := 0x61, val := srcAddr st i }
      | none =>
        match ix.find? fun i => (spBad sl (srcAddr st i) n).isSome with
        | some i => spBad sl (srcAddr st i) n
        | none =>
          if isMx t then (ix.findSome? fun i => if i % 32 = 0 then spBad sl (scaleAddr st i) 1 else none) else none

/-! ### Planes, accumulators and steps -/

def State.mac (s : State) (cl m : Nat) : Mac := mget {} (s.cluster cl).macs m
def setMac (cl m : Nat) (v : Mac) (s : State) : State :=
  s.setCluster cl { s.cluster cl with macs := mset {} (s.cluster cl).macs m v }

/-- Code of element n of a stream in scratchpad: an MX element or an .I8 (R72, R97). -/
def State.spCode (s : State) (k : Nat) (st : List Word) (n : Nat) : Int :=
  let t := sType st
  if isMx t then
    let u := leNat (s.slotSpRead k (srcAddr st n) (unitBytes t))
    sext (typeBits t) (u / 2 ^ (typeBits t * (n % sCnt st 0 % unitElems t)))
  else sext 8 (leNat (s.slotSpRead k (srcAddr st n) 1))
/-- Scale of the block that holds element n. -/
def State.spScale (s : State) (k : Nat) (st : List Word) (n : Nat) : Nat :=
  leNat (s.slotSpRead k (scaleAddr st n) 1)

/-- Stored value U of a weight, from its cells (R211), and cells from U. -/
def cellSum (f : Nat → BitVec 2) : Nat → Nat
  | 0 => 0
  | n + 1 => cellSum f n + 4 ^ n * (f n).toNat
def Plane.weight (p : Plane) (wf row col : Nat) : Int :=
  (cellSum (fun j => mget 0 p.cells (256 * row + wCells wf * col + j)) (wCells wf) : Nat) - wOff wf
def Plane.setWeight (p : Plane) (wf row col : Nat) (w : Int) : Plane :=
  let u := (w + wOff wf).toNat
  { p with cells := (List.range (wCells wf)).foldl (fun m j =>
      mset 0 m (256 * row + wCells wf * col + j) (BitVec.ofNat 2 (u / 4 ^ j))) p.cells }

/-- MPLANE's work for macro number n of its list: its shadow plane whole (R226). -/
def planeRow (k : Nat) (o : MOp) (s : State) : State :=
  let d := o.desc.toNat
  let st := o.s1
  let wf := mdWf d
  let r := sCnt st 0
  let cl := clusterOf k
  let m := mdFirst d + o.cursor
  let mac := s.mac cl m
  let p := (List.range (wCols wf)).foldl (fun p col =>
    let run := o.cursor * wCols wf + col
    let p := (List.range 256).foldl (fun p row =>
      p.setWeight wf row col (if row < r then s.spCode k st (run * r + row) else 0)) p
    { p with scales := (List.range 8).foldl (fun sc b =>
        mset 0 sc (8 * col + b) (if b < r / 32 then BitVec.ofNat 8 (s.spScale k st (run * r + 32 * b)) else 0)) p.scales })
    mac.shadow
  setMac cl m { mac with shadow := { p with tag := BitVec.ofNat 16 (mdTag d), bad := false } } s

def setAcc (k r e : Nat) (v : Nat) (s : State) : State :=
  s.modCore (coreOf k) fun c =>
    { c with acc := mset 0 c.acc (((s.slot k).accBase + r) * 64 + e) (BitVec.ofNat 32 v) }
def dirtyRow (k r : Nat) (s : State) : State :=
  s.modSlot k fun sl => { sl with dirtyAcc := mset false sl.dirtyAcc r true }
/-- An X64 value: entries 2i and 2i + 1 of a row (R77). -/
def State.accX64 (s : State) (k r i : Nat) : Int :=
  sext 64 ((s.accEntry k r (2 * i)).toNat + 2 ^ 32 * (s.accEntry k r (2 * i + 1)).toNat)
def setX64 (k r i : Nat) (v : Int) (s : State) : State :=
  let u := (wordOf v).toNat
  setAcc k r (2 * i + 1) (u / 2 ^ 32) (setAcc k r (2 * i) u s)

/-- One block of a column: partial, residual and scales (R213, R86, R87). -/
structure MBlk where
  p : Int := 0
  rho : Int := 0
  ea : Nat := 0
  eb : Nat := 0

def dotInt (xs ys : List Int) : Int := (xs.zipWith (· * ·) ys).foldl (· + ·) 0
def maxAbs (xs : List Int) : Int := xs.foldl (fun a x => max a x.natAbs) 0

/-- The partial of a block: all of it, or the terms of one cut (R86). -/
def blockP (wf cut : Nat) (a w : List Int) : Int :=
  let ah := a.map (· / 16)
  let al := a.map (· % 16)
  let wh := w.map (· / 16)
  let wl := w.map (· % 16)
  if cut = 0 then dotInt a w
  else if wf = 2 then (if cut = 1 then 16 * dotInt ah w else dotInt al w)
  else if cut = 1 then 256 * dotInt ah wh
  else if cut = 2 then 16 * (dotInt ah wl + dotInt al wh)
  else dotInt al wl
/-- The residual of a block after a cut that is not final (R87). -/
def blockRho (wf cut : Nat) (a w : List Int) : Int :=
  let sh := (a.map fun x => ((x / 16).natAbs : Int)).foldl (· + ·) 0
  let sl := (a.map (· % 16)).foldl (· + ·) 0
  let hw := maxAbs (w.map (· / 16))
  let lw := (w.map (· % 16)).foldl max 0
  if wf = 2 then maxAbs w * sl
  else if cut = 1 then 16 * (lw * sh + hw * sl) + lw * sl
  else lw * sl

def x64Nan : Int := -(2 ^ 63)
def x64Top : Int := 2 ^ 63 - 1

/-- INT32 accumulation of one block (R75). -/
def accInt (r : Int × BitVec 7) (b : MBlk) : Int × BitVec 7 :=
  let v := r.1 + b.p
  (satInt true 32 v, r.2 ||| flagIf mxSAT (decide (v < -(2 ^ 31)) || decide (2 ^ 31 ≤ v)))

/-- FP32 accumulation of one block (R76); ex is the mode at dispatch (R66). -/
def accFp (eb : Int) (ex : Bool) (r : Nat × BitVec 7) (b : MBlk) : Nat × BitVec 7 :=
  if b.ea = 0xFF ∨ b.eb = 0xFF then (fp32.qnan, r.2 ||| mxNANS)
  else
    let acc := fp32.value ex r.1
    if acc.isNan || acc.isInf then r
    else
      let v := if b.p = 0 then acc
        else acc.add RNE (.fin (decide (b.p < 0)) b.p.natAbs ((b.ea : Int) + b.eb - eb))
      let x := fp32.round RNE ex v
      (x, r.2 ||| flagIf mxUNF (!v.isZero && decide (v.flog2 < -126)) ||| flagIf mxOVF (fp32.value false x).isInf)

/-- X64 accumulation of one block, or of its residual into a bound (R77, R229). -/
def accX (eb e : Int) (bound : Bool) (r : Int × BitVec 7) (b : MBlk) : Int × BitVec 7 :=
  if r.1 = x64Nan then r
  else if b.ea = 0xFF ∨ b.eb = 0xFF then (x64Nan, r.2 ||| mxNANS)
  else
    let sh : Int := (b.ea : Int) + b.eb - eb - e + 32
    let v := if bound then b.rho else b.p
    let m := roundMag (if bound then RUP else RNE) (decide (v < 0)) v.natAbs sh
    let z : Int := if v < 0 then -(m : Int) else m
    let inx := decide (sh < 0) && decide (v.natAbs % 2 ^ (-sh).toNat ≠ 0)
    let q := r.1 + z
    let c := if x64Top < q then x64Top else if q < -x64Top then -x64Top else q
    (c, r.2 ||| flagIf mxINX inx ||| flagIf mxSAT (c != q))

/-- One column of a macro: the value behind rows base on takes every block in increasing order (R80, R218). -/
def stepCol (k base col af : Nat) (eb e : Int) (ex : Bool) (bs : List MBlk) (s : State) : State :=
  if af = 0 then
    let r := base + col / 64
    let (v, f) := bs.foldl accInt ((s.accEntry k r (col % 64)).toInt, 0)
    setFlags k f (setAcc k r (col % 64) (v % 2 ^ 32).toNat s)
  else if af = 1 then
    let r := base + col / 64
    let (v, f) := bs.foldl (accFp eb ex) ((s.accEntry k r (col % 64)).toNat, 0)
    setFlags k f (setAcc k r (col % 64) v s)
  else
    let r := base + col / 32
    let (v, f) := bs.foldl (accX eb e (af == 3)) (s.accX64 k r (col % 32), 0)
    setFlags k f (setX64 k r (col % 32) v s)

/-- MSTEP's work for one activation row (R228, R229). -/
def stepRow (k : Nat) (o : MOp) (row : Nat) (s : State) : State :=
  let d := o.desc.toNat
  let st := o.s1
  let wf := mdWf d
  let af := mdAf d
  let depth := sCnt st 0
  let t := sType st
  let m := o.cursor
  let eb : Int := 254 + (if isMx t then mxFrac t else 6 : Nat) + wFrac wf
  let act := (List.range depth).map fun i => s.spCode k st (m * depth + i)
  let blk := fun b => (act.drop (32 * b)).take 32
  let sc := (List.range (depth / 32)).map fun b => if isMx t then s.spScale k st (m * depth + 32 * b) else 0
  let per := mRpm wf af
  let s := (List.range (mdNmac d)).foldl (fun s j =>
    let p := (s.mac (clusterOf k) (mdFirst d + j)).active
    if mdTag d ≠ 0 ∧ p.tag.toNat ≠ mdTag d then setFlags k mxTAGX s
    else (List.range (wCols wf)).foldl (fun s col =>
      let bs := (List.range (depth / 32)).map fun b =>
        let w := (List.range 32).map fun i => p.weight wf (32 * b + i) col
        ({ p := blockP wf (mdCut d) (blk b) w, rho := blockRho wf (mdCut d) (blk b) w, ea := sc.getD b 0,
           eb := (mget 0 p.scales (8 * col + b)).toNat } : MBlk)
      let off := (m * mdNmac d + j) * per
      let s := stepCol k (row + off) col af eb (mdE d) o.exposed bs s
      if mdBound d then stepCol k (mdBrow d + off) col 3 eb (mdE d) o.exposed bs s else s) s) s
  let mark := fun b s => (List.range (mdNmac d * per)).foldl (fun s i => dirtyRow k (b + m * mdNmac d * per + i) s) s
  let s := mark row s
  if mdBound d then mark (mdBrow d) s else s

/-! ### Drains -/

/-- The values of a row, exact (R233); of X64 the value that R78 rounds once, NaN for the marker. -/
def drainVals (k : Nat) (o : MOp) (row : Nat) (s : State) : List FV :=
  let d := o.desc.toNat
  (List.range (ddVals d)).map fun i =>
    match ddSrc d with
    | 0 => FV.ofInt (s.accEntry k row i).toInt
    | 1 => fp32.value o.exposed (s.accEntry k row i).toNat
    | _ =>
      let q := s.accX64 k row i
      if q = x64Nan then .nan else .fin (decide (q < 0)) q.natAbs (ddE d - 32)

/-- One value converted to an element of a plain type, with its flags (R233). -/
def drainElem (o : MOp) (t : Nat) (v : FV) : Nat × BitVec 7 :=
  let d := o.desc.toNat
  let nans := flagIf mxNANS v.isNan
  if isInt t then
    let n := typeBits t
    let i := v.toIntSat (ddRm d) true n
    let sat := match v.toInt (ddRm d) with
      | some (.inr e) => e != i
      | some (.inl _) => true
      | none => false
    ((i % (2 : Int) ^ n).toNat, nans ||| flagIf mxSAT sat)
  else
    let F := fmtOf t
    if ddSrc d = 3 then
      let x := if v.isNan then fp32.infBits false else fp32.round RUP false v
      (x, nans ||| flagIf mxOVF (!v.isNan && (fp32.value false x).isInf)
        ||| flagIf mxUNF (!v.isNan && !v.isZero && decide (v.flog2 < -126)))
    else
      let x := F.round (ddRm d) o.exposed v
      (x, nans ||| flagIf mxOVF (!v.isNan && !v.isInf && (F.value false x).isInf)
        ||| flagIf mxUNF (!v.isNan && !v.isInf && !v.isZero && decide (v.flog2 < F.emin)))

/-- A row of MX blocks written (R74, R233). -/
def drainMx (k : Nat) (o : MOp) (first : Nat) (vs : List FV) (s : State) : State :=
  let t := sType o.s1
  let w := typeBits t
  (List.range (vs.length / 32)).foldl (fun s b =>
    let xs := (vs.drop (32 * b)).take 32
    let (sc, qs) := mxQuant t (ddRm o.desc.toNat) xs
    let n := first + 32 * b
    let body := packLanes w (qs.map fun q => (q % (2 : Int) ^ w).toNat)
    let s := slotSpWrite k (srcAddr o.s1 n) (leBytes body (32 * w / 8)) s
    let s := slotSpWrite k (scaleAddr o.s1 n) [BitVec.ofNat 8 sc] s
    setFlags k (flagIf mxNANS (xs.any FV.isNan) ||| flagIf mxSAT (mxClips t (ddRm o.desc.toNat) xs)) s) s

/-- MDRAIN's work for one accumulator row (R233). -/
def drainRow (k : Nat) (o : MOp) (row : Nat) (s : State) : State :=
  let d := o.desc.toNat
  let t := sType o.s1
  let vs := drainVals k o (row + o.cursor) s
  let first := o.cursor * ddVals d
  let s := if isMx t then drainMx k o first vs s
    else (vs.zipIdx).foldl (fun s p =>
      let (x, f) := drainElem o t p.1
      setFlags k f (slotSpWrite k (srcAddr o.s1 (first + p.2)) (leBytes x (typeBits t / 8)) s)) s
  if ddClr d then dirtyRow k (row + o.cursor) ((List.range 64).foldl (fun s e => setAcc k (row + o.cursor) e 0 s) s) else s

/-- MZERO's work for one row (R234). -/
def zeroRow (k row : Nat) (s : State) : State :=
  dirtyRow k row ((List.range 64).foldl (fun s e => setAcc k row e 0 s) s)

/-! ### Progress of the words in flight -/

def setMop (k : Nat) (o : MOp) (s : State) : State :=
  s.modSlot k fun sl => { sl with mops := sl.mops.map fun q => if q.id = o.id then o else q }

/-- The next row may be done: the checker lets its operands begin, and every earlier word has finished with the rows it
touches (R45, R46, R208, R219). -/
def Slot.mopReady (sl : Slot) (o : MOp) : Bool :=
  let prior := sl.mops.takeWhile (·.id ≠ o.id)
  (o.s1 == [] || (sl.checked o.id && (o.walk.map (sl.bothPassed .esq)).getD true
    && sl.pend.all fun q => !(q.kind == .fence && 2 ≤ q.fk.toNat && q.stor != 0 && 1 ≤ q.scope.toNat
      && (o.walk.map fun w => decide (q.walk < w)).getD false)))
  && prior.all (fun q => !rowsMeet q.touches o.touches)
  && (mget [] sl.queues 0).all (fun e => decide (o.id < e.id) || match accRowOf e.word with
      | some r => !rowsHit o.touches r
      | none => true)
  && sl.results.all fun r => match r.acc with
      | some (row, _) => !rowsHit o.touches row
      | none => true

/-- The macro's conversions of the row have failed (R466, R467): the section is recalibrated at once, and if that was
done already the step parks and the section is disabled. -/
def rowFails (k : Nat) (o : MOp) (plane group m : Nat) (s : State) : State :=
  let cl := clusterOf k
  let i := m / 16
  let s := setFlags k mxRCW s
  if !o.forced then setMop k { o with forced := true } (setSec cl i { s.sec cl i with recal := true } s)
  else
    let c := s.cluster cl
    let s := s.setCluster cl { c with arrdis := c.arrdis ||| BitVec.twoPow 4 i }
    let s := setSec cl i {} s
    let s := setMop k { o with parked := true, forced := false } s
    asyncRecord o.org 0x39 4 (64 * cl + m) 0 (1 + 2 ^ 8 * plane + 2 ^ 11 * group + 2 ^ 32 * (o.cursor % 2 ^ 32)) true
      (.mop k o.id) s

/-- The turn of an M word in flight (R219, R228, R233). -/
def mrow (k id : Nat) (bad : Option (Nat × Nat × Nat)) (s : State) : State :=
  let sl := s.slot k
  match sl.mops.find? (·.id == id) with
  | none => s
  | some o =>
    let cl := clusterOf k
    let secs := secsOf o.macs
    let step := match decodeCore o.org.word with
      | .ok (.mstep _ _ _ _) => true
      | _ => false
    if o.parked || decide (o.rows ≤ o.cursor) || !sl.mopReady o || s.pkg.stopped
      || secsWith secs (fun i => (s.sec cl i).recal) != []
      || (o.resumed && (s.cluster cl).arrdis &&& secs != 0)
      || (o.restored && secsWith secs (fun i => decide ((s.sec cl i).holder ≠ some k)) != [])
      || (sl.st == 5 && !(s.inst (sl.task.getD 0)).faulted) then s
    else match (if step then bad else none) with
      | some (p, g, m) => if o.macs.contains m && decide (p < 8) && decide (g < 4) then rowFails k o p g m s else s
      | none =>
        let s := match decodeCore o.org.word with
          | .ok (.mplane _ _ _) => planeRow k o s
          | .ok (.mstep _ _ _ row) => stepRow k o row.toNat s
          | .ok (.mdrain _ _ _ row) => drainRow k o row.toNat s
          | .ok (.mzero _ _ row) => zeroRow k (row.toNat + o.cursor) s
          | _ => s
        let s := setMop k { o with cursor := o.cursor + 1, forced := false, resumed := false } s
        if o.cursor + 1 = o.rows then dropIvals k o.id s else s

/-- Batches whose words have all retired complete in commit order (R220, R231), at most 15; one whose signal has to wait holds those
after it. -/
def endBatches (k : Nat) : Nat → State → State
  | 0, s => s
  | n + 1, s =>
    let sl := s.slot k
    match sl.batches with
    | [] => s
    | b :: bs =>
      if sl.mops.any (·.batch == b.num) then s
      else if s.signalWaits b.org 4 false then sendBisnp (s.signalLines b.org 4) s
      else endBatches k n (retireOp b.org 4 false (s.setSlot k { sl with batches := bs }))

/-- MATRIX_OP_RETIRE (R220, R221): an M word in flight whose rows are all done retires, and with it the batches it ends; a batch
whose signal had to wait ends. -/
def execMatrixOpRetire (k id : Nat) (s : State) : Host.Outcome State Fault Refusal := putOff s <|
  let sl := s.slot k
  match sl.mops.find? fun o => o.id == id && o.cursor == o.rows with
  | none => ok (endBatches k 16 s)
  | some o =>
    let s := s.setSlot k { sl with mops := sl.mops.filter (·.id ≠ id) }
    ok (endBatches k 16 (retireOp o.org 4 false s))

/-! ### The words -/

/-- MLEASE (R225). -/
def execMlease (tk m : BitVec 4) (s : State) : Host.Outcome State Fault Refusal :=
  runM { tk := tk } (fun _ _ s =>
    let k := s.sel.slot
    match secOff s k m with
    | some c => .bad c
    | none =>
      let need := m &&& ~~~heldSecs s k
      if need = 0 then mDone k tk s else .wait (askSecs k need s)) s

/-- MFREE (R225, R468). -/
def execMfree (tk m : BitVec 4) (s : State) : Host.Outcome State Fault Refusal :=
  runM { tk := tk } (fun _ sl s =>
    let k := s.sel.slot
    let cl := clusterOf k
    match secOff s k m with
    | some c => .bad c
    | none =>
      if sl.mops.any fun o => secsOf o.macs &&& m != 0 then .wait s
      else
        let s := (secsWith (m &&& heldSecs s k) fun _ => true).foldl (fun s i =>
          setSec cl i { s.sec cl i with holder := none, uses := 0, pass := false } s) s
        mDone k tk (s.modSlot k fun sl => { sl with lostSecs := sl.lostSecs &&& ~~~m })) s

/-- Causes at take that MPLANE and MSTEP share (R428): of 0x11, in the order of its reasons. -/
def descBad (d : Nat) (st : List Word) (afBad : Bool) (types : Nat → Bool) (runs : Option Nat) : Option Cause :=
  if mdNmac d = 0 ∨ 64 < mdFirst d + mdNmac d then some { code := 0x11, reason := 0x1B }
  else if mdWf d = 3 ∨ afBad then some { code := 0x11, reason := 0x1C }
  else if sSpace st ≠ 0 ∨ !types (sType st) then some { code := 0x11, reason := 0x1D }
  else if sCount st ≠ 0 ∧ (sCnt st 0 % 32 ≠ 0 ∨ sCnt st 0 < 32 ∨ 256 < sCnt st 0
      ∨ (match runs with
         | some n => decide (sRuns st ≠ n)
         | none => false) = true) then some { code := 0x11, reason := 0x1E }
  else none

/-- MPLANE (R226). -/
def execMplane (tk n : BitVec 4) (a : BitVec 5) (s : State) : Host.Outcome State Fault Refusal :=
  runM { tk := tk, xs := [a], st := some n, bad := fun _ d st =>
           descBad d st false (fun t => t == 0xB + mdWf d) (some (mdNmac d * wCols (mdWf d))) }
    (fun e sl s =>
      let d := (e.regs.headD 0).toNat
      useSecs s.sel.slot (secsOf (mMacs e.word d)) (streamBad sl e.s1) s fun s =>
        mFly s.sel.slot e tk (if sCount e.s1 = 0 then 0 else mdNmac d) s) s

/-- MSWAP (R227, R469). -/
def execMswap (tk : BitVec 4) (f c : BitVec 6) (a : BitVec 5) (s : State) : Host.Outcome State Fault Refusal :=
  runM { tk := tk, xs := [a], bad := fun _ _ _ =>
           if 64 < f.toNat + c.toNat + 1 then some { code := 0x11, reason := 0x1B } else none }
    (fun e sl s =>
      let k := s.sel.slot
      let cl := clusterOf k
      let ms := mMacs e.word 0
      let tag := (e.regs.headD 0).toNat % 65536
      let hit := fun s m => tag == 0 || ((s : State).mac cl m).shadow.tag.toNat == tag
      let bad := if ms.any fun m => (s.mac cl m).shadow.bad && hit s m then some { code := 0x39, reason := 4 } else none
      if sl.mops.any fun o => o.macs.any ms.contains then .wait s
      else useSecs k (secsOf ms) ((secOff s k (secsOf ms)).or bad) s fun s =>
        mDone k tk (ms.foldl (fun s m =>
          let v := s.mac cl m
          if hit s m then setMac cl m { active := v.shadow, shadow := v.active } s else setFlags k mxTAGX s) s)) s

/-- MSTEP (R228, R229). -/
def execMstep (tk n : BitVec 4) (a : BitVec 5) (_row : BitVec 11) (s : State) : Host.Outcome State Fault Refusal :=
  runM { tk := tk, xs := [a], st := some n, bad := fun _ d st =>
           match descBad d st (mdAf d == 3) (fun t => t == 0xB || t == 0xD || (t == 0 && mdAf d == 0)) none with
           | some c => some c
           | none =>
             if mdCut d ≠ 0 ∧ (mdAf d ≠ 2 ∨ sType st ≠ 0xB ∨ (mdCut d = 3 ∧ mdWf d = 2)) then
               some { code := 0x11, reason := 0x1F }
             else none }
    (fun e sl s =>
      let k := s.sel.slot
      let d := (e.regs.headD 0).toNat
      let ms := mMacs e.word d
      let bad := if ms.any fun m => (s.mac (clusterOf k) m).active.bad then some { code := 0x39, reason := 4 } else none
      let off := secOff s k (secsOf ms)
      useSecs k (secsOf ms) ((((streamBad sl e.s1).or (accBad sl (mRows e.word d e.s1 0))).or off).or bad) s fun s =>
        mFly k e tk (if sCount e.s1 = 0 then 0 else sRuns e.s1) s) s

/-- MCOMMIT (R220, R231). -/
def execMcommit (tk : BitVec 4) (sb : BitVec 1) (o : BitVec 6) (s : State) : Host.Outcome State Fault Refusal := putOff s <|
  runM { tk := tk, close := true, bad := fun sl _ _ =>
           let kind := (mget {} sl.cos o.toNat).kind
           if sb = 1 ∧ kind ≠ 1 ∧ kind ≠ 2 then some { code := 0x16, reason := 0x20 } else none }
    (fun e sl s =>
      let k := s.sel.slot
      if 15 ≤ sl.batches.length then .wait s
      else .go (endBatches k 16 (s.modSlot k fun sl =>
        { sl with batches := sl.batches ++ [{ num := e.batch, org := s.originOf k 1 e tk (sb == 1) o.toNat }] }))) s

/-- An M word that acts at take, once the M queue is empty and p holds (R232, R235). A result due at the word's tick is of
an earlier word and does not stand over what f writes (R58). -/
def mNow (tk : BitVec 4) (regs : List (BitVec 5)) (p : Slot → Bool) (f : State → State) (s : State) :
    Host.Outcome State Fault Refusal :=
  let k := s.sel.slot
  let sl := s.slot k
  if regs.any (sl.busyP .esq) || mget [] sl.queues 1 != [] || !p sl || !sl.tokReady 1 tk then ok s
  else ok (f (adv k .esq (s.modSlot k fun sl => (sl.tokTake 1 tk).tokGive 1 tk)))

/-- MWAITB (R232). -/
def execMwaitb (tk n : BitVec 4) (s : State) : Host.Outcome State Fault Refusal :=
  mNow tk [] (fun sl => decide (sl.batches.length ≤ n.toNat)) id s

/-- MDRAIN (R233); a stream of an MX type must have whole blocks in its runs (R98). -/
def execMdrain (tk n : BitVec 4) (a : BitVec 5) (_row : BitVec 11) (s : State) : Host.Outcome State Fault Refusal :=
  runM { tk := tk, xs := [a], st := some n, write := true, bad := fun _ d st =>
           let t := sType st
           let okT := if ddSrc d = 3 then t == 8 else [0, 1, 2, 8, 9, 0xA, 0xB, 0xC, 0xD].contains t
           if ddRows d = 0 ∨ sSpace st ≠ 0 ∨ !okT ∨ (sCount st ≠ 0 ∧ sCount st ≠ ddRows d * ddVals d) then
             some { code := 0x11, reason := 0x1D }
           else if sCount st ≠ 0 ∧ isMx t ∧ sCnt st 0 % 32 ≠ 0 then some { code := 0x11, reason := 0x1E }
           else none }
    (fun e sl s =>
      let k := s.sel.slot
      let d := (e.regs.headD 0).toNat
      match (streamBad sl e.s1).or (accBad sl (mRows e.word d e.s1 0)) with
      | some c => .bad c
      | none => mFly k e tk (if sCount e.s1 = 0 then 0 else ddRows d) s) s

/-- MZERO (R234). -/
def execMzero (tk : BitVec 4) (n : BitVec 9) (row : BitVec 11) (s : State) : Host.Outcome State Fault Refusal :=
  runM { tk := tk } (fun e sl s =>
    match accBad sl [(row.toNat, n.toNat + 1)] with
    | some c => .bad c
    | none => mFly s.sel.slot e tk (n.toNat + 1) s) s

/-- MSTAT (R222, R235). -/
def execMstat (tk : BitVec 4) (d : BitVec 5) (c : BitVec 1) (s : State) : Host.Outcome State Fault Refusal :=
  mNow tk [d] (fun sl => sl.mops == [] && sl.batches == []) (fun s =>
    let k := s.sel.slot
    let v := mxstWord s k
    s.modSlot k fun sl => ({ sl with mxst := if c = 1 then 0 else sl.mxst }).wx d v) s

/-! ### Leases and recalibration -/

/-- Every section of a mask is free and enabled, those of `but` counting as free (R216, R468). -/
def State.grantable (s : State) (cl : Nat) (m but : BitVec 4) : Bool :=
  m &&& (s.cluster cl).arrdis == 0
  && secsWith m (fun i => !but.getLsbD i && (s.sec cl i).holder.isSome) == []

/-- The request is granted whole (R216). -/
def grantSecs (cl k : Nat) (m : BitVec 4) (s : State) : State :=
  let c := s.cluster cl
  let s := s.setCluster cl { c with reqs := c.reqs.filter (·.1 ≠ k), lastReq := k % 16 }
  let s := (secsWith m fun _ => true).foldl (fun s i => setSec cl i { s.sec cl i with holder := some k, uses := 0, pass := false } s) s
  s.modSlot k fun sl => { sl with lostSecs := sl.lostSecs &&& ~~~m }

/-- LEASE_GRANT (R216, R225). -/
def execLeaseGrant (cl idx : Nat) (s : State) : Host.Outcome State Fault Refusal :=
  match (s.cluster cl).reqs[idx]? with
  | some (k, m) => if s.grantable cl m 0 then ok (grantSecs cl k m s) else ok s
  | none => ok s

/-- Order of the section arbiter: higher effective class, then the next slot round-robin (R216). -/
def State.reqFirst (s : State) (cl a b : Nat) : Bool :=
  let last := (s.cluster cl).lastReq
  let rr := fun k => (k % 16 + 31 - last) % 16
  decide ((s.slot b).eclass < (s.slot a).eclass) || ((s.slot a).eclass == (s.slot b).eclass && decide (rr a < rr b))

/-- A word in flight uses the section: a word of its holder that is still issuing takes its own course. -/
def State.secBusy (s : State) (k i : Nat) : Bool := (s.slot k).mops.any fun o => (secsOf o.macs).getLsbD i && !o.parked

/-- An M word that uses the section stands in its holder's M queue: the holder's next request (R216). -/
def State.nextUses (s : State) (k i : Nat) : Bool :=
  (mget [] (s.slot k).queues 1).any fun e => (secsOf (mMacs e.word (e.regs.headD 0).toNat)).getLsbD i
/-- The holder's sections that stand at a re-arbitration point: 256 uses made, and none of its words within them. -/
def State.atPoint (s : State) (cl h : Nat) : BitVec 4 :=
  (secsWith 0xF fun i => let v := s.sec cl i
    v.holder == some h && decide (256 ≤ v.uses) && !v.recal && !s.secBusy h i).foldl (fun m i => m ||| BitVec.twoPow 4 i) 0

/-- SECTION_REARBITRATE (R216): after 256 uses the section goes to the first of the requests that the holder's sections
at this point can fill and the holder's next request. While no other request waits the lease goes on with a fresh count;
while none of those that wait can be filled it goes on from word to word. -/
def execSectionRearbitrate (cl i : Nat) (s : State) : Host.Outcome State Fault Refusal :=
  let sec := s.sec cl i
  match sec.holder with
  | none => ok s
  | some h =>
    if !sec.spent ∨ sec.recal ∨ s.secBusy h i then ok s
    else
      let point := s.atPoint cl h
      let rivals := (s.cluster cl).reqs.filter fun r => r.1 ≠ h ∧ r.2.getLsbD i
      match rivals.filter fun r => s.grantable cl r.2 point with
      | [] => ok (setSec cl i (if rivals = [] then { sec with uses := 0, pass := false } else { sec with pass := true }) s)
      | r :: rs =>
        let best := rs.foldl (fun b r => if s.reqFirst cl r.1 b.1 then r else b) r
        if s.nextUses h i && s.reqFirst cl h best.1 then
          let s := setSec cl i { sec with uses := 0, pass := false } s
          ok (s.setCluster cl { s.cluster cl with lastReq := h % 16 })
        else ok ((grantSecs cl best.1 best.2 s).modSlot h fun sl => { sl with lostSecs := sl.lostSecs ||| (best.2 &&& point) })

/-- RECALIBRATION_START (R217): while the section is free, or at a re-arbitration point. -/
def execRecalibrationStart (cl i : Nat) (s : State) : Host.Outcome State Fault Refusal :=
  let sec := s.sec cl i
  let free := match sec.holder with
    | none => true
    | some h => sec.spent && !s.secBusy h i
  if decide (4 ≤ cl) || decide (4 ≤ i) || sec.recal || (s.cluster cl).arrdis.getLsbD i || !free then ok s
  else ok (setSec cl i { sec with recal := true } s)

/-- A record of the arrays that names no slot (R468, R469). -/
def arrayRecord (unit reason : Nat) (s : State) : State :=
  report { cause := 0x39, kind := 1, src := 4, unit := unit, info := BitVec.ofNat 64 reason } .none s

/-- RECALIBRATION_END (R217, R468, R469): a failure disables the section; planes that fail their parity check, given as
2 × macro, + 1 for the shadow plane, are marked bad. -/
def execRecalibrationEnd (cl i : Nat) (good : Bool) (bad : List Nat) (s : State) : Host.Outcome State Fault Refusal :=
  let sec := s.sec cl i
  if !sec.recal then ok s
  else
    let s := setSec cl i { sec with recal := false } s
    let s := (bad.filter fun p => p / 32 = i).foldl (fun s p =>
      let m := p / 2
      let v := s.mac cl m
      arrayRecord (64 * cl + m) 4 (setMac cl m (if p % 2 = 0 then { v with active := { v.active with bad := true } }
        else { v with shadow := { v.shadow with bad := true } }) s)) s
    if good then ok s
    else
      let c := s.cluster cl
      let s := s.setCluster cl { c with arrdis := c.arrdis ||| BitVec.twoPow 4 i }
      ok (arrayRecord (64 * cl + 16 * i) 2 (setSec cl i {} s))

end Sys2Proof.Machine
end

