-- ==== Sys2Proof/Machine/Transfer.lean ====
section
/-! DEFINITION. The transfer words (R241 to R248): how a T word is taken, queued and issued, and how COPY, GATH, SCAT,
HALO and gleaner pushes move their pieces (R242 to R247, R257, R444 to R449).
Readings and choices of the model: DESIGN CHOICE log entry 14; DEDUCED log entries 15, 29, 30, 31. -/

namespace Sys2Proof.Machine

/-! ### Taking a T word (R172, R242, R429) -/

/-- What a T word is: registers, streams, the causes found at take and the checker intervals of its footprints. -/
structure TTake where
  tk : BitVec 4
  xs : List (BitVec 5) := []
  s1 : Option (BitVec 4) := none
  s2 : Option (BitVec 4) := none
  bad : State → Slot → List Nat → List Word → List Word → Option Cause := fun _ _ _ _ _ => none
  ivs : Slot → List Nat → List Word → List Word → List (Nat × Nat × Bool) := fun _ _ _ _ => []

/-- The queue of a party's T words (R43). -/
def tQueue (p : Party) : Nat := if p = .helper then 3 else 2

/-- A T word enters the TA or the TH queue. -/
def takeT (o : TTake) (s : State) : Host.Outcome State Fault Refusal :=
  let k := s.sel.slot
  let sl := s.slot k
  let p := s.sel.party
  let q := tQueue p
  if o.xs.any (sl.busyP p) then ok s
  else
    let regs := o.xs.map (sl.rp p)
    let ns := regs.map (·.toNat)
    let st := fun (n : Option (BitVec 4)) => (n.map fun n => sl.stream n.toNat).getD []
    match o.bad s sl ns (st o.s1) (st o.s2) with
    | some c => stop c s
    | none =>
      let ivs := o.ivs sl ns (st o.s1) (st o.s2)
      if (if q = 2 then 32 else 8) ≤ (mget [] sl.queues q).length ∨ chkMax < sl.checker.length + ivs.length then ok s
      else
        let walk := sl.walkOf p
        let e : QEnt := { word := s.sel.word, pc := sl.pcOf p, walk := walk, id := sl.nextId, regs := regs,
                          s1 := st o.s1, s2 := st o.s2 }
        let s := s.setSlot k { sl with queues := mset [] sl.queues q (mget [] sl.queues q ++ [e]), nextId := sl.nextId + 1 }
        done (ivs.foldl (fun s v => addIval k e.id v.1 v.2.1 v.2.2 walk s) s)

/-- A T word: taken, or issued from its queue. -/
def runT (o : TTake) (f : Nat → QEnt → Slot → State → MIssue) (s : State) : Host.Outcome State Fault Refusal :=
  if s.sel.issue then issueWord (tQueue s.sel.party) o.tk (f (tQueue s.sel.party)) s else takeT o s

/-- The word retires as it issues. -/
def tDone (k q : Nat) (tk : BitVec 4) (s : State) : MIssue := .go (s.modSlot k fun sl => sl.tokGive q tk)

/-- The completion object of a T word with S = 1 (R429): an arrival barrier for those that take one, no arrival barrier
for the others. -/
def coBad (sl : Slot) (sb : Bool) (co : Nat) (ring : Bool) : Option Cause :=
  let kind := (mget {} sl.cos co).kind
  if sb && (if ring then kind != 3 else kind == 0 || kind == 3) then some { code := 0x16, reason := 0x20 } else none

/-! ### The walk of a transfer -/

/-- Bits 63:57 zero, alignment, and the pieces of R438, each answer with reason and faulting address. -/
structure XBad where
  code : Nat := 0
  reason : Nat := 0
  val : Nat := 0
deriving DecidableEq, Repr, Inhabited

def XOp.gather (o : XOp) : Bool := o.kind == .gath || o.kind == .scat
def XOp.srcGl (o : XOp) : Bool := match o.kind with
  | .copySp | .copyGl | .ring | .gath => sSpace o.s1 == 1
  | .scat | .halo => false
  | .push => true
def XOp.dstGl (o : XOp) : Bool := o.kind == .copyGl || (o.kind == .scat && sSpace o.s1 == 1)
/-- The destination is a ring slot. -/
def XOp.toRing (o : XOp) : Bool := o.kind == .ring || o.kind == .push
/-- Slots whose windows hold the scratchpad source and destination. -/
def XOp.srcSlot (o : XOp) : Nat := if o.kind = .halo then o.peer else o.org.slot
def XOp.dstSlot (o : XOp) : Nat := if o.kind = .push then o.peer else o.org.slot

/-- Elements of a unit (R72), units of a block with its scale, and units of the whole walk (R257). -/
def XOp.ue (o : XOp) : Nat := if o.gather then 1 else unitElems (sType o.s1)
def XOp.scaled (o : XOp) : Bool := o.kind == .push && o.sc && isMx (sType o.s1)
def XOp.perBlk (o : XOp) : Nat := 32 / o.ue + 1
def XOp.units (o : XOp) : Nat :=
  if o.gather then sCount o.s2 * sCnt o.s1 0
  else if o.scaled then sCount o.s1 / 32 * o.perBlk
  else sCount o.s1 / o.ue
/-- The resume cursor of R444 for unit j: its first element, or item of the sequence of R257. -/
def XOp.itemOf (o : XOp) (j : Nat) : Nat :=
  if o.scaled then
    let r := j % o.perBlk
    j / o.perBlk * 33 + if r + 1 = o.perBlk then 32 else r * o.ue
  else j * o.ue

/-- Element m of the index stream, as memory holds it now (R246). -/
def State.readIndex (s : State) (o : XOp) (m : Nat) : Int :=
  let t := sType o.s2
  let v := leNat (s.slotSpRead o.org.slot (srcAddr o.s2 m) (typeBits t / 8))
  if isSigned t then sext (typeBits t) v else (v : Int)
/-- Element m of the index stream: the row that the cursor stands in has read it already (R246). -/
def State.xIndex (s : State) (o : XOp) (m : Nat) : Int :=
  match o.idx with
  | some (r, v) => if r = m then v else s.readIndex o m
  | none => s.readIndex o m

/-- Unit j of the walk: source address, destination address or offset in the ring slot, bytes, alignment. -/
structure XUnit where
  src : Nat
  dst : Int
  len : Nat
  al : Nat
deriving DecidableEq, Repr, Inhabited

def State.xUnit (s : State) (o : XOp) (j : Nat) : XUnit :=
  let t := sType o.s1
  let b := typeBits t / 8
  if o.gather then
    let m := j / sCnt o.s1 0
    let i0 := j % sCnt o.s1 0
    let far := addr64 (sBase o.s1 + s.xIndex o m * sSrc o.s1 1 + i0 * sSrc o.s1 0)
    let near := addr64 (o.base.toNat + m * sDst o.s1 1 + i0 * sDst o.s1 0)
    if o.kind = .gath then { src := far, dst := near, len := b, al := b } else { src := near, dst := far, len := b, al := b }
  else if o.scaled && (j % o.perBlk + 1 == o.perBlk) then
    let blk := j / o.perBlk
    { src := scaleAddr o.s1 (32 * blk), dst := o.dscale + blk, len := 1, al := 1 }
  else
    let n := if o.scaled then j / o.perBlk * 32 + j % o.perBlk * o.ue else j * o.ue
    let len := if isMx t then unitBytes t else b
    let d := dstOff o.s1 n
    { src := srcAddr o.s1 n, dst := if o.toRing then d else addr64 (o.base.toNat + d), len := len,
      al := if isMx t then 1 else b }

/-- Address of the claimed ring slot in its window, and its size (R249, R252). -/
def State.ringAt (s : State) (o : XOp) : Nat × Nat :=
  let c := mget {} (s.slot o.dstSlot).cos o.ringCo
  (c.slotAddr o.ringSlot, c.ssize)

/-- Destination address of a unit, window-relative or global. -/
def State.xDst (s : State) (o : XOp) (u : XUnit) : Int := if o.toRing then (s.ringAt o).1 + u.dst else u.dst

/-! ### Overlapping footprints (R242) -/

/-- Bounds of the destination, as written addresses. -/
def XOp.dstSpan (o : XOp) : Int × Int := let b := dstBounds o.s1; (o.base.toNat + b.1, o.base.toNat + b.2)
/-- Near-side bounds of GATH and SCAT. -/
def XOp.nearSpan (o : XOp) : Int × Int :=
  let rows := sCount o.s2
  let c := sCnt o.s1 0
  let b : Int := (typeBits (sType o.s1) / 8 : Nat)
  (o.base.toNat + levelMin rows (sDst o.s1 1) + levelMin c (sDst o.s1 0),
   o.base.toNat + levelMax rows (sDst o.s1 1) + levelMax c (sDst o.s1 0) + b - 1)
def spansMeet (a b : Int × Int) : Bool := decide (a.1 ≤ b.2) && decide (b.1 ≤ a.2)

/-- Source and destination footprints overlap: the operation runs one element per piece (R242). A GATH or SCAT whose far
side is scratchpad counts as overlapping, its far footprint being known only from the indices. -/
def State.xSerial (s : State) (o : XOp) : Bool :=
  match o.kind with
  | .copySp => !o.srcGl && spansMeet (srcBounds o.s1) o.dstSpan
  | .copyGl => o.srcGl && spansMeet (srcBounds o.s1) o.dstSpan
  | .halo => o.peer == o.org.slot && spansMeet (srcBounds o.s1) o.dstSpan
  | .ring =>
    let (a, n) := s.ringAt o
    !o.srcGl && spansMeet (srcBounds o.s1) (a, (a + n : Int) - 1)
  | .gath => !o.srcGl || spansMeet (srcBounds o.s2) o.nearSpan
  | .scat => !o.dstGl
  | .push => false

/-! ### Checking a piece (R438, R444) -/

/-- Bytes of an access to a slot's window, by core address. -/
def spSide (sl : Slot) (reason : Nat) (a : Int) (n al : Nat) : Sum XBad (List Nat) :=
  if a % al ≠ 0 then .inl { code := 0x23, reason := 0x61, val := addr64 a }
  else if a < 0 ∨ (sl.spSize : Int) < a + n then
    .inl { code := 0x22, reason := reason, val := if a < 0 then addr64 a else max a.toNat sl.spSize }
  else .inr ((List.range n).map fun i => sl.spBase + a.toNat + i)

/-- Bytes of a write into a ring slot (R252, R449). -/
def ringSide (sl : Slot) (base size : Nat) (off : Int) (n al : Nat) : Sum XBad (List Nat) :=
  if (base + off) % al ≠ 0 then .inl { code := 0x23, reason := 0x61, val := addr64 (base + off) }
  else if off < 0 then .inl { code := 0x24, val := addr64 (base + off) }
  else if (size : Int) < off + n then .inl { code := 0x24, val := base + max off.toNat size }
  else .inr ((List.range n).map fun i => sl.spBase + base + off.toNat + i)

/-- Bytes of a global access, by physical address, and whether the page has GEX. -/
def glSide (tier space a n al : Nat) (w : Want) (s : State) : Sum XBad (List Nat × Bool) × State :=
  if 2 ^ 57 ≤ a then (.inl { code := 0x23, reason := 0x60, val := a }, s)
  else if a % al ≠ 0 then (.inl { code := 0x23, reason := 0x61, val := a }, s)
  else match xlRange tier space w 3 a n s with
    | (.inl (v, c, r), s) => (.inl { code := c, reason := if c = 0x30 then 0x71 else r, val := v }, s)
    | (.inr l, s) =>
      match (if w = .read then none else l.find? fun r => s.pclass r.1 == .host && s.pkg.fenced) with
      | some _ => (.inl { code := 0x50, reason := 4, val := a }, s)
      | none => (.inr (l.flatMap (fun r => (List.range r.2.1).map (r.1 + ·)), l.all fun r => pteGex r.2.2), s)

/-- A unit's checks: its index, its source, its destination; a failure with its SIDE (R445). -/
def xUnitCheck (o : XOp) (tier j : Nat) (s : State) : Sum (XBad × Bool) (List Nat × List Nat × Bool) × State :=
  let far := fun (b : Bool) => o.kind == .scat && b || o.kind != .scat && !b
  let ib : Sum XBad (List Nat) := if o.gather then
      spSide (s.slot o.org.slot) 0x5C (srcAddr o.s2 (j / sCnt o.s1 0)) (typeBits (sType o.s2) / 8) (typeBits (sType o.s2) / 8)
    else .inr []
  match ib with
  | .inl b => (.inl (b, true), s)
  | .inr _ =>
    let u := s.xUnit o j
    let (src, s) := if o.srcGl then glSide tier o.space u.src u.len u.al .read s
      else match spSide (s.slot o.srcSlot) (if o.kind = .halo then 0x5E else 0x5C) u.src u.len u.al with
        | .inl b => (.inl b, s)
        | .inr l => (.inr (l, false), s)
    match src with
    | .inl b => (.inl (b, !far false), s)
    | .inr (sb, _) =>
      let (dst, s) := if o.dstGl then glSide tier o.space u.dst.toNat u.len u.al .write s
        else
          let r := if o.toRing then
              let (a, n) := s.ringAt o
              ringSide (s.slot o.dstSlot) a n u.dst u.len u.al
            else spSide (s.slot o.dstSlot) 0x5C u.dst u.len u.al
          match r with
          | .inl b => (.inl b, s)
          | .inr l => (.inr (l, false), s)
      match dst with
      | .inl b => (.inl (b, !far true), s)
      | .inr (db, g) => (.inr (sb, db, g), s)

/-- Line of the first byte and of the last byte of n bytes. -/
def oneLine (a : Int) (n : Nat) : Option Int := if a / 64 = (a + n - 1) / 64 then some (a / 64) else none

/-- Units of the piece that begins at unit j: those that follow in the same two lines (R444). -/
def State.xExtent (s : State) (o : XOp) : Nat → Nat → Int → Int → Nat
  | 0, _, _, _ => 0
  | n + 1, j, a, b =>
    if j < o.units then
      let u := s.xUnit o j
      if oneLine u.src u.len = some a ∧ oneLine (s.xDst o u) u.len = some b then 1 + s.xExtent o n (j + 1) a b else 0
    else 0

def State.xPiece (s : State) (o : XOp) : Nat :=
  if s.xSerial o then 1
  else
    let u := s.xUnit o o.cursor
    match oneLine u.src u.len, oneLine (s.xDst o u) u.len with
    | some a, some b => 1 + s.xExtent o (o.units - o.cursor) (o.cursor + 1) a b
    | _, _ => 1

/-- Checks units j to j + n - 1 in order, joining their bytes. -/
def xUnits (o : XOp) (tier : Nat) : Nat → Nat → List Nat × List Nat × Bool → State →
    Sum (XBad × Bool) (List Nat × List Nat × Bool) × State
  | 0, _, acc, s => (.inr acc, s)
  | n + 1, j, acc, s =>
    match xUnitCheck o tier j s with
    | (.inl b, s) => (.inl b, s)
    | (.inr (a, b, g), s) => xUnits o tier n (j + 1) (acc.1 ++ a, acc.2.1 ++ b, acc.2.2 && g) s

/-- INFO of a parked operation (R445). -/
def xInfo (o : XOp) (side : Bool) (reason : Nat) : Nat :=
  let top := if o.kind = .push then 0x05 * 2 ^ 59 else (o.org.word.extractLsb' 20 5).toNat * 2 ^ 56
  let sb := if o.kind != .push && o.org.sbit then 2 ^ 55 else 0
  let co := if o.kind = .push then o.link else o.org.co
  top + sb + co * 2 ^ 49 + (if side then 2 ^ 48 else 0) + reason % 256 * 2 ^ 40 + o.itemOf o.cursor % 2 ^ 40

/-- Where a transfer in flight is kept: on a core, or a push of a gleaner context. -/
inductive XHome where
  | core (c : Nat)
  | ctx (c : Nat)
deriving DecidableEq, Repr, Inhabited

def State.xops (s : State) : XHome → List XOp
  | .core c => (s.core c).xops
  | .ctx c => (s.ctx c).pushes
def setXops (h : XHome) (l : List XOp) (s : State) : State :=
  match h with
  | .core c => s.modCore c fun v => { v with xops := l }
  | .ctx c => s.setCtx c { s.ctx c with pushes := l }
def setXop (h : XHome) (o : XOp) (s : State) : State :=
  setXops h ((s.xops h).map fun x => if x.id = o.id then o else x) s
def XHome.tier : XHome → Nat
  | .core c => tierXfer c
  | .ctx c => tierGlean (c % 256 / 8)

/-- The piece fails (R444, R445): the operation parks with its cursor there. -/
def parkXop (h : XHome) (o : XOp) (b : XBad) (side : Bool) (s : State) : State :=
  let o := { o with parked := true }
  let (src, unit, tgt, info) : Nat × Nat × FTarget × Nat := match h with
    | .core c => (3, c, .xfer c o.id, 0)
    | .ctx c => (5, c / 8, .push c o.id, c % 8 * 2 ^ 56)
  asyncRecord o.org b.code src unit b.val (xInfo o side b.reason + info) true tgt (setXop h o s)

/-- The word behind the operation has been passed by both sequencers (R46); helper words carry no index (R48). -/
def XOp.passed (o : XOp) (s : State) : Bool := match o.walk with
  | some i => (s.slot o.org.slot).bothPassed (queueParty o.org.queue) i
  | none => true

/-- The checker lets the operation's scratchpad reads or writes begin. -/
def XOp.mayTouch (o : XOp) (write : Bool) (s : State) : Bool :=
  o.passed s && (s.slot o.org.slot).checkedBy o.org.id write

/-- Two byte lists meet. -/
def bytesMeet (a b : List Nat) : Bool := a.any b.contains
/-- Source and destination of the operation lie in one storage. -/
def XOp.sameStore (o : XOp) : Bool :=
  if o.srcGl then o.dstGl else !o.dstGl && coreOf o.srcSlot == coreOf o.dstSlot

/-- The next piece is checked (R438, R444). GATH and SCAT read their indices here. -/
def xCheck (h : XHome) (o : XOp) (s : State) : State :=
  let waits := match o.wait with
    | some (id, gen) => decide (32768 ≤ (mget 0 (s.slot o.org.slot).seen id + 65536 - gen) % 65536)
    | none => false
  if o.parked || decide (o.units ≤ o.cursor) || waits || (o.gather && !o.mayTouch false s)
    || (s.xSerial o && o.chunks != []) then s
  else
    let n := s.xPiece o
    -- a piece whose own bytes overlap in memory is moved one element at a time (R242)
    let n := match xUnits o h.tier n o.cursor ([], [], true) s with
      | (.inr (a, b, _), _) => if o.sameStore && bytesMeet a b then 1 else n
      | _ => n
    match xUnits o h.tier n o.cursor ([], [], true) s with
    | (.inl (b, side), s) => parkXop h o b side s
    | (.inr (a, b, g), s) =>
      let us := (List.range n).map fun i => s.xUnit o (o.cursor + i)
      let first := (if o.srcGl then us.map fun u => (u.src, u.len) else []) ++ (if o.dstGl then us.map fun u => (u.dst.toNat, u.len) else [])
      let vas := first.map (·.1) ++ first.map fun u => u.1 + u.2 - 1
      let row := (o.cursor + n - 1) / sCnt o.s1 0
      setXop h { o with cursor := o.cursor + n, idx := if o.gather then some (row, s.xIndex o row) else none, chunks := o.chunks ++
        [{ start := o.cursor, len := n, src := a, dst := b, gex := g, vas := vas }] } s

/-- A byte of the source as the operation reads it: scratchpad, or memory with the stores of the core and the held
writes of the task that it sees (R122, R129). -/
def State.xByte (s : State) (o : XOp) (a : Nat) : Byte :=
  if !o.srcGl then byteAt (s.core (coreOf o.srcSlot)).sp a
  else heldByte ((s.inst o.org.task).seenBy o.org) a (if o.kind = .push then s.physByte a else s.coreByte (coreOf o.org.slot) a)

/-- A read of n bytes of the source at an address meets a poisoned word or a failed host request: cause and reason. -/
def xPoison (o : XOp) (a n : Nat) (s : State) : Option (Nat × Nat) × State :=
  if !o.srcGl then (none, s)
  else match s.hostErr a n with
    | some e => (some (0x50, e), forgetErr a n s)
    | none => match touchRead a n s with
      | (some _, s) => (some (0x38, 0x70), s)
      | (none, s) => (none, s)

/-- The virtual source address of byte i of the piece (R445). -/
def State.chunkVa (s : State) (o : XOp) (c : Chunk) (i : Nat) : Nat :=
  let r := (List.range c.len).foldl (fun (p : Nat × Option Nat) j =>
    let n := (s.xUnit o (c.start + j)).len
    (p.1 + n, if p.2.isNone && decide (i < p.1 + n) then some (c.vas.getD j 0 + (i - p.1)) else p.2)) (0, none)
  r.2.getD 0

/-- The single-copy atomic units of a piece, as place and length: runs of addresses within aligned units of m bytes (R110). -/
def groupsOf (m : Nat) : Nat → List Nat → List (Nat × Nat)
  | _, [] => []
  | i, a :: l => match groupsOf m (i + 1) l with
    | [] => [(i, 1)]
    | (j, n) :: gs => if l.head? = some (a + 1) ∧ a / m = (a + 1) / m then (i, n + 1) :: gs else (i, 1) :: (j, n) :: gs
/-- Bytes of a single-copy atomic unit in global memory and in scratchpad (R92, R110). -/
def unitBound (gl : Bool) : Nat := if gl then 8 else 16
/-- The unit that is moved next: which of those left comes first is free (R124). -/
def pickGroup (l : List (Nat × Nat)) (s : State) : (Nat × Nat) × State :=
  if l.length ≤ 1 then (l.headD (0, 0), s)
  else
    let (w, s) := s.takeFree
    (l.getD (w.toNat % l.length) (0, 0), s)

/-- Every byte of the piece has been read. -/
def Chunk.isRead (c : Chunk) : Bool := c.got.length == c.src.length
/-- The byte read for place i. -/
def Chunk.byte (c : Chunk) (i : Nat) : Byte := (c.got.find? (·.1 == i)).elim 0 (·.2)

/-- A unit of piece number k of those in flight is read (R110, R242): after earlier pieces that write its source. A poisoned line
fails the piece (R459). -/
def xRead (h : XHome) (o : XOp) (k : Nat) (s : State) : State :=
  match o.chunks[k]? with
  | none => s
  | some c =>
    let prior := o.chunks.take k
    if c.isRead || (o.sameStore && prior.any fun p => bytesMeet p.dst c.src)
      || (!o.srcGl && o.kind != .halo && !o.mayTouch false s) then s
    else
      let ((i, n), s1) := pickGroup ((groupsOf (unitBound o.srcGl) 0 c.src).filter fun g => !c.got.any (·.1 == g.1)) s
      let as := (c.src.drop i).take n
      let ls := (as.map lineOf).eraseDups
      let agent := match h with
        | .core c => c
        | .ctx _ => 16
      if o.srcGl && !s.canAccess agent ls then sendData ls s
      else match xPoison o (as.headD 0) n s1 with
        | (some (code, r), s) =>
          parkXop h { o with cursor := c.start, chunks := prior }
            { code := code, reason := r, val := s.chunkVa o c i } (o.kind == .scat) s
        | (none, s) =>
          let bs := as.map (s.xByte o)
          let s := match h with
            | .core n => if o.srcGl then coReads n ls s else s
            | .ctx _ => s
          setXop h { o with chunks := o.chunks.set k { c with got := c.got ++ ((List.range n).map (i + ·)).zip bs } } s

/-- Bytes with their addresses as runs of consecutive addresses. -/
def runsOf : List (Nat × Byte) → List (Nat × List Byte)
  | [] => []
  | (a, b) :: l =>
    match runsOf l with
    | (c, ds) :: rs => if c = a + 1 then (a, b :: ds) :: rs else (a, [b]) :: (c, ds) :: rs
    | [] => [(a, [b])]

/-- A piece of 64 bytes in order to the launch port is a launch (R319). -/
def Chunk.launch (c : Chunk) : Bool := c.dst == (List.range 64).map (unprivBase + 0x1000 + ·)

/-- A unit of piece number k is written (R110, R242, R444): every earlier piece has been read, and no earlier one that writes the
same bytes is left. A launch is written whole. -/
def xWrite (h : XHome) (o : XOp) (k : Nat) (s : State) : State :=
  match o.chunks[k]? with
  | none => s
  | some c =>
    let prior := o.chunks.take k
    if !c.isRead || prior.any (fun p => !p.isRead || bytesMeet p.dst c.dst)
      || (!o.dstGl && !o.toRing && !o.mayTouch true s) then s
    else
      let gs := (groupsOf (unitBound o.dstGl) 0 c.dst).filter fun g => !c.put.contains g.1
      let ((i, n), s1) := if c.launch then ((0, 64), s) else pickGroup gs s
      let rest := if gs.length ≤ 1 ∨ c.launch then { o with chunks := o.chunks.eraseIdx k }
        else { o with chunks := o.chunks.set k { c with put := i :: c.put } }
      let a := c.dst.getD i 0
      let bs := (List.range n).map fun j => c.byte (i + j)
      if o.dstGl then
        let t := o.org.task
        if s.putWaits t [lineOf a] then sendBisnp (s.taskLines t [lineOf a]) s
        else
          let s := setXop h rest s1
          if c.launch then launchArrive (BitVec.ofNat 512 (leNat bs)) s else holdOr t (some o.org) (.bytes a bs) c.gex s
      else slotSpWrite o.dstSlot (a - (s.slot o.dstSlot).spBase) bs (setXop h rest s1)

/-- The turn of a transfer: act 0 checks its next piece, 1 reads piece k, 2 writes piece k. While its slot, or the slot
whose ring it fills, is being saved it begins no piece (R474, R476). -/
def xTurn (h : XHome) (id act k : Nat) (s : State) : State :=
  match (s.xops h).find? (·.id == id) with
  | none => s
  | some o =>
    let away := match o.kind with
      | .push => decide (64 ≤ o.peer) || (act == 0 && (s.slot o.peer).st == 5)
      | .halo => (s.slot o.peer).task != some o.org.task
      | _ => false
    let cut := o.kind != .push && act == 0 && (s.slot o.org.slot).st == 5 && !(s.inst o.org.task).faulted
    if s.pkg.stopped || away || cut then s
    else if act = 0 then xCheck h o s else if act = 1 then xRead h o k s else xWrite h o k s

/-- Every piece of the walk has been written. -/
def XOp.isDone (o : XOp) : Bool := !o.parked && decide (o.units ≤ o.cursor) && o.chunks == [] && o.wait.isNone
/-- An operation without elements still waits for its phase (R247). -/
def State.xDone (s : State) (o : XOp) : Bool :=
  { o with wait := none }.isDone && match o.wait with
    | some (id, gen) => decide ((mget 0 (s.slot o.org.slot).seen id + 65536 - gen) % 65536 < 32768)
    | none => true

/-- The claimed ring slot becomes filled (R250). -/
def fillSlot (k co i : Nat) (s : State) : State :=
  s.modSlot k fun sl =>
    let c := mget {} sl.cos co
    { sl with cos := mset {} sl.cos co { c with filled := c.filled ||| BitVec.twoPow 256 i } }

/-- TRANSFER_OP_RETIRE (R240, R241): a COPY, GATH, SCAT or HALO whose walk is done retires. -/
def execTransferOpRetire (c id : Nat) (s : State) : Host.Outcome State Fault Refusal := putOff s <|
  match (s.core c).xops.find? (·.id == id) with
  | none => ok s
  | some o =>
    if !s.xDone o then ok s
    else ok (whenSignal o.org 3 false s fun s =>
      let s := setXops (.core c) ((s.core c).xops.filter (·.id ≠ id)) s
      let s := dropIvals o.org.slot o.org.id s
      let s := if o.kind = .ring then fillSlot o.org.slot o.ringCo o.ringSlot s else s
      retireOp o.org 3 false s)

/-! ### The words -/

/-- Causes of 0x11 of a stream of a T word, in the order of its reasons (R96, R98, R429). -/
def tStreamBad (st : List Word) (mxOk : Bool) : Bool :=
  sType st == 0xF || (isMx (sType st) && (!mxOk || sCnt st 0 % 32 != 0))

/-- An operation of the transfer engine begins (R241): at most 512 in flight. -/
def xStart (k q : Nat) (e : QEnt) (tk : BitVec 4) (sb : Bool) (co : Nat) (kind : XKind) (f : XOp → XOp) (s : State) : MIssue :=
  let c := s.core (coreOf k)
  if 512 ≤ c.xops.length then .wait s
  else
    let o : XOp := { id := c.nextOp, kind := kind, org := s.originOf k q e tk sb co, walk := e.walk, s1 := e.s1, s2 := e.s2,
                     base := e.regs.headD 0, peer := k, space := (s.slot k).space }
    .go (s.setCore (coreOf k) { c with xops := c.xops ++ [f o], nextOp := c.nextOp + 1 })

/-- Interval of a footprint in the slot's window. -/
def ivOf (p : Int × Int) (w : Bool) : Nat × Nat × Bool := (p.1.toNat, p.2.toNat, w)

/-- Checker intervals of COPY (R45, R242): MX scales are not moved, and ring writes lie outside the checker (R251). -/
def copyIvs (d : BitVec 2) (ring : Bool) (base : Nat) (st : List Word) : List (Nat × Nat × Bool) :=
  if sCount st = 0 then []
  else
    let b := dstBounds st
    (if sSpace st = 0 then [ivOf (srcBounds st) false] else [])
      ++ (if !ring && d == 0 then [ivOf (base + b.1, base + b.2) true] else [])

/-- COPY (R244, R245, R250). -/
def execCopy (tk n : BitVec 4) (a : BitVec 5) (d : BitVec 2) (g t : BitVec 1) (c : BitVec 6) (s : State) :
    Host.Outcome State Fault Refusal :=
  runT { tk := tk, xs := [a], s1 := some n,
         bad := fun _ _ _ st _ =>
           if tStreamBad st true then some { code := 0x11, reason := 0x1D }
           else if 2 ≤ d.toNat ∨ (g = 1 ∧ (d ≠ 0 ∨ t = 0)) ∨ 2 ≤ sSpace st then some { code := 0x11, reason := 0x24 }
           else none,
         ivs := fun _ ns st _ => copyIvs d (g == 1) (ns.headD 0) st }
    (fun q e sl s =>
      let k := s.sel.slot
      match coBad sl (t == 1) c.toNat (g == 1) with
      | some b => .bad b
      | none =>
        if g = 1 then match e.claim with
          | none => .wait s
          | some i => xStart k q e tk true c.toNat .ring (fun o => { o with ringCo := c.toNat, ringSlot := i }) s
        else xStart k q e tk (t == 1) c.toNat (if d = 0 then .copySp else .copyGl) id s) s

/-- Causes of GATH and SCAT at take (R246, R429). -/
def gathBad (far ix : List Word) : Option Cause :=
  if tStreamBad far false || sSpace ix != 0 || !isInt (sType ix) then some { code := 0x11, reason := 0x1D }
  else if 2 ≤ sSpace far then some { code := 0x11, reason := 0x24 }
  else none

/-- Intervals of GATH (w false) and SCAT (w true): near side, index stream, and the whole window for a far side in
scratchpad, whose footprint the indices decide. -/
def gathIvs (sl : Slot) (w : Bool) (base : Nat) (far ix : List Word) : List (Nat × Nat × Bool) :=
  if sCount ix * sCnt far 0 = 0 then []
  else
    let o : XOp := { kind := .gath, s1 := far, s2 := ix, base := BitVec.ofNat 64 base }
    [ivOf o.nearSpan (!w), ivOf (srcBounds ix) false]
      ++ if sSpace far = 0 then [(0, sl.spSize - 1, w)] else []

/-- GATH (R246). -/
def execGath (tk n m : BitVec 4) (a : BitVec 5) (t : BitVec 1) (c : BitVec 6) (s : State) :
    Host.Outcome State Fault Refusal :=
  runT { tk := tk, xs := [a], s1 := some n, s2 := some m, bad := fun _ _ _ f i => gathBad f i,
         ivs := fun sl ns f i => gathIvs sl false (ns.headD 0) f i }
    (fun q e sl s => match coBad sl (t == 1) c.toNat false with
      | some b => .bad b
      | none => xStart s.sel.slot q e tk (t == 1) c.toNat .gath id s) s

/-- SCAT (R246). -/
def execScat (tk n m : BitVec 4) (a : BitVec 5) (t : BitVec 1) (c : BitVec 6) (s : State) :
    Host.Outcome State Fault Refusal :=
  runT { tk := tk, xs := [a], s1 := some n, s2 := some m, bad := fun _ _ _ f i => gathBad f i,
         ivs := fun sl ns f i => gathIvs sl true (ns.headD 0) f i }
    (fun q e sl s => match coBad sl (t == 1) c.toNat false with
      | some b => .bad b
      | none => xStart s.sel.slot q e tk (t == 1) c.toNat .scat id s) s

/-- Fields of the HALO descriptor (R247). -/
def haloGen (d : Nat) : Nat := bits d 47 32
def haloMember (d : Nat) : Nat := bits d 27 24
def haloDst (d : Nat) : Nat := bits d 23 0

/-- HALO (R247, R429). -/
def execHalo (tk n : BitVec 4) (a i : BitVec 5) (c : BitVec 6) (s : State) : Host.Outcome State Fault Refusal :=
  let peerOf := fun (s : State) (d : Nat) =>
    ((s.inst ((s.slot s.sel.slot).task.getD 0)).slots[haloMember d]?)
  runT { tk := tk, xs := [a], s1 := some n,
         bad := fun s sl ns st _ =>
           let d := ns.headD 0
           let far := match peerOf s d with
             | some p => clusterOf p != clusterOf s.sel.slot
             | none => true
           let ids := tBarids (s.typeEnt (s.inst (sl.task.getD 0)).type)
           if tStreamBad st true then some { code := 0x11, reason := 0x1D }
           else if sSpace st ≠ 0 then some { code := 0x11, reason := 0x24 }
           else if far || !bit ids i.toNat then some { code := 0x11, reason := 0x25 }
           else none,
         ivs := fun _ ns st _ =>
           if sCount st = 0 then []
           else
             let b := dstBounds st
             let d : Int := haloDst (ns.headD 0)
             [ivOf (d + b.1, d + b.2) true] }
    (fun q e sl s => match coBad sl true c.toNat false with
      | some b => .bad b
      | none =>
        let d := (e.regs.headD 0).toNat
        xStart s.sel.slot q e tk true c.toNat .halo (fun o =>
          { o with base := BitVec.ofNat 64 (haloDst d), peer := (peerOf s d).getD s.sel.slot,
                   wait := if haloGen d = 0 then none else some (i.toNat, haloGen d) }) s) s

/-- HSPAWN (R47, R248, R429): waits while the helper runs. -/
def execHspawn (tk : BitVec 4) (a b d : BitVec 5) (s : State) : Host.Outcome State Fault Refusal :=
  runT { tk := tk, xs := [a, b, d], bad := fun _ _ ns _ _ =>
           if ns.getD 1 0 % 8 ≠ 0 then some { code := 0x23, reason := 0x61, val := ns.getD 1 0 } else none }
    (fun _ e sl s =>
      let r := fun i => e.regs.getD i 0
      match spBad sl (r 1).toNat 8 with
      | some c => .bad c
      | none =>
        if sl.helper.run then .wait s
        else .go (s.modSlot s.sel.slot fun sl =>
          { sl with helper := { pc := r 0, h := mset 0 [] 1 (r 2), run := true, flag := r 1, tok := tk } })) s

/-- HELPER_END (R48, R248): once the helper's T words have retired, h1 is written to the flag and HSPAWN retires. -/
def execHelperEnd (k : Nat) (s : State) : Host.Outcome State Fault Refusal :=
  let sl := s.slot k
  let h := sl.helper
  let f := h.flag.toNat
  let busy := (s.core (coreOf k)).xops.any (fun x => x.org.slot == k && x.org.queue == 3)
    || s.eops.any (fun e => s.slotOf e.2.org == some k && e.2.org.queue == 3)
    || s.gctx.any fun g => g.2.run && s.slotOf g.2.org == some k && g.2.org.queue == 3
  if !h.run || !h.ending || mget [] sl.queues 3 != [] || busy || !(sl.st == 1 || sl.st == 2 || sl.st == 3 || sl.st == 4)
    || sl.checker.any fun v => decide (v.lo ≤ f + 7) && decide (f ≤ v.hi) then ok s
  else
    let s := slotSpWrite k f (leBytes (mget 0 h.h 1).toNat 8) s
    ok (progress k (s.modSlot k fun sl => { sl.tokGive 2 h.tok with helper := {} }))

/-- The ring claim of a filler: the slot's next ring slot, if one is free (R250). -/
def claimRing (k co : Nat) (s : State) : Option (Nat × State) :=
  let sl := s.slot k
  let c := mget {} sl.cos co
  if c.kind ≠ 3 ∨ c.free = 0 then none
  else some (c.next, s.setSlot k { sl with cos := mset {} sl.cos co { c with next := (c.next + 1) % c.ns, free := c.free - 1 } })

end Sys2Proof.Machine
end

