-- ==== Sys2Proof/Machine/Gleaner.lean ====
section
/-! DEFINITION. Gleaners (R253 to R258): GLKICK and GLLINK, the command-list words, ring claims and pushes, and the
causes of a context (R435, R450, R451).
Readings and choices of the model: DEDUCED log entries 17, 29, 31. -/

namespace Sys2Proof.Machine

/-! ### Contexts and patterns -/

/-- A pattern as GLKICK leaves it (R253): every count 1, type .N8. -/
def gpat0 : Pattern := { f := [(1, 4), (4, 1), (5, 1), (6, 1), (7, 1), (8, 1), (9, 1)] }
def GCtx.pat (c : GCtx) (p : Nat) : Pattern := mget gpat0 c.pats p
def GCtx.setPat (c : GCtx) (p : Nat) (f : Pattern → Pattern) : GCtx := { c with pats := mset gpat0 c.pats p (f (c.pat p)) }
def Pattern.set (p : Pattern) (i : Nat) (v : Word) : Pattern := { p with f := mset 0 p.f i v }
/-- A pattern as the fields of a stream in global memory (R95, R253). -/
def Pattern.stream (p : Pattern) : List Word :=
  (List.range 22).map fun i => if i = 1 then BitVec.ofNat 64 ((mget 0 p.f 1).toNat % 16 + 16) else mget 0 p.f i

/-- The context of the present step. -/
def State.myCtx (s : State) : GCtx := s.ctx s.sel.ctx
def modCtx (f : GCtx → GCtx) (s : State) : State := s.setCtx s.sel.ctx (f s.myCtx)

/-- The bodies that end at pc count a trip (R256): start, words, trips left. -/
def gLoopEnd (pc : Word) : List (Word × Nat × Nat) → Word × List (Word × Nat × Nat)
  | [] => (pc, [])
  | (a, n, t) :: ls =>
    if a.toNat + 4 * n ≤ pc.toNat then (if 1 < t then (a, (a, n, t - 1) :: ls) else gLoopEnd pc ls) else (pc, (a, n, t) :: ls)

/-- The command of n words is done. -/
def gNext (n : Nat) (s : State) : State :=
  modCtx (fun c =>
    let (pc, ls) := gLoopEnd (c.pc + BitVec.ofNat 64 (4 * n)) c.loops
    { c with pc := pc, loops := ls, cmd := none }) s
def gDone (n : Nat) (s : State) : Host.Outcome State Fault Refusal := ok (gNext n s)

/-- The context stops before its word (R435). -/
def gStop (code reason : Nat) (s : State) : Host.Outcome State Fault Refusal :=
  let c := s.myCtx
  let n := s.sel.ctx
  ok (asyncRecord c.org code 5 (n / 8) c.pc.toNat (reason + 2 ^ 8 * (n % 8)) false (.ctx n)
    (s.setCtx n { c with stopped := true, claim := none, cmd := none }))
/-- The context stops at a fault of its own read, or of its own write (R451). -/
def gReadStop (b : XBad) (op : Nat) (s : State) : Host.Outcome State Fault Refusal :=
  let c := s.myCtx
  let n := s.sel.ctx
  ok (asyncRecord c.org b.code 5 (n / 8) b.val (0x70 + 2 ^ 8 * (n % 8) + 2 ^ 11 * op) false (.ctx n)
    (s.setCtx n { c with stopped := true, cmd := none }))

/-- A read of n bytes by the context: waits for lines that the host holds. -/
inductive GRead where
  | wait (s : State)
  | bad (b : XBad) (s : State)
  | val (v : Nat) (s : State)

def gRead (va n al : Nat) (s : State) : GRead :=
  let c := s.myCtx
  match glSide (tierGlean (s.sel.ctx / 8)) c.space va n al .read s with
  | (.inl b, s) => .bad b s
  | (.inr (bs, _), s) =>
    let ls := (bs.map lineOf).eraseDups
    if !s.canAccess 16 ls then .wait (sendData ls s)
    else
      let o : XOp := { kind := .push }
      match xPoison o (bs.headD 0) n s with
      | (some (code, _), s) => .bad { code := code, val := va } s
      | (none, s) => .val (leNat (bs.map fun a => heldByte ((s.inst c.org.task).seenBy c.org) a (s.physByte a))) s

/-- An acquire read of a word of 8 bytes at SYSTEM scope, and what follows (R121, R256). -/
def gLoad (va op : Nat) (s : State) (f : Word → State → Host.Outcome State Fault Refusal) :
    Host.Outcome State Fault Refusal :=
  if s.owes 16 then ok s else
  match gRead va 8 8 s with
  | .wait s => ok s
  | .bad b s => gReadStop b op s
  | .val v s => f (BitVec.ofNat 64 v) s

/-! ### Fetching -/

/-- The words of the command at the context's pc: one, then as many as the first asks for (R255). -/
def gFetch : Nat → Nat → List W32 → State → Sum (Host.Outcome State Fault Refusal) (List W32 × State)
  | 0, _, ws, s => .inr (ws, s)
  | n + 1, va, ws, s =>
    match gRead va 4 4 s with
    | .wait s => .inl (ok s)
    | .bad b s => .inl (gReadStop b 0x1F s)
    | .val v s => gFetch n (va + 4) (ws ++ [BitVec.ofNat 32 v]) s

/-- The level of a GNEST or GSTRD is outside its limits, which stops the context before its extension words are read (R421). -/
def gLevelBad (w : W32) : Bool := match (w.extractLsb' 27 5).toNat with
  | 0 => decide (5 < (w.extractLsb' 22 3).toNat)
  | 1 => decide (6 < (w.extractLsb' 22 3).toNat)
  | _ => false

/-- The words of the command at the context's pc: those of a command that waits were read when it began (R258). -/
def gWords (s : State) : Sum (Host.Outcome State Fault Refusal) (List W32 × State) :=
  let c := s.myCtx
  match c.cmd with
  | some ws => .inr (ws, s)
  | none => match gFetch 1 c.pc.toNat [] s with
    | .inl o => .inl o
    | .inr (ws, s) =>
      if gLevelBad (ws.headD 0) then .inr (ws, s) else gFetch ((decodeGlean ws).2 - 1) (c.pc.toNat + 4) ws s

/-- The turn of a context: nothing, or the command at its pc (R258). -/
def fetchGlean (n : Nat) (s : State) : Fetched :=
  let c := s.ctx n
  if 256 ≤ n then .whole (.fault .noSuchUnit)
  else if !c.run || c.stopped || c.claim.isSome || s.pkg.stopped then hold s
  else
    match gWords { s with sel := { kind := .glean, ctx := n } } with
    | .inl o => .whole (putOff s o)
    | .inr (ws, s) =>
      let s := modCtx (fun g => { g with cmd := some ws }) { s with sel := { s.sel with word := ws.headD 0 } }
      match (decodeGlean ws).1 with
      | .ok i => .run s i
      | .bad r => .run s (.notAnInstruction r)

/-- A pattern of a gleaner word that names no command (R435). -/
def gTrap (r : Nat) (s : State) : Host.Outcome State Fault Refusal :=
  if r = 1 then gStop 0x10 1 s else gStop 0x11 r s

/-! ### GLKICK and GLLINK (R254) -/

/-- The context that a register names: bits 4:0 the gleaner, bits 7:5 the context (R253). -/
def ctxOf (v : Nat) : Nat := 8 * (v % 32) + v / 32 % 8

/-- GLKICK (R254): holds until the context is idle. -/
def execGlkick (tk : BitVec 4) (a b : BitVec 5) (t : BitVec 1) (c : BitVec 6) (s : State) :
    Host.Outcome State Fault Refusal :=
  runT { tk := tk, xs := [a, b], bad := fun _ _ ns _ _ =>
           if ns.headD 0 % 4 ≠ 0 then some { code := 0x23, reason := 0x61, val := ns.headD 0 } else none }
    (fun q e sl s => match coBad sl (t == 1) c.toNat false with
      | some b => .bad b
      | none =>
        let k := s.sel.slot
        let n := ctxOf (e.regs.getD 1 0).toNat
        let v := s.ctx n
        if v.run then .wait s
        else .go (s.setCtx n { v with run := true, stopped := false, pc := e.regs.headD 0, pats := [], loops := [],
                                      org := s.originOf k q e tk (t == 1) c.toNat, space := sl.space, claim := none,
                                      cmd := none })) s

/-- GLLINK (R254): holds until the link is unbound. -/
def execGllink (tk : BitVec 4) (b : BitVec 5) (l : BitVec 3) (c : BitVec 6) (s : State) :
    Host.Outcome State Fault Refusal :=
  runT { tk := tk, xs := [b] }
    (fun q e sl s => match coBad sl true c.toNat true with
      | some b => .bad b
      | none =>
        let k := s.sel.slot
        let n := ctxOf (e.regs.headD 0).toNat
        let v := s.ctx n
        if mget unbound v.links l.toNat ≠ unbound then .wait s
        else tDone k q tk (s.setCtx n { v with links := mset unbound v.links l.toNat (k, c.toNat, sl.task.getD 0) })) s

/-! ### Commands (R256) -/

/-- GNEST. -/
def execGnest (p : BitVec 2) (l : BitVec 3) (e : BitVec 1) (c : BitVec 21) (cx : BitVec 32) (s : State) :
    Host.Outcome State Fault Refusal :=
  if 5 < l.toNat then gStop 0x11 2 s
  else
    let v : Word := if e = 1 then cx.setWidth 64 else c.setWidth 64
    gDone (if e = 1 then 2 else 1) (modCtx (fun g => g.setPat p.toNat (·.set (4 + l.toNat) v)) s)

/-- GSTRD: level 6 is the scale stride. -/
def execGstrd (p : BitVec 2) (l : BitVec 3) (e sd : BitVec 1) (i : BitVec 20) (sx : BitVec 64) (s : State) :
    Host.Outcome State Fault Refusal :=
  if 6 < l.toNat then gStop 0x11 2 s
  else
    let v : Word := if e = 1 then sx else i.signExtend 64
    let f := if l = 6 then 3 else (if sd = 1 then 16 else 10) + l.toNat
    gDone (if e = 1 then 3 else 1) (modCtx (fun g => g.setPat p.toNat (·.set f v)) s)

/-- Field that WHICH names: BASE or SCALE. -/
def gWhich (w : BitVec 1) : Nat := if w = 1 then 2 else 0

/-- GBASE with a value. -/
def execGbase (p : BitVec 2) (w : BitVec 1) (v : BitVec 64) (s : State) : Host.Outcome State Fault Refusal :=
  gDone 3 (modCtx (fun g => g.setPat p.toNat (·.set (gWhich w) v)) s)
/-- GBASE.ADD. -/
def execGbaseAdd (p : BitVec 2) (w : BitVec 1) (i : BitVec 22) (s : State) : Host.Outcome State Fault Refusal :=
  gDone 1 (modCtx (fun g => g.setPat p.toNat fun q => q.set (gWhich w) (mget 0 q.f (gWhich w) + i.signExtend 64)) s)
/-- GBASE.IND. -/
def execGbaseInd (p : BitVec 2) (w : BitVec 1) (v : BitVec 64) (s : State) : Host.Outcome State Fault Refusal := putOff s <|
  gLoad v.toNat 2 s fun x s => gDone 3 (modCtx (fun g => g.setPat p.toNat (·.set (gWhich w) x)) s)

/-- GFMT. -/
def execGfmt (p : BitVec 2) (t : BitVec 4) (sc : BitVec 1) (d : BitVec 20) (s : State) : Host.Outcome State Fault Refusal :=
  if t = 0xF then gStop 0x11 4 s
  else gDone 1 (modCtx (fun g => g.setPat p.toNat fun q =>
    { q.set 1 (t.setWidth 64) with sc := sc == 1, dscale := d.toNat }) s)

/-- GWAIT.DRAIN. -/
def execGwaitDrain (s : State) : Host.Outcome State Fault Refusal :=
  if s.myCtx.pushes = [] then gDone 1 s else ok s

/-- GWAIT.GEN. -/
def execGwaitGen (i : BitVec 22) (v : BitVec 64) (s : State) : Host.Outcome State Fault Refusal := putOff s <|
  gLoad v.toNat 4 s fun x s => if i.toNat ≤ x.toNat then gDone 3 s else ok s

/-- The binding of a link: slot and object, while the binding task occupies the slot (R452). -/
def State.linkOf (s : State) (c : GCtx) (l : Nat) : Option (Nat × Nat) :=
  let (k, co, t) := mget unbound c.links l
  if decide (k < 64) && (s.slot k).task == some t && (s.slot k).st != 5 then some (k, co) else none

/-- GPUSH (R257): waits for its claim; a link bound to no arrival barrier stops the context. -/
def execGpush (p : BitVec 2) (l : BitVec 3) (s : State) : Host.Outcome State Fault Refusal :=
  let c := s.myCtx
  let bad := match s.linkOf c l.toNat with
    | some (k, co) => (mget ({} : Co) (s.slot k).cos co).kind != 3
    | none => false
  if bad then gStop 0x16 7 s else ok (modCtx (fun g => { g with claim := some (p.toNat, l.toNat) }) s)

/-- The ring slot of a waiting push is claimed, and the push begins (R250, R257). -/
def gClaim (n : Nat) (s : State) : State :=
  let c := s.ctx n
  match c.claim with
  | none => s
  | some (p, l) =>
    match s.linkOf c l with
    | none => s
    | some (k, co) =>
      match claimRing k co s with
      | none => s
      | some (i, s) =>
        let q := c.pat p
        let o : XOp := { id := c.nextPush, kind := .push, org := c.org, s1 := q.stream, peer := k, ringCo := co, ringSlot := i,
                         sc := q.sc, dscale := q.dscale, link := l, space := c.space }
        let s := s.setCtx n { c with pushes := c.pushes ++ [o], nextPush := c.nextPush + 1, claim := none }
        gNext 1 { s with sel := { kind := .glean, ctx := n } }

/-- RING_CLAIM (R250): by a gleaner context below 256, else by the COPY.RING at the head of queue q of a slot, given as
256 + 2 × slot + q, q being 0 for TA and 1 for TH. -/
def execRingClaim (n : Nat) (s : State) : Host.Outcome State Fault Refusal :=
  if n < 256 then ok (gClaim n s)
  else
    let k := (n - 256) / 2
    let q := 2 + n % 2
    let sl := s.slot k
    if sl.st = 5 then ok s
    else match mget [] sl.queues q with
      | [] => ok s
      | e :: es =>
        match decodeCore e.word with
        | .ok (.copy _ _ _ _ g _ co) =>
          if g ≠ 1 ∨ e.claim.isSome then ok s
          else match claimRing k co.toNat s with
            | none => ok s
            | some (i, s) => ok (s.modSlot k fun sl => { sl with queues := mset [] sl.queues q ({ e with claim := some i } :: es) })
        | _ => ok s

/-- GLEANER_PUSH_RETIRE (R257): a push whose writes are done fills its slot. -/
def execGleanerPushRetire (n id : Nat) (s : State) : Host.Outcome State Fault Refusal :=
  let c := s.ctx n
  match c.pushes.find? (·.id == id) with
  | none => ok s
  | some o =>
    if 64 ≤ o.peer || !s.xDone o then ok s
    else ok (fillSlot o.peer o.ringCo o.ringSlot (s.setCtx n { c with pushes := c.pushes.filter (·.id ≠ id) }))

/-- A write of 8 bytes by the context, after its earlier pushes: f performs it at the physical address. -/
def gStore (va op : Nat) (s : State) (f : Nat → Nat → State → Host.Outcome State Fault Refusal) :
    Host.Outcome State Fault Refusal :=
  let c := s.myCtx
  if c.pushes ≠ [] then ok s
  else match glSide (tierGlean (s.sel.ctx / 8)) c.space va 8 8 .write s with
    | (.inl b, s) => gReadStop b op s
    | (.inr (bs, _), s) =>
      let pa := bs.headD 0
      if s.hostHolds (linesOf pa 8) then ok (sendBisnp (linesOf pa 8) s) else f pa c.org.task s

/-- The context stops before a word whose write the atomic unit of its home slice refuses (R454, log entry 29). -/
def gAtomStop (pa va reason : Nat) (s : State) : Host.Outcome State Fault Refusal :=
  let c := s.myCtx
  let n := s.sel.ctx
  ok (asyncRecord c.org 0x30 13 (homeSlice pa) va reason false (.ctx n) (s.setCtx n { c with stopped := true, cmd := none }))

/-- GPOST.WORD. -/
def execGpostWord (v : BitVec 64) (s : State) : Host.Outcome State Fault Refusal := putOff s <|
  gStore v.toNat 6 s fun pa t s =>
    match xlEngine (tierGlean (s.sel.ctx / 8)) s.myCtx.space v.toNat 8 .write s with
    | (.inr (_, e), s) =>
      match atomBad pa 8 (pteStr e) s with
      | (some r, s) => gAtomStop pa v.toNat r s
      | (none, s) => gDone 3 (atomDo t pa 8 (fun w => (w + 1) % 2 ^ 64) s)
    | (_, s) => ok s

/-- GPOST.TGU. -/
def execGpostTgu (c : BitVec 16) (s : State) : Host.Outcome State Fault Refusal :=
  let g := s.myCtx
  if g.pushes ≠ [] then ok s
  else
    let i := s.inst g.org.task
    if ((s.graph? i.graph).getD {}).nctr ≤ c.toNat then gStop 0x17 8 s
    else gDone 1 (sendCtr g.org i.graph i.replay c.toNat s)

/-- GFLAG. -/
def execGflag (i : BitVec 22) (v : BitVec 64) (s : State) : Host.Outcome State Fault Refusal := putOff s <|
  gStore v.toNat 9 s fun pa t s => gDone 3 (taskWrite t pa (leBytes i.toNat 8) s)

/-- GLINK. -/
def execGlink (v : BitVec 64) (s : State) : Host.Outcome State Fault Refusal :=
  ok (modCtx (fun g => { g with pc := v, loops := [], cmd := none }) s)
/-- GLINK.IND: waits while the pointer is 0. -/
def execGlinkInd (v : BitVec 64) (s : State) : Host.Outcome State Fault Refusal := putOff s <|
  gLoad v.toNat 7 s fun x s => if x = 0 then ok s else ok (modCtx (fun g => { g with pc := x, loops := [], cmd := none }) s)

/-- GLOOP. -/
def execGloop (l : BitVec 10) (c : BitVec 17) (s : State) : Host.Outcome State Fault Refusal :=
  let g := s.myCtx
  let a := g.pc + 4
  let stop := a.toNat + 4 * l.toNat
  if l = 0 ∨ (g.loops.any fun x => decide (x.1.toNat + 4 * x.2.1 < stop)) = true then gStop 0x11 5 s
  else if c = 0 then gDone (1 + l.toNat) s
  else if 4 ≤ g.loops.length then gStop 0x14 6 s
  else ok (modCtx (fun g => { g with pc := a, loops := (a, l.toNat, c.toNat) :: g.loops, cmd := none }) s)

/-- GEND (R254, R256): links unbound, GLKICK signals and retires. -/
def execGend (s : State) : Host.Outcome State Fault Refusal := putOff s <|
  let g := s.myCtx
  if g.pushes ≠ [] then ok s
  else ok (whenSignal g.org 5 false s fun s => retireOp g.org 5 false (modCtx (fun g => { g with run := false, links := [], cmd := none }) s))

end Sys2Proof.Machine
end

