-- ==== Sys2Proof/Machine/Engine.lean ====
section
/-! DEFINITION. Operations run outside the cores (R275, R290): how their words are taken and issued (R123, R429), how
they read and translate (R438, R448), how they stop (R406, R419, R445, R448) and how they retire (R240).
Readings and choices of the model: DEDUCED log entries 15, 29, 35; DESIGN CHOICE log entry 76. -/

namespace Sys2Proof.Machine

/-- T opcode of an operation's word. -/
def EKind.op : EKind → Nat
  | .attn => 6
  | .pimld => 7
  | .pimrun => 8
  | .reduce => 9
  | .sample => 10
  | .wnstep => 11
/-- SRC of its records (R414). -/
def EKind.src : EKind → Nat
  | .attn => 8
  | .pimld | .pimrun => 6
  | .reduce => 7
  | .sample => 9
  | .wnstep => 10
/-- The operation's writes are never held (R130). -/
def EKind.never : EKind → Bool
  | .pimrun | .reduce => true
  | _ => false

def State.eop? (s : State) (id : Nat) : Option EOp := lookupN s.eops id
def setEop (id : Nat) (o : EOp) (s : State) : State :=
  { s with eops := s.eops.map fun e => if e.1 = id then (id, o) else e }
def dropEop (id : Nat) (s : State) : State := { s with eops := s.eops.filter (·.1 ≠ id) }

/-- Byte b of the parameter block, and n bytes from b on. -/
def EOp.f (o : EOp) (b n : Nat) : Nat := fieldOf (leNat o.blk) b n

/-! ### Issue -/

/-- An operation reaches its engine (R287, R301, R306). -/
def arriveEop (id : Nat) (o : EOp) (s : State) : State :=
  match o.kind with
  | .reduce => { s with redQ := mset [] s.redQ o.engine (mget [] s.redQ o.engine ++ [id]) }
  | .sample => { s with sampQ := s.sampQ ++ [id] }
  | .wnstep => { s with winQ := s.winQ ++ [id] }
  | _ => s

/-- A new operation. -/
def addEop (o : EOp) (s : State) : State :=
  arriveEop s.nextEop o { s with eops := s.eops ++ [(s.nextEop, o)], nextEop := s.nextEop + 1 }

/-- A word that starts an operation of an engine: its block is aligned to its size (R429). -/
def runE (kind : EKind) (size : Nat) (tk : BitVec 4) (a : BitVec 5) (t : BitVec 1) (c : BitVec 6) (s : State) :
    Host.Outcome State Fault Refusal :=
  runT { tk := tk, xs := [a], bad := fun _ _ ns _ _ =>
           if ns.headD 0 % size ≠ 0 then some { code := 0x23, reason := 0x61, val := ns.headD 0 } else none }
    (fun q e sl s => match coBad sl (t == 1) c.toNat false with
      | some b => .bad b
      | none =>
        let k := s.sel.slot
        .go (addEop { kind := kind, org := { s.originOf k q e tk (t == 1) c.toNat with block := e.regs.headD 0 },
                      space := sl.space, engine := clusterOf k } s)) s

/-! ### Reads and writes -/

/-- Why an operation stops: cause, reason, address, and an INFO that replaces R445's. -/
structure EBad where
  code : Nat := 0
  reason : Nat := 0
  val : Nat := 0
  info : Option Nat := none
  side : Bool := false
deriving DecidableEq, Repr, Inhabited

/-- The engine TLB that the operation uses (R104): each reduction engine and each attention unit has one of its own; the path and
the query of an ATTN go through one that they share (DESIGN CHOICE, log entry 76). -/
def EOp.tier (o : EOp) : Nat :=
  if o.kind = .reduce ∨ (o.kind = .attn ∧ 4 ≤ o.engine) then tierUnit o.engine else tierEngine o.kind.src

/-- Translation of n bytes: physical runs, or the cause met (R438, R448). -/
def eSide (o : EOp) (va n al : Nat) (w : Want) (s : State) : Sum EBad (List (Nat × Nat × Nat)) × State :=
  let side := w == .write
  if 2 ^ 57 ≤ va then (.inl { code := 0x23, reason := 0x60, val := va, side := side }, s)
  else if va % al ≠ 0 then (.inl { code := 0x23, reason := 0x61, val := va, side := side }, s)
  else match xlRange o.tier o.space w (n / 4096 + 2) va n s with
    | (.inl (v, c, r), s) => (.inl { code := c, reason := if c = 0x30 then 0x71 else r, val := v, side := side }, s)
    | (.inr l, s) =>
      match (if w = .write then l.find? fun r => s.pclass r.1 == .host && s.pkg.fenced else none) with
      | some r => (.inl { code := 0x50, reason := 4, val := r.1, side := true }, s)
      | none => (.inr l, s)

/-- The outcome of a read. -/
inductive ERead where
  /-- The host holds a line (R358). -/
  | wait (s : State)
  | bad (b : EBad) (s : State)
  | val (bs : List Byte) (s : State)

/-- A poisoned word or failed host request behind physical runs (R459, R499). -/
def ePoison (rs : List (Nat × Nat × Nat)) (s : State) : Option EBad × State :=
  rs.foldl (fun (p : Option EBad × State) r => match p.1 with
    | some b => (some b, p.2)
    | none => match p.2.hostErr r.1 r.2.1 with
      | some e => (some { code := 0x50, reason := e, val := r.1 }, forgetErr r.1 r.2.1 p.2)
      | none => match touchRead r.1 r.2.1 p.2 with
        | (some col, s) => (some { code := 0x38, val := pmdBase + 32 * col, info := some (uncInfo s col 3) }, s)
        | (none, s) => (none, s)) (none, s)

/-- The bytes of physical runs as the operation reads them: memory, and the held writes of its task that it sees (R129). -/
def State.eBytes (s : State) (o : EOp) (rs : List (Nat × Nat × Nat)) : List Byte :=
  let hs := (s.inst o.org.task).seenBy o.org
  rs.flatMap fun r => (List.range r.2.1).map fun i => heldByte hs (r.1 + i) (s.physByte (r.1 + i))

/-- A read of physical runs by an operation. -/
def eReadRuns (o : EOp) (rs : List (Nat × Nat × Nat)) (s : State) : ERead :=
  let ls := (rs.flatMap fun r => linesOf r.1 r.2.1).eraseDups
  if !s.canAccess 16 ls then .wait (sendData ls s)
  else match ePoison rs s with
    | (some b, s) => .bad b s
    | (none, s) => .val (s.eBytes o rs) s

/-- A read of n bytes by an operation. -/
def eRead (o : EOp) (va n al : Nat) (s : State) : ERead :=
  match eSide o va n al .read s with
  | (.inl b, s) => .bad b s
  | (.inr rs, s) => eReadRuns o rs s

/-- Several ranges translated for reading or writing before anything is written (R448): address, length, alignment. -/
def eSides (o : EOp) (w : Want) : List (Nat × Nat × Nat) → State → Option EBad × List (Nat × Nat × Nat × Bool) × State
  | [], s => (none, [], s)
  | (va, n, al) :: l, s =>
    match eSide o va n al w s with
    | (.inl b, s) => (some b, [], s)
    | (.inr rs, s) =>
      match eSides o w l s with
      | (some b, _, s) => (some b, [], s)
      | (none, ds, s) =>
        let r := rs.foldl (fun (p : Nat × List (Nat × Nat × Nat × Bool)) r =>
          (p.1 + r.2.1, p.2 ++ [(p.1, r.1, r.2.1, pteGex r.2.2)])) (va, [])
        (none, r.2 ++ ds, s)

/-- The physical bytes behind n bytes at va among the ranges translated. -/
def EOp.dst (o : EOp) (va n : Nat) : List Nat :=
  (List.range n).filterMap fun i =>
    (o.dsts.find? fun d => decide (d.1 ≤ va + i) && decide (va + i < d.1 + d.2.2.1)).map fun d => d.2.1 + (va + i - d.1)

/-- The bytes lie on pages with GEX (R129). -/
def EOp.gex (o : EOp) (va : Nat) : Bool :=
  ((o.dsts.find? fun d => decide (d.1 ≤ va) && decide (va < d.1 + d.2.2.1)).map (·.2.2.2)).getD false

/-- A write of the operation at va: held with its task's writes (R129), or open; answers whether it could be done. -/
def eWrite (o : EOp) (va : Nat) (d : List Byte) (s : State) : Bool × State :=
  let t := o.org.task
  let pas := o.dst va d.length
  let ls := (pas.map lineOf).eraseDups
  if s.putWaits t ls then (false, sendBisnp (s.taskLines t ls) s)
  else
    let rs := runsOf (pas.zip d)
    (true, rs.foldl (fun s r => if o.kind.never then taskWrite t r.1 r.2 s else holdOr t (some o.org) (.bytes r.1 r.2) (o.gex va) s) s)

/-! ### Stops and retirement -/

/-- The operation leaves the queue of its engine. -/
def leaveEngine (id : Nat) (s : State) : State :=
  { s with redQ := (s.redQ.map fun q => (q.1, q.2.filter (· ≠ id))).filter fun q => decide (q.2 ≠ []),
           sampQ := s.sampQ.filter (· ≠ id), winQ := s.winQ.filter (· ≠ id) }

/-- INFO of a parked operation (R445), with cursor 0. -/
def eInfo (o : EOp) (b : EBad) : Nat :=
  o.kind.op * 2 ^ 56 + (if o.org.sbit then 2 ^ 55 else 0) + o.org.co * 2 ^ 49 + (if b.side then 2 ^ 48 else 0)
    + b.reason % 256 * 2 ^ 40

/-- UNIT of a record of the operation (R414): the number of the reduction engine; the other units of its kinds are one, or take no
part in what the record says. -/
def EOp.unit (o : EOp) : Nat := if o.kind = .reduce then o.engine else 0

/-- The operation parks before its first write (R448): RESUME runs it again from its start. -/
def eFault (id : Nat) (o : EOp) (b : EBad) (s : State) : State :=
  let o := { o with parked := true, read := false, blk := [], data := [], dsts := [], phase := 0, retries := 0, absentAt := none }
  asyncRecord o.org b.code o.kind.src o.unit b.val (b.info.getD (eInfo o b)) true (.eop id) (leaveEngine id (setEop id o s))

/-- A block that fails its checks (R419, R433): the operation ends without a signal. off is the offset of the field at
fault, sub the offset within a structure it leads to. -/
def eEnd (id : Nat) (o : EOp) (off sub : Nat) (s : State) : State :=
  asyncRecord o.org 0x11 o.kind.src o.unit o.org.block.toNat (off + o.kind.op * 2 ^ 8 + sub * 2 ^ 16) false .none
    (leaveEngine id (dropEop id s))

/-- Cause 0x3C (R470): the operation ends without a signal, and RESUME runs it again. -/
def eParity (id : Nat) (o : EOp) (reason : Nat) (s : State) : State :=
  let o := { o with parked := true, read := false, blk := [], dsts := [], phase := 0, retries := 0, absentAt := none }
  asyncRecord o.org 0x3C o.kind.src o.unit o.org.block.toNat reason true (.eop id) (leaveEngine id (setEop id o s))

/-- The operation retires: for a slot it signals and posts its token (R240, R44); an engine-class task ends (R326). -/
def eRetire (id : Nat) (o : EOp) (s : State) : State :=
  let s := leaveEngine id (dropEop id s)
  if o.org.bySlot then retireOp o.org o.kind.src o.kind.never s
  else if (s.inst o.org.task).op = some id then endInst o.org.task s else s

/-- The operation's retirement has to wait (R125, R134). -/
def State.retireWaits (s : State) (o : EOp) : Bool :=
  if o.org.bySlot then s.signalWaits o.org o.kind.src o.kind.never else s.endWaits o.org.task
/-- The host's copies of the lines that the retirement writes are called back. -/
def callRetire (o : EOp) (s : State) : State :=
  sendBisnp (if o.org.bySlot then s.signalLines o.org o.kind.src else heldLines (s.inst o.org.task).held) s

/-- The last act of an operation, which retires it: once its signal can be given, or its task's write set can commit (R125, R134). -/
def whenRetire (o : EOp) (s : State) (f : State → State) : State :=
  if s.retireWaits o then callRetire o s else f s

/-- Reads the operation's block once (R275), then goes on. -/
def withBlock (id n al : Nat) (o : EOp) (s : State) (f : EOp → State → State) : State :=
  if o.read then f o s
  else match eRead o o.org.block.toNat n al s with
    | .wait s => s
    | .bad b s => eFault id o b s
    | .val bs s => f { o with blk := bs } s

end Sys2Proof.Machine
end

