-- ==== Sys2Proof/Machine/Nbu.lean ====
section
/-! DEFINITION. The near-bank units (R263 to R274): threads, bank rows, the NBU words, their datapath (R264, R271,
R272), and the causes of a thread (R436, R459).
Readings and choices of the model: DESIGN CHOICE log entries 14, 36, 66; DEDUCED log entries 17, 37, 67. -/

namespace Sys2Proof.Machine

/-! ### Threads -/

def State.thread (s : State) (n t : Nat) : NThread := mget {} (s.nbu n).threads t
def setThread (n t : Nat) (v : NThread) (s : State) : State :=
  s.setNbu n { s.nbu n with threads := mset {} (s.nbu n).threads t v }
/-- The thread of the present step. -/
def State.myThread (s : State) : NThread := s.thread s.sel.nbu s.sel.thread
def modThread (f : NThread → NThread) (s : State) : State := setThread s.sel.nbu s.sel.thread (f s.myThread) s
/-- nclk of the present turn. -/
def State.nclk (s : State) : Nat := (s.nbu s.sel.nbu).nclk - 1

def NThread.rn (v : NThread) (r : BitVec 4) : BitVec 32 := if r = 0 then 0 else mget 0 v.n r.toNat
def NThread.wn (v : NThread) (r : BitVec 4) (x : BitVec 32) : NThread :=
  if r = 0 then v else { v with n := mset 0 v.n r.toNat x }
def NThread.rw (v : NThread) (w : BitVec 1) : BitVec 256 := mget 0 v.w w.toNat

/-- Word p has been completed: the bodies that end there count a trip (R268). -/
def nLoopEnd (p : Nat) : List (Nat × Nat × Nat) → Nat × List (Nat × Nat × Nat)
  | [] => (p + 1, [])
  | (a, e, t) :: ls =>
    if e = p then (if 1 < t then (a, (a, e, t - 1) :: ls) else nLoopEnd p ls) else (p + 1, (a, e, t) :: ls)
def NThread.next (v : NThread) : NThread :=
  let r := nLoopEnd v.pc v.loops
  { v with pc := r.1, loops := r.2 }
/-- A transfer to word p ends the bodies that do not hold it (R268); a transfer from a body's last word to a place inside the body counts
no trip (DESIGN CHOICE, log entry 66). -/
def NThread.goto (v : NThread) (p : Nat) : NThread :=
  { v with pc := p, loops := v.loops.dropWhile fun l => !(decide (l.1 ≤ p) && decide (p ≤ l.2.1)) }
/-- Word index p + off; a place before word 0 counts as one beyond the code store. -/
def nTarget (p : Nat) (off : BitVec 18) : Nat :=
  let t := (p : Int) + off.toInt
  if t < 0 then 2048 else t.toNat

/-- The thread has issued: a cut no longer holds it (R462). -/
def nGo (f : NThread → NThread) (s : State) : Host.Outcome State Fault Refusal :=
  let n := s.sel.nbu
  let s := s.setNbu n { s.nbu n with held := (s.nbu n).held &&& ~~~(BitVec.twoPow 16 s.sel.thread) }
  ok (modThread f s)
/-- A scalar word with its result. -/
def nSet (d : BitVec 4) (x : BitVec 32) (s : State) : Host.Outcome State Fault Refusal := nGo (fun v => (v.wn d x).next) s

/-- A thread stops (R436, R461): it becomes idle, and its run is parked and does not complete. -/
def stopThread (n t code val info : Nat) (s : State) : State :=
  let v := s.thread n t
  let s := setThread n t { v with run := false, stopped := true, dp := [] } s
  match s.eop? v.org with
  | none => s
  | some o =>
    asyncRecord o.org code 6 n val info true (.eop v.org)
      (setEop v.org { o with parked := true, stops := if o.stops.contains n then o.stops else o.stops ++ [n] } s)

/-- Block address of the run of a thread. -/
def State.runBlock (s : State) (n t : Nat) : Nat := ((s.eop? (s.thread n t).org).getD {}).org.block.toNat

/-- The thread meets a cause of R436. -/
def nStop (code reason : Nat) (s : State) : Host.Outcome State Fault Refusal :=
  let n := s.sel.nbu
  let t := s.sel.thread
  let pc := s.myThread.pc
  ok (stopThread n t code (s.runBlock n t)
    (pc % 2048 + t * 2 ^ 11 + reason * 2 ^ 16 + (if pc < 2048 then s.sel.word.toNat else 0) * 2 ^ 32) s)

/-- A pattern that names no NBU word (R436). -/
def nTrap (r : Nat) (s : State) : Host.Outcome State Fault Refusal := nStop 0x10 (if r = 0 then 1 else r) s

/-- One nclk of NBU n (R264): the thread whose turn it is takes its word. -/
def fetchNbu (n : Nat) (s : State) : Fetched :=
  let v := s.nbu n
  let t := v.nclk % 16
  if s.nnbu ≤ n then .whole (.fault .noSuchUnit)
  else if s.pkg.stopped then hold s
  else
    let s := { s.setNbu n { v with nclk := v.nclk + 1 } with sel := { kind := .nbu, nbu := n, thread := t } }
    let th := s.myThread
    if !th.run then .whole (.next s)
    else if 2048 ≤ th.pc then .whole (nStop 0x11 7 s)
    else
      let w := mget 0 v.code th.pc
      let s := { s with sel := { s.sel with word := w } }
      match decodeNbu w with
      | .ok i => .run s i
      | .bad r => .run s (.notAnInstruction r)

/-! ### Scalar and control words (R267, R268) -/

/-- NADD. -/
def execNadd (d a b : BitVec 4) (s : State) : Host.Outcome State Fault Refusal :=
  nSet d (s.myThread.rn a + s.myThread.rn b) s
/-- NSUB. -/
def execNsub (d a b : BitVec 4) (s : State) : Host.Outcome State Fault Refusal :=
  nSet d (s.myThread.rn a - s.myThread.rn b) s
/-- NAND: a bitwise AND (R266). -/
def execNand (d a b : BitVec 4) (s : State) : Host.Outcome State Fault Refusal :=
  nSet d (s.myThread.rn a &&& s.myThread.rn b) s
/-- NOR: a bitwise OR (R266). -/
def execNor (d a b : BitVec 4) (s : State) : Host.Outcome State Fault Refusal :=
  nSet d (s.myThread.rn a ||| s.myThread.rn b) s
/-- NSHL. -/
def execNshl (d a b : BitVec 4) (s : State) : Host.Outcome State Fault Refusal :=
  nSet d (s.myThread.rn a <<< ((s.myThread.rn b).toNat % 32)) s
/-- NSHR. -/
def execNshr (d a b : BitVec 4) (s : State) : Host.Outcome State Fault Refusal :=
  nSet d (s.myThread.rn a >>> ((s.myThread.rn b).toNat % 32)) s
/-- NMUL. -/
def execNmul (d a b : BitVec 4) (s : State) : Host.Outcome State Fault Refusal :=
  nSet d (s.myThread.rn a * s.myThread.rn b) s
/-- NADDI. -/
def execNaddi (d a : BitVec 4) (i : BitVec 18) (s : State) : Host.Outcome State Fault Refusal :=
  nSet d (s.myThread.rn a + i.signExtend 32) s
/-- NLI. -/
def execNli (d : BitVec 4) (h : BitVec 1) (i : BitVec 21) (s : State) : Host.Outcome State Fault Refusal :=
  nSet d (if h = 1 then i.extractLsb' 0 11 ++ (s.myThread.rn d).extractLsb' 0 21 else i.signExtend 32) s

/-- NBNZ. -/
def execNbnz (a : BitVec 4) (f : BitVec 18) (s : State) : Host.Outcome State Fault Refusal :=
  nGo (fun v => if v.rn a ≠ 0 then v.goto (nTarget v.pc f) else v.next) s
/-- NJMP. -/
def execNjmp (f : BitVec 18) (s : State) : Host.Outcome State Fault Refusal := nGo (fun v => v.goto (nTarget v.pc f)) s
/-- NLOOP: a loop without trips or body is passed over, which completes its last word for the bodies that end there (R268); a third
level is a cause (R436). -/
def execNloop (_r a : BitVec 4) (l : BitVec 10) (s : State) : Host.Outcome State Fault Refusal :=
  let v := s.myThread
  let t := (v.rn a).toNat
  if t = 0 ∨ l = 0 then nGo (fun v => { v with pc := v.pc + l.toNat }.next) s
  else if 2 ≤ v.loops.length then nStop 0x14 6 s
  else nGo (fun (v : NThread) => { v with pc := v.pc + 1, loops := (v.pc + 1, v.pc + l.toNat, t) :: v.loops }) s

/-! ### Bank rows (R265, R269) -/

/-- What an access to a bank meets. -/
inductive NBank where
  /-- No row pointer is set. -/
  | unset
  /-- The bank is not granted, or the row is being opened: the thread loses its turn. -/
  | lose (s : State)
  /-- The pointed row, which is open. -/
  | row (r : Nat) (s : State)

/-- The bank is not granted: the thread loses its turn, and a cut holds it (R264, R462). -/
def nUngranted (s : State) : State :=
  s.setNbu s.sel.nbu { s.nbu s.sel.nbu with held := (s.nbu s.sel.nbu).held ||| BitVec.twoPow 16 s.sel.thread }
def State.granted (s : State) (b : Nat) : Bool := (s.nbu s.sel.nbu).grant.getLsbD b
def openBank (b row : Nat) (s : State) : State :=
  let v := s.nbu s.sel.nbu
  s.setNbu s.sel.nbu { v with openRow := mput (merase v.openRow b) b row }

/-- Row r of a bank of the NBU is open. -/
def State.isOpen (s : State) (b r : Nat) : Bool := lookupN (s.nbu s.sel.nbu).openRow b == some r
/-- The NBU opens a row in place of the one that is open (R265); in the turns in which that would break a timing constraint of LP6,
which the spec does not give, it does not (R264; log entry 36). -/
def activate (b r : Nat) (s : State) : State :=
  let (w, s) := s.takeFree
  if w.getLsbD 0 then s else openBank b r s

def State.bankRow (s : State) (b : Nat) : NBank :=
  match lookupN s.myThread.rows b with
  | none => .unset
  | some r =>
    if !s.granted b then .lose (nUngranted s)
    else if s.isOpen b r then .row r s
    else .lose (activate b r s)

/-- NACT: the thread loses turns while the row is being opened, and its pointer is then set (R265, R269). -/
def execNact (b : BitVec 2) (a : BitVec 4) (s : State) : Host.Outcome State Fault Refusal :=
  if !s.granted b.toNat then ok (nUngranted s)
  else
    let row := (s.myThread.rn a).toNat % 2 ^ 17
    if !s.isOpen b.toNat row then ok (activate b.toNat row s)
    else nGo (fun (v : NThread) => { v with rows := mput (merase v.rows b.toNat) b.toNat row }.next) s

/-- NPRE: an open row that is the thread's own is closed; pointers stay. -/
def execNpre (b : BitVec 2) (g : BitVec 1) (s : State) : Host.Outcome State Fault Refusal :=
  let bs := if g = 1 then [0, 1, 2, 3] else [b.toNat]
  if !bs.all s.granted then ok (nUngranted s)
  else
    let n := s.sel.nbu
    let v := s.nbu n
    let rows := s.myThread.rows
    nGo (·.next) (s.setNbu n { v with openRow := v.openRow.filter fun r =>
      !(bs.contains r.1 && lookupN rows r.1 == some r.2) })

/-! ### Column words -/

/-- Column word of a row of a bank of the NBU. -/
def State.nCol (s : State) (b row col : Nat) : Nat := colOfNbu s.z128 s.sel.nbu b row (col % 64)
/-- The inverse of R283: the logical page, of len pages placed by descriptor d, to which a column word of NBU n, bank b,
row and column belongs. -/
def State.stripePage (s : State) (d len n b row col : Nat) : Option Nat :=
  (List.range (dNp d)).findSome? fun e =>
    let (nbu, pair, brow, sbrow) := s.pairEnt d e
    if nbu ≠ n ∨ pair ≠ b / 2 then none
    else
      let pos := (row - brow) * 64 + col
      let h := dU d / 2
      let w := (pos / h * dNp d + e) * dU d + 2 * (pos % h) + b % 2
      let sb := 64 * (((row - sbrow) * 64 + col) * dNp d + e) + 32 * (b % 2)
      if h ≠ 0 ∧ brow ≤ row ∧ w < 128 * len then some (w / 128)
      else if dFmt d = 1 ∧ sbrow ≤ row ∧ sb < 256 * len then some (sb / 256)
      else none
/-- The column word belongs to a striped page: a valid region maps it, through the page's present generation (R285). -/
def State.isStriped (s : State) (n b row col : Nat) : Bool :=
  (List.range 64).any fun g =>
    dValid (s.layDesc g) &&
    (g :: (s.layout.gen.filter (·.1 == g)).map (·.2.1)).any fun h =>
      match s.stripePage (s.layDesc h) (dLen (s.layDesc g)) n b row col with
      | some p => s.genOf g p == h
      | none => false

/-- A read of a column word by the NBU (R261, R456): corrected and counted, or its cause. -/
def nReadCol (col : Nat) (s : State) : Option (List Byte) × State :=
  let s := match eccOut (mget [] s.flips col) with
    | .clean => s
    | .corr _ =>
      let n := s.sel.nbu
      let s := countCorr col (s.setNbu n { s.nbu n with corr := (s.nbu n).corr + 1 })
      let id := s.myThread.org
      match s.eop? id with
      | some o => setEop id { o with corr := o.corr + 1 } s
      | none => s
    | .unc =>
      let s := countUnc col s
      let l := lineOf (pmdBase + 32 * col)
      if s.poison.contains l then s else { s with poison := l :: s.poison }
  match eccOut (mget [] s.flips col) with
  | .unc => (none, s)
  | _ => (some ((List.range 32).map fun i => s.cellByte (pmdBase + 32 * col + i)), s)

/-- The thread meets an uncorrectable word (R459): reader 0x01 NRDW, 0x02 NDOTB. -/
def nUnc (col reader : Nat) (s : State) : State :=
  let t := s.sel.thread
  stopThread s.sel.nbu t 0x38 (pmdBase + 32 * col) (s.myThread.pc % 2048 + t * 2 ^ 11 + uncInfo s col reader) s

/-- NRDW (R270): coherent but on a striped page. -/
def execNrdw (b : BitVec 2) (w : BitVec 1) (a : BitVec 4) (i : BitVec 6) (s : State) : Host.Outcome State Fault Refusal :=
  match s.bankRow b.toNat with
  | .unset => nStop 0x11 4 s
  | .lose s => ok s
  | .row r s =>
    let c := ((s.myThread.rn a).toNat + i.toNat) % 64
    let col := s.nCol b.toNat r c
    let ls := [lineOf (pmdBase + 32 * col)]
    if !s.isStriped s.sel.nbu b.toNat r c && !s.canAccess 16 ls then ok (sendData ls s)
    else match nReadCol col s with
      | (none, s) => ok (nUnc col 1 s)
      | (some bs, s) => nGo (fun (v : NThread) => { v with w := mset 0 v.w w.toNat (BitVec.ofNat 256 (leNat bs)) }.next) s

/-! ### The datapath (R271, R272) -/

/-- Element i of packed weights: .I8 bytes, or .MI4 halves of bytes. -/
def nElem (mi4 : Bool) (w i : Nat) : Int := if mi4 then sext 4 (w / 16 ^ i) else sext 8 (w / 256 ^ i)
/-- Activation code at byte i of the buffer. -/
def NThread.code (v : NThread) (i : Nat) : Int := sext 8 (byteAt v.act (i % 1024)).toNat
/-- Sum of the products of the elements in a list with the activations from base on. -/
def NThread.sum (v : NThread) (mi4 : Bool) (w base first : Nat) (is : List Nat) : Int :=
  is.foldl (fun a i => a + nElem mi4 w (first + i) * v.code (base + i)) 0

/-- What NDOT adds (R271). -/
def ndotAdds (v : NThread) (q : Nat) (w g : Nat) (mi4 : Bool) (sr : BitVec 4) (aoff : Nat) : List NAcc :=
  let n := (if mi4 then 64 else 32) / g
  let sc := (v.rn sr).toNat
  (List.range g).flatMap fun s =>
    let qi := (q + s) % 8
    if !mi4 then [{ q := qi, p := v.sum false w (32 * aoff) (s * n) (List.range n) }]
    else [0, 1].filterMap fun h =>
      let is := (List.range n).filter fun i => (s * n + i) / 32 = h
      if is = [] then none
      else some { q := qi, p := v.sum true w (32 * aoff) (s * n) is, sc := some (bits sc (8 * h + 7) (8 * h), bits sc 23 16) }

/-- What NDOTB adds for the column words ws (R272). -/
def ndotbAdds (v : NThread) (q l : Nat) (mi4 : Bool) (aoff : Nat) (er : BitVec 4) (ws : List Nat) : List NAcc :=
  let S := if mi4 then 64 else 32
  let scales := (v.rw 0).toNat + 2 ^ 256 * (v.rw 1).toNat
  (ws.zipIdx).flatMap fun (w, j) =>
    let qi := (q + j / 2 ^ l) % 8
    let base := 32 * aoff + S * (j % 2 ^ l)
    if !mi4 then [{ q := qi, p := v.sum false w base 0 (List.range 32) }]
    else [0, 1].map fun h =>
      { q := qi, p := v.sum true w (base + 32 * h) (32 * h) (List.range 32),
        sc := some (scales / 256 ^ (2 * j + h) % 256, (v.rn er).toNat % 256) }

/-- ACCUM_I and ACCUM_MX (R271): new accumulator and the flags, SAT in bit 0, INX in bit 1 and NANS in bit 2 (DEDUCED, log entry 67). -/
def nAccum (q : Int) (a : NAcc) : Int × BitVec 3 :=
  let clamp := fun (z : Int) (f : BitVec 3) =>
    let r := max (min (q + z) (2 ^ 63 - 1)) (-(2 ^ 63 - 1))
    (r, if r = q + z then f else f ||| 1)
  if q = -(2 : Int) ^ 63 then (q, 0)
  else match a.sc with
    | none => clamp a.p 0
    | some (e, eref) =>
      if e = 0xFF then (-(2 : Int) ^ 63, 4)
      else if eref ≤ e then clamp (a.p * 2 ^ (e - eref)) 0
      else
        let m := roundMag RNE (decide (a.p < 0)) a.p.natAbs ((e : Int) - eref)
        clamp (if a.p < 0 then -(m : Int) else m) (if a.p % 2 ^ (eref - e) = 0 then 0 else 2)

/-- The datapath word's operands are captured; its sums land later (R264). -/
def nDatapath (busy lat : Nat) (adds : List NAcc) (s : State) : Host.Outcome State Fault Refusal :=
  let n := s.sel.nbu
  let now := s.nclk
  nGo (fun (v : NThread) => { v with dp := v.dp ++ [({ due := now + lat, adds := adds } : NDp)] }.next)
    (s.setNbu n { s.nbu n with busy := now + busy })

/-- NDOT. -/
def execNdot (q : BitVec 3) (w : BitVec 1) (g : BitVec 2) (f : BitVec 1) (sr : BitVec 4) (o : BitVec 5) (s : State) :
    Host.Outcome State Fault Refusal :=
  if g = 3 then nStop 0x11 2 s
  else if s.nclk < (s.nbu s.sel.nbu).busy then ok s
  else
    let v := s.myThread
    nDatapath 1 1 (ndotAdds v q.toNat (v.rw w).toNat (2 ^ g.toNat) (f == 1) sr o.toNat) s

/-- Column words of an NDOTB, read in order; the first that is uncorrectable stops the thread. -/
def nReadCols : List Nat → List Nat → State → Sum Nat (List Nat) × State
  | [], ws, s => (.inr ws, s)
  | c :: cs, ws, s =>
    match nReadCol c s with
    | (none, s) => (.inl c, s)
    | (some bs, s) => nReadCols cs (ws ++ [leNat bs]) s

/-- NDOTB. -/
def execNdotb (q : BitVec 3) (p : BitVec 1) (a : BitVec 4) (l : BitVec 3) (f : BitVec 1) (o : BitVec 5) (e : BitVec 4)
    (s : State) : Host.Outcome State Fault Refusal :=
  let v := s.myThread
  let col := (v.rn a).toNat % 64
  let b := 2 * p.toNat
  if l.toNat < 2 ∨ (if f = 1 then 4 else 5) < l.toNat ∨ 48 < col then nStop 0x11 3 s
  else if (lookupN v.rows b).isNone ∨ (lookupN v.rows (b + 1)).isNone then nStop 0x11 4 s
  else if s.nclk < (s.nbu s.sel.nbu).busy then ok s
  else match s.bankRow b with
    | .unset => nStop 0x11 4 s
    | .lose s => ok s
    | .row r0 s =>
      match s.bankRow (b + 1) with
      | .unset => nStop 0x11 4 s
      | .lose s => ok s
      | .row r1 s =>
        match nReadCols ((List.range 32).map fun j => s.nCol (b + j % 2) (if j % 2 = 0 then r0 else r1) (col + j / 2)) [] s with
        | (.inl c, s) => ok (nUnc c 2 s)
        | (.inr ws, s) => nDatapath 16 18 (ndotbAdds v q.toNat l.toNat (f == 1) o.toNat e ws) s

/-- NBU_DATAPATH_LAND (R264): the oldest datapath word of the thread adds its sums. -/
def execNbuDatapathLand (n t : Nat) (s : State) : Host.Outcome State Fault Refusal :=
  let v := s.thread n t
  match v.dp with
  | [] => ok s
  | d :: ds =>
    if (s.nbu n).nclk < d.due then ok s
    else ok (setThread n t (d.adds.foldl (fun v a =>
      let (q, f) := nAccum (mget 0 v.q a.q).toInt a
      { v with q := mset 0 v.q a.q (wordOf q), flags := v.flags ||| f }) { v with dp := ds }) s)

/-- An unfinished datapath word of the thread will write one of the accumulators. -/
def NThread.busyQ (v : NThread) (qs : List Nat) : Bool := v.dp.any fun d => d.adds.any fun a => qs.contains a.q

/-- NWRQ (R273). -/
def execNwrq (b : BitVec 2) (a : BitVec 4) (q : BitVec 3) (w c : BitVec 1) (s : State) :
    Host.Outcome State Fault Refusal :=
  let v := s.myThread
  let n := s.sel.nbu
  let cc := (v.rn a).toNat % 64
  match lookupN v.rows b.toNat with
  | none => nStop 0x11 4 s
  | some row =>
    if s.isStriped n b.toNat row cc then nStop 0x11 5 s
    else
      let qs := (List.range (if w = 1 then 4 else 8)).map fun e => (q.toNat + e) % 8
      if v.busyQ qs then ok s
      else match s.bankRow b.toNat with
        | .unset => nStop 0x11 4 s
        | .lose s => ok s
        | .row r s =>
          let pa := pmdBase + 32 * s.nCol b.toNat r cc
          if s.hostHolds [lineOf pa] then ok (sendBisnp [lineOf pa] s)
          else
            let bytes := qs.flatMap fun i =>
              let x := mget 0 v.q i
              if w = 1 then leBytes x.toNat 8 else leBytes (satInt true 32 x.toInt % 2 ^ 32).toNat 4
            let t := ((s.eop? v.org).getD {}).org.task
            nGo (fun (v : NThread) => { v with q := if c = 1 then qs.foldl (fun m i => merase m i) v.q else v.q }.next)
              (taskWrite t pa bytes s)

/-- NLDA (R274). -/
def execNlda (w : BitVec 1) (o : BitVec 5) (s : State) : Host.Outcome State Fault Refusal :=
  nGo (fun (v : NThread) => { v with act := writeBytes v.act (32 * o.toNat) (leBytes (v.rw w).toNat 32) }.next) s

/-- NSYNC (R274): NWRQ writes are performed as they issue. -/
def execNsync (s : State) : Host.Outcome State Fault Refusal :=
  if s.myThread.dp ≠ [] then ok s else nGo (·.next) s

/-- NDONE (R274, R279): the thread becomes idle, its run gathers its flags, and the MCS asks for the NBU's state once no
thread of the run is left on it. -/
def execNdone (s : State) : Host.Outcome State Fault Refusal :=
  let v := s.myThread
  if v.dp ≠ [] then ok s
  else match nGo (fun (v : NThread) => { v with run := false, loops := [] }) s with
    | .next s =>
      let n := s.sel.nbu
      let s := match s.eop? v.org with
        | some o => setEop v.org { o with flags := o.flags ||| v.flags } s
        | none => s
      if (s.nbu n).threads.any fun t => t.2.run && t.2.org == v.org then ok s
      else
        let c := nbuChan s.z128 n
        ok (s.setChan c { s.chan c with cmds := (s.chan c).cmds ++ [.pstat n] })
    | o => o

end Sys2Proof.Machine
end

