-- ==== Sys2Proof/Machine/Pim.lean ====
section
/-! DEFINITION. The memory-command sequencers (R262, R280, R281), PIMLD and PIMRUN (R275 to R279, R461, R462, R464),
REDUCE (R287 to R289, R470), and the patrol (R457).
Readings and choices of the model: DESIGN CHOICE log entries 14, 75; DEDUCED log entries 35, 37. -/

namespace Sys2Proof.Machine

/-! ### PIMLD and PIMRUN -/

/-- PIMLD (R276). -/
def execPimld (tk : BitVec 4) (a : BitVec 5) (t : BitVec 1) (c : BitVec 6) (s : State) :
    Host.Outcome State Fault Refusal := runE .pimld 16 tk a t c s
/-- PIMRUN (R277). -/
def execPimrun (tk : BitVec 4) (a : BitVec 5) (t : BitVec 1) (c : BitVec 6) (s : State) :
    Host.Outcome State Fault Refusal := runE .pimrun 64 tk a t c s

/-- NBUs selected by CHMASK and NBUMASK, among those the grade has (R278). -/
def State.selected (s : State) (chm nm : Nat) : List Nat :=
  ((List.range 32).filter (bit chm)).flatMap fun c =>
    ((List.range s.dies).filter (bit nm)).map fun k => nbuOf s.z128 c k
/-- Channels of a list of NBUs. -/
def State.chansOf (s : State) (ns : List Nat) : BitVec 32 :=
  ns.foldl (fun m n => m ||| BitVec.twoPow 32 (nbuChan s.z128 n)) 0

/-- Fields of the PIMLD block (R276). -/
def EOp.plOff (o : EOp) : Nat := bits (o.f 13 3) 10 0
def EOp.plCount (o : EOp) : Nat := bits (o.f 13 3) 22 11
/-- Fields of the PIMRUN block (R277). -/
def EOp.prThreads (o : EOp) : BitVec 16 := BitVec.ofNat 16 (o.f 38 2)
def EOp.prActLen (o : EOp) : Nat := o.f 42 2
/-- Address of an NBU's activations (R278). -/
def EOp.prAct (o : EOp) (z128 : Bool) (n : Nat) : Nat :=
  addr64 ((o.f 8 8 : Nat) + ((8 * nbuChan z128 n + nbuLocal z128 n : Nat) : Int) * sext 32 (o.f 48 4))

/-- A PIMLD reads its block and its words. -/
def readPimld (id : Nat) (o : EOp) (s : State) : State :=
  withBlock id 16 16 o s fun o s =>
    if 2048 < o.plOff + o.plCount then eEnd id o 13 0 s
    else
      let ns := s.selected (o.f 8 4) (o.f 12 1)
      let go := fun (bs : List Byte) (s : State) =>
        let o := { o with read := true, data := bs, todo := ns, chans := s.chansOf ns }
        if ns = [] then whenRetire o s (eRetire id o) else setEop id o s
      if o.plCount = 0 then go [] s
      else match eRead o (o.f 0 8) (4 * o.plCount) 4 s with
        | .wait s => s
        | .bad b s => eFault id o b s
        | .val bs s => go bs s

/-- A PIMRUN reads its block, and translates what it will read and write (R448). -/
def readPimrun (id : Nat) (o : EOp) (s : State) : State :=
  withBlock id 64 64 o s fun o s =>
    let n := o.prActLen
    if bit (o.f 44 1) 0 ∧ 63 < o.f 37 1 then eEnd id o 37 0 s
    else if 1024 < n ∨ n % 32 ≠ 0 then eEnd id o 42 0 s
    else
      let ns := if o.prThreads = 0 then [] else s.selected (o.f 32 4) (o.f 36 1)
      let acts := if o.f 8 8 = 0 ∨ n = 0 then [] else ns.map fun k => (o.prAct s.z128 k, n, 1)
      match eSides o .read acts s with
      | (some b, _, s) => eFault id o b s
      | (none, as, s) =>
        let outs := [o.f 56 8, o.f 16 8].filterMap fun a => if a = 0 then none else some (a, 8, 8)
        match eSides o .write outs s with
        | (some b, _, s) => eFault id o b s
        | (none, ds, s) => setEop id { o with read := true, dsts := ds ++ as, todo := ns, chans := s.chansOf ns } s

/-- Operations of a kind that have not yet reached the MCS of a channel. -/
def State.onTheWay (s : State) (kind : EKind) (ch : Nat) : List Nat :=
  (s.eops.filter fun e => e.2.kind == kind && !e.2.parked && (!e.2.read || e.2.chans.getLsbD ch)).map (·.1)
/-- An operation reads its block, or reaches the MCS of a channel. -/
def reachMcs (id ch : Nat) (s : State) : State :=
  match s.eop? id with
  | none => s
  | some o =>
    if !o.read then (if o.kind = .pimld then readPimld id o s else readPimrun id o s)
    else
      let s := setEop id { o with chans := o.chans &&& ~~~(BitVec.twoPow 32 ch) } s
      s.setChan ch { s.chan ch with waiting := (s.chan ch).waiting ++ [id] }
/-- Either one of the operations on the way moves on, in an order that is free, or the MCS acts, if an operation waits there. -/
def mcsTurn (kind : EKind) (ch : Nat) (act : State → State) (s : State) : Host.Outcome State Fault Refusal :=
  let l := s.onTheWay kind ch
  let (i, s) := s.chooseOf (l.length + if (s.chan ch).waiting = [] then 0 else 1)
  match l[i]? with
  | some id => ok (reachMcs id ch s)
  | none => ok (act s)

def pushCmds (ch : Nat) (cs : List McsCmd) (s : State) : State :=
  s.setChan ch { s.chan ch with cmds := (s.chan ch).cmds ++ cs }
/-- A start still to be sent to threads of an NBU. -/
def State.starting (s : State) (ch n : Nat) (threads : BitVec 16) : Bool :=
  (s.chan ch).cmds.any fun c => match c with
    | .pstart m t _ _ _ => m == n && t &&& threads != 0
    | _ => false
/-- Threads of the mask that are idle and about to stay so. -/
def State.idleThreads (s : State) (ch n : Nat) (threads : BitVec 16) : Bool :=
  (List.range 16).all (fun t => !threads.getLsbD t || !(s.thread n t).run) && !s.starting ch n threads
def popWaiting (ch : Nat) (s : State) : State := s.setChan ch { s.chan ch with waiting := (s.chan ch).waiting.tail }

/-- PIMLD_APPLY (R276): the words go to the selected NBUs of a channel once none of them has a running thread. -/
def execPimldApply (ch : Nat) (s : State) : Host.Outcome State Fault Refusal := putOff s <|
  mcsTurn .pimld ch (fun s =>
    match (s.chan ch).waiting with
    | [] => s
    | id :: _ =>
      match s.eop? id with
      | none => popWaiting ch s
      | some o =>
        let ns := o.todo.filter fun n => nbuChan s.z128 n == ch
        if o.kind ≠ .pimld ∨ !ns.all fun n => s.idleThreads ch n 0xFFFF then s
        else
          let ws := (List.range o.plCount).map fun i => BitVec.ofNat 32 (leNat ((o.data.drop (4 * i)).take 4))
          pushCmds ch (ns.map fun n => .pload n o.plOff ws id) (popWaiting ch s)) s

/-- A layout command works on the region (R285); one that has not done a page waits itself for a run that has started. -/
def State.underLayout (s : State) (g : Nat) (started : Bool) : Bool :=
  match s.layout.cmds with
  | c :: _ => !(started && c.page == 0) && (c.g == g || (decide (2 ≤ c.cmd) && c.g2 == g))
  | [] => false

/-- A run whose region is in error is parked (R464). -/
def parkRun (id ch g : Nat) (o : EOp) (s : State) : State :=
  asyncRecord o.org 0x3B 6 0 o.org.block.toNat (5 + g * 2 ^ 16) true (.eop id)
    (setEop id { o with parked := true } (popWaiting ch s))

/-- The activations of an NBU are read at the physical addresses that were found before the run began (R448). -/
def eReadAt (o : EOp) (va n : Nat) (s : State) : ERead :=
  eReadRuns o ((o.dst va n).map fun pa => (pa, 1, 0)) s

/-- The run at the head of a channel starts on the NBUs that can take it (R278). -/
def startRun (id ch : Nat) (o : EOp) : List Nat → State → State
  | [], s => s
  | n :: ns, s =>
    let en := bit (s.reg (0x100000 + 0x100 * ch)).toNat (24 + nbuLocal s.z128 n)
    if !en then startRun id ch { o with todo := o.todo.filter (· ≠ n) } ns (setEop id { o with todo := o.todo.filter (· ≠ n) } s)
    else if !s.idleThreads ch n o.prThreads then startRun id ch o ns s
    else
      let go := fun (bs : List Byte) (s : State) =>
        let o := { o with todo := o.todo.filter (· ≠ n), started := o.started ++ [n] }
        let c := s.chan ch
        let s := s.setChan ch { c with runs := if c.runs.contains id then c.runs else c.runs ++ [id] }
        startRun id ch o ns (pushCmds ch [.pactb n o.prThreads bs, .pstart n o.prThreads (o.f 40 2 % 2048)
          (BitVec.ofNat 64 (o.f 0 8)) id] (setEop id o s))
      if o.f 8 8 = 0 ∨ o.prActLen = 0 then go [] s
      else match eReadAt o (o.prAct s.z128 n) o.prActLen s with
        | .wait s => s
        | .bad b s =>
          asyncRecord o.org b.code 6 0 b.val (b.info.getD (eInfo o b)) true (.eop id) (setEop id { o with parked := true } s)
        | .val bs s => go bs s

/-- PIM_RUN_START (R278): the oldest run at an MCS starts on each of its NBUs whose threads are idle. -/
def execPimRunStart (ch : Nat) (s : State) : Host.Outcome State Fault Refusal := putOff s <|
  mcsTurn .pimrun ch (fun s =>
    match (s.chan ch).waiting with
    | [] => s
    | id :: _ =>
      match s.eop? id with
      | none => popWaiting ch s
      | some o =>
        if o.kind ≠ .pimrun then s
        else if o.parked then popWaiting ch s
        else
          let g := o.region.getD 64
          if o.region.isSome && s.underLayout g (o.started != []) then s
          else if o.region.isSome && dErr (s.layDesc g) then parkRun id ch g o s
          else
            let s := startRun id ch o (o.todo.filter fun n => nbuChan s.z128 n == ch) s
            match s.eop? id with
            | some o => if o.parked || !(o.todo.any fun n => nbuChan s.z128 n == ch) then popWaiting ch s else s
            | none => s) s

/-- No thread of the run is running or about to be started. -/
def State.runIdle (s : State) (id : Nat) : Bool :=
  s.nbus.all (fun n => n.2.threads.all fun t => !(t.2.run && t.2.org == id))
  && s.mcs.all fun c => c.2.cmds.all fun x => match x with
    | .pstart _ _ _ _ r => r != id
    | _ => true

/-- PIM_RUN_COMPLETE (R279): the status word, then SEQ, then the retirement. -/
def execPimRunComplete (id : Nat) (s : State) : Host.Outcome State Fault Refusal := putOff s <|
  match s.eop? id with
  | none => ok s
  | some o =>
    if o.kind ≠ .pimrun ∨ !o.read ∨ o.parked ∨ o.stops ≠ [] ∨ o.todo ≠ [] ∨ !s.runIdle id then ok s
    else
      let st := o.f 56 8
      let seq := o.f 16 8
      if o.phase = 0 ∧ st ≠ 0 then
        match eWrite o st (leBytes (o.flags.toNat + min o.corr 65535 * 2 ^ 16) 8) s with
        | (true, s) => ok (setEop id { o with phase := 1 } s)
        | (false, s) => ok s
      else
        let fin := fun (s : State) =>
          eRetire id o { s with mcs := s.mcs.map fun c => (c.1, { c.2 with runs := c.2.runs.filter (· ≠ id) }) }
        ok (whenRetire o s fun s =>
          if seq = 0 then fin s
          else match eWrite o seq (leBytes (o.f 24 8) 8) s with
            | (true, s) => fin s
            | (false, s) => s)

/-- RESUME of a parked operation (R415, R448, R461): a run starts again on the NBUs where a thread stopped, or where it
had not started; any other operation runs again from its start. Either arrives anew. -/
def resumeEop (id : Nat) (o : EOp) (s : State) : State :=
  if o.kind = .pimrun ∧ o.read then
    let ns := o.todo ++ o.stops.filter fun n => !o.todo.contains n
    let s := { s with mcs := s.mcs.map fun c => (c.1, { c.2 with waiting := c.2.waiting.filter (· ≠ id) }) }
    setEop id { o with parked := false, todo := ns, started := o.started.filter (fun n => !o.stops.contains n), stops := [],
                       chans := s.chansOf ns } s
  else
    let o := { o with parked := false }
    arriveEop id o (setEop id o s)

/-! ### The commands of the MCS (R262) -/

/-- The head command of a channel, with what is left. -/
def popCmd (ch : Nat) (s : State) : Option (McsCmd × State) :=
  match (s.chan ch).cmds with
  | [] => none
  | c :: cs => some (c, s.setChan ch { s.chan ch with cmds := cs })

/-- PLOAD: a PIMLD retires with the last of its NBUs (R276). -/
def execPload (ch : Nat) (s : State) : Host.Outcome State Fault Refusal := putOff s <|
  match popCmd ch s with
  | some (.pload n off ws id, s') =>
    let load := fun (s : State) => s.setNbu n
      { s.nbu n with code := (ws.zipIdx).foldl (fun m w => mset 0 m (off + w.2) w.1) (s.nbu n).code }
    match s.eop? id with
    | some o =>
      let o := { o with todo := o.todo.filter (· ≠ n) }
      if o.todo ≠ [] then ok (setEop id o (load s'))
      else if s.retireWaits o then ok (callRetire o s)
      else ok (eRetire id o (load s'))
    | none => ok (load s')
  | _ => ok s

/-- PACTB: the bytes at offset 0 of the buffers of a set of threads, the other bytes 0 (R278). -/
def execPactb (ch : Nat) (s : State) : Host.Outcome State Fault Refusal :=
  match popCmd ch s with
  | some (.pactb n ts bs, s) =>
    ok ((List.range 16).foldl (fun s t =>
      if ts.getLsbD t then setThread n t { s.thread n t with act := writeBytes [] 0 bs } s else s) s)
  | _ => ok s

/-- PSTART: a set of threads starts (R278). -/
def execPstart (ch : Nat) (s : State) : Host.Outcome State Fault Refusal :=
  match popCmd ch s with
  | some (.pstart n ts entry arg id, s) =>
    ok ((List.range 16).foldl (fun s t =>
      if ts.getLsbD t then
        let r : NThread := (((({ run := true, pc := entry, org := id, act := (s.thread n t).act } : NThread).wn 1
          (BitVec.ofNat 32 t)).wn 2 (BitVec.ofNat 32 n)).wn 3 (arg.extractLsb' 0 32)).wn 4 (arg.extractLsb' 32 32)
        setThread n t r s
      else s) s)
  | _ => ok s

/-- PGRANT: the banks are the NBU's again, and the time in which a held thread must issue begins (R462). -/
def execPgrant (ch : Nat) (s : State) : Host.Outcome State Fault Refusal :=
  match popCmd ch s with
  | some (.pgrant n banks, s) =>
    let v := s.nbu n
    ok (s.setNbu n { v with grant := v.grant ||| banks, since := v.nclk })
  | _ => ok s

/-- Banks leave the NBU: their rows are closed (R262, R280). -/
def withdraw (n : Nat) (banks : BitVec 4) (s : State) : State :=
  let v := s.nbu n
  s.setNbu n { v with grant := v.grant &&& ~~~banks, openRow := v.openRow.filter (fun r => !banks.getLsbD r.1), revoke := none }

/-- PREVOKE: the NBU ends its column access, precharges and acknowledges. -/
def execPrevoke (ch : Nat) (s : State) : Host.Outcome State Fault Refusal :=
  match popCmd ch s with
  | some (.prevoke n banks, s) => ok (withdraw n banks s)
  | _ => ok s

/-- PSTAT: done mask, flags and correction count of an NBU. -/
def execPstat (ch : Nat) (s : State) : Host.Outcome State Fault Refusal :=
  match popCmd ch s with
  | some (.pstat n, s) =>
    let v := s.nbu n
    let mask := (List.range 16).foldl (fun (m : BitVec 16) t => if (s.thread n t).run then m else m ||| BitVec.twoPow 16 t) 0
    ok (s.setChan ch { s.chan ch with stat := (mask, v.threads.foldl (fun f t => f ||| t.2.flags) 0, v.corr) })
  | _ => ok s

/-! ### Cuts (R280, R281, R462) -/

/-- MCS_LATENCY_CUT (R280): an access has waited longer than the bound; the banks it needs are withdrawn. When an access
waits that long is the outside world's and the channel's timing (log entry 3). -/
def execMcsLatencyCut (ch n : Nat) (banks : BitVec 4) (s : State) : Host.Outcome State Fault Refusal :=
  let v := s.nbu n
  if nbuChan s.z128 n ≠ ch ∨ s.nnbu ≤ n ∨ v.revoke.isSome ∨ v.grant &&& banks = 0 then ok s
  else
    let s := s.setNbu n { v with revoke := some banks, since := v.nclk }
    ok (pushCmds ch [.prevoke n (v.grant &&& banks)] (s.setChan ch { s.chan ch with cuts := (s.chan ch).cuts + 1 }))

/-- MCS_BANK_REGRANT (R280): the access has been served and the banks go back. -/
def execMcsBankRegrant (ch n : Nat) (s : State) : Host.Outcome State Fault Refusal :=
  let v := s.nbu n
  if nbuChan s.z128 n ≠ ch ∨ s.nnbu ≤ n ∨ v.revoke.isSome ∨ v.grant = 0xF then ok s
  else ok (pushCmds ch [.pgrant n (~~~v.grant)] s)

/-- MCS_REFRESH (R281): open rows of the channel are closed; no result changes. -/
def execMcsRefresh (ch : Nat) (s : State) : Host.Outcome State Fault Refusal :=
  ok { s with nbus := s.nbus.map fun n => if nbuChan s.z128 n.1 = ch then (n.1, { n.2 with openRow := [] }) else n }

/-- The threads of a run on an NBU stop (R462). -/
def stopRun (n id reason : Nat) (s : State) : State :=
  let s := (List.range 16).foldl (fun s t =>
    let v := s.thread n t
    if v.run && v.org == id then setThread n t { v with run := false, stopped := true, dp := [] } s else s) s
  match s.eop? id with
  | none => s
  | some o =>
    asyncRecord o.org 0x3A 6 n o.org.block.toNat reason true (.eop id)
      (setEop id { o with parked := true, stops := if o.stops.contains n then o.stops else o.stops ++ [n] } s)
/-- Runs with a running thread among a mask of threads of an NBU. -/
def State.runsAt (s : State) (n : Nat) (m : BitVec 16) : List Nat :=
  (((s.nbu n).threads.filter fun t => t.2.run && m.getLsbD t.1).map (·.2.org)).eraseDups

/-- NBU_REVOKE_TIMEOUT (R462): PREVOKE not acknowledged for 64 nclk; the NBU is reset. -/
def execNbuRevokeTimeout (n : Nat) (s : State) : Host.Outcome State Fault Refusal :=
  let v := s.nbu n
  match v.revoke with
  | none => ok s
  | some banks =>
    if v.nclk < v.since + 64 then ok s
    else
      let ch := nbuChan s.z128 n
      let s := s.setChan ch { s.chan ch with cmds := (s.chan ch).cmds.filter fun c => match c with
        | .prevoke m _ => m != n
        | _ => true }
      let s := withdraw n banks ((s.runsAt n 0xFFFF).foldl (fun s id => stopRun n id 1 s) s)
      ok (s.setNbu n { s.nbu n with busy := 0, held := 0 })

/-- NBU_STALL_TIMEOUT (R462): a held thread has issued nothing for 8 192 nclk after the grant. -/
def execNbuStallTimeout (n : Nat) (s : State) : Host.Outcome State Fault Refusal :=
  let v := s.nbu n
  let ids := s.runsAt n v.held
  if ids = [] ∨ v.grant ≠ 0xF ∨ v.nclk < v.since + 8192 then ok s
  else
    let s := ids.foldl (fun s id => stopRun n id 2 s) s
    ok (withdraw n 0xF (s.setNbu n { s.nbu n with held := 0 }))

/-! ### The patrol (R457, R459) -/

/-- PATROL_SCRUB: the next column word of the channel; none while the PMDs are in self-refresh, in S2 and S3 (R23, R371). -/
def execPatrolScrub (ch : Nat) (s : State) : Host.Outcome State Fault Refusal :=
  let ctl := (s.reg (0x100018 + 0x100 * ch)).toNat
  if bits ctl 15 8 = 0 ∨ 32 ≤ ch ∨ 2 ≤ s.pkg.power then ok s
  else
    let m := s.chan ch
    let col := m.patrol / 8 * 256 + ch * 8 + m.patrol % 8
    let s := s.setChan ch { m with patrol := (m.patrol + 1) % (s.cap / 1024) }
    match eccOut (mget [] s.flips col) with
    | .clean => ok s
    | .corr _ =>
      let s := countCorr col s
      ok (if bit ctl 0 then writeBack col s else s)
    | .unc =>
      let s := countUnc col s
      let l := lineOf (pmdBase + 32 * col)
      let s := if s.poison.contains l then s else { s with poison := l :: s.poison }
      ok (report { cause := 0x38, kind := 1, src := 6, val := BitVec.ofNat 64 (pmdBase + 32 * col),
                   info := BitVec.ofNat 64 (uncInfo s col 6) } .none s)

/-! ### Reduction (R287 to R289) -/

/-- REDUCE: the request joins its cluster's engine. -/
def execReduce (tk : BitVec 4) (a : BitVec 5) (t : BitVec 1) (c : BitVec 6) (s : State) :
    Host.Outcome State Fault Refusal := runE .reduce 64 tk a t c s

/-- Formats of IFMT and OFMT. -/
def redFmt (f : Nat) : Fmt := if f = 0 then fp32 else if f = 1 then fp16 else bf16
def redBytes (f : Nat) : Nat := if f = 0 ∨ f = 3 then 4 else 2

/-- One level of the tree of R82: neighbours are combined, an odd one passes. -/
def pairUp {α : Type} (op : α → α → α) : List α → List α
  | a :: b :: l => op a b :: pairUp op l
  | l => l
/-- The tree over at most 16 leaves. -/
def tree82 {α : Type} (op : α → α → α) (l : List α) : List α := pairUp op (pairUp op (pairUp op (pairUp op l)))

/-- One element of the reduction (R288). -/
def redElem (ifmt ofmt : Nat) (xs : List Nat) : Nat :=
  if ifmt = 3 then (tree82 (fun a b => (a + b) % 2 ^ 32) xs).headD 0
  else
    let vs := xs.map ((redFmt ifmt).value false)
    (redFmt ofmt).round RNE false ((tree82 (fun a b => fp32.rv RNE false (a.add RNE b)) vs).headD .nan)

/-- Addresses of the buffers: a stride, or a list (R287). -/
def EOp.buffers (o : EOp) : List Nat :=
  (List.range (o.f 28 1)).map fun i =>
    if bit (o.f 31 1) 0 then leNat ((o.data.drop (8 * i)).take 8)
    else addr64 ((o.f 8 8 : Nat) + (i : Int) * sext 64 (o.f 16 8))

/-- A REDUCE reads and checks its block (R433), and translates what it reads and writes (R448). -/
def readReduce (id : Nat) (o : EOp) (s : State) : State :=
  withBlock id 64 64 o s fun o s =>
    let n := o.f 24 4
    let i := o.f 29 1
    let f := o.f 30 1
    if 2 ^ 24 < n then eEnd id o 24 0 s
    else if o.f 28 1 = 0 ∨ 16 < o.f 28 1 then eEnd id o 28 0 s
    else if 3 < i then eEnd id o 29 0 s
    else if 3 < f ∨ (i = 3 ∧ f ≠ 3) ∨ (i ≠ 3 ∧ f = 3) then eEnd id o 30 0 s
    else
      let go := fun (o : EOp) (s : State) =>
        let ins := if n = 0 then [] else o.buffers.map fun b => (b, n * redBytes i, redBytes i)
        match eSides o .read ins s with
        | (some b, _, s) => eFault id o b s
        | (none, rs, s) =>
          let outs := (if n = 0 then [] else [(o.f 0 8, n * redBytes f, redBytes f)])
            ++ if o.f 32 8 = 0 then [] else [(o.f 32 8, 8, 8)]
          match eSides o .write outs s with
          | (some b, _, s) => eFault id o b s
          | (none, ds, s) => setEop id { o with read := true, dsts := rs ++ ds } s
      if bit (o.f 31 1) 0 then
        match eRead o (o.f 8 8) (8 * o.f 28 1) 8 s with
        | .wait s => s
        | .bad b s => eFault id o b s
        | .val bs s => go { o with data := bs } s
      else go o s

/-- A REDUCE forms its next element, or writes its flag and retires; of the orders that R288 allows, elements are written by rising
index (DESIGN CHOICE, log entry 75). -/
def stepReduce (id : Nat) (o : EOp) (s : State) : State :=
  let i := o.f 29 1
  let f := o.f 30 1
  if o.phase < o.f 24 4 then
    let rs := o.buffers.map fun b => (o.dst (b + o.phase * redBytes i) (redBytes i)).map fun pa => (pa, 1, 0)
    let ls := (rs.flatten.map fun r => lineOf r.1).eraseDups
    if !s.canAccess 16 ls then sendData ls s
    else match ePoison rs.flatten s with
      | (some _, s) => eParity id o 2 s
      | (none, s) =>
        let v := redElem i f (rs.map fun r => leNat (s.eBytes o r))
        match eWrite o (o.f 0 8 + o.phase * redBytes f) (leBytes v (redBytes f)) s with
        | (true, s) => setEop id { o with phase := o.phase + 1 } s
        | (false, s) => s
  else whenRetire o s fun s =>
    if o.f 32 8 = 0 then eRetire id o s
    else match eWrite o (o.f 32 8) (leBytes (o.f 40 8) 8) s with
      | (true, s) => eRetire id o s
      | (false, s) => s

/-- REDUCE_COMPLETE (R288, R289): the request at the head of an engine goes on; with parity the engine's buffers have
failed (R470). -/
def execReduceComplete (e : Nat) (parity : Bool) (s : State) : Host.Outcome State Fault Refusal := putOff s <|
  match mget [] s.redQ e with
  | [] => ok s
  | id :: _ =>
    match s.eop? id with
    | none => ok (leaveEngine id s)
    | some o =>
      if !o.read then ok (readReduce id o s)
      else if parity then ok (eParity id o 1 s)
      else ok (stepReduce id o s)

end Sys2Proof.Machine
end

