-- ==== Sys2Proof/Machine/Layout.lean ====
section
/-! DEFINITION. The layout engine (R282 to R286, R463 to R465): its four commands, one logical page a step.
Readings and choices of the model: DEDUCED log entry 38. -/

namespace Sys2Proof.Machine

/-! ### Descriptors and pages -/

/-- A field of descriptor g is written: FLAGS, and the fields a RESTRIPE moves. -/
def setFlagsOf (g f : Nat) (s : State) : State :=
  let off := 0x110000 + 64 * g + 8
  let w := (s.reg off).toNat
  s.setReg off (BitVec.ofNat 64 (bits w 63 48 * 2 ^ 48 + f % 256 * 2 ^ 40 + w % 2 ^ 40))
/-- FMT, U and NP lie outside R282. -/
def layBad (d : Nat) : Bool :=
  decide (1 < dFmt d) || dU d % 2 != 0 || decide (dU d < 2) || decide (128 < dU d) || (dFmt d == 1 && dU d != 32)
  || dNp d == 0 || decide (512 < dNp d)

/-- Values of a list of options, when all are there. -/
def allSome {α : Type} : List (Option α) → Option (List α)
  | [] => some []
  | none :: _ => none
  | some a :: l => (allSome l).map (a :: ·)
/-- Physical addresses of the cells of the element bytes, and of the scale bytes, of a logical page (R283). -/
def State.pageCells (s : State) (d p : Nat) : Option (List Nat) :=
  allSome ((List.range 4096).map fun i => (s.elemCell d (128 * p + i / 32) (i % 32)).map (pmdBase + ·))
def State.pageScales (s : State) (d p : Nat) : Option (List Nat) :=
  if dFmt d ≠ 1 then some [] else allSome ((List.range 256).map fun i => (s.scaleCell d (256 * p + i)).map (pmdBase + ·))

/-- What a page comes to: a wait, a reason of R465, or the swap. -/
inductive LayOut where
  | wait (s : State)
  | bad (r : Nat) (s : State)
  | swap (s : State)

/-- The column words behind cells are read (R456): whether one is uncorrectable. -/
def layRead (cells : List Nat) (s : State) : Bool × State :=
  let cols := (cells.map fun a => (a - pmdBase) / 32).eraseDups
  let s := cols.foldl (fun s c => chanRead c s) s
  (cols.any fun c => s.poison.contains (lineOf (pmdBase + 32 * c)), s)
/-- Bytes are written into cells, whole column words at a time. -/
def layWrite (cells : List Nat) (bs : List Byte) (s : State) : State :=
  (runsOf (cells.zip bs)).foldl (fun s r => physWrite r.1 r.2 s) s

/-- Host copies of lines are called back (R285): f goes on once none is left; a host that is fenced does not answer. -/
def layLines (ls : List Nat) (s : State) (f : State → LayOut) : LayOut :=
  if ls.any fun l => (s.lineCo l).host then (if s.pkg.fenced then .bad 4 s else .wait (sendBisnp ls s)) else f s
/-- Aperture lines of a page of descriptor d. -/
def apLines (d p : Nat) : List Nat := linesOf (dLbase d + 4096 * p) 4096 ++
  if dFmt d = 1 then linesOf (dSbase d + 256 * p) 256 else []

/-- The bytes of cells, checked. -/
def layBytes (src dst : List Nat) (s : State) (f : List Byte → State → LayOut) : LayOut :=
  match layRead (src ++ dst) s with
  | (true, s) => .bad 2 s
  | (false, s) => f (src.map s.cellByte) s

/-- STRIPE of a page (R285): element pages are copied; the spec gives scale bytes no place among plain frames. -/
def stripePage1 (c : LCmd) (s : State) : LayOut :=
  let d := s.layDesc c.g
  let src := (List.range 4096).map (c.addr + 4096 * c.page + ·)
  match s.pageCells d c.page with
  | none => .bad 1 s
  | some cells => layLines (apLines d c.page ++ linesOf (c.addr + 4096 * c.page) 4096) s fun s =>
      layBytes src cells s fun bs s => .swap (layWrite cells bs s)
/-- UNSTRIPE of a page. -/
def unstripePage1 (c : LCmd) (s : State) : LayOut :=
  let d := s.layDesc c.g
  let dst := c.addr + 4096 * c.page
  match s.pageCells d c.page with
  | none => .bad 1 s
  | some cells => layLines (apLines d c.page ++ linesOf dst 4096) s fun s =>
      layBytes cells ((List.range 4096).map (dst + ·)) s fun bs s => .swap (homeWrite dst bs s)
/-- RESTRIPE of a page: elements and scales move to g2's placement. -/
def restripePage1 (c : LCmd) (s : State) : LayOut :=
  let d := s.layDesc c.g
  let e := s.layDesc c.g2
  let cells := fun (d : Nat) => match s.pageCells d c.page, s.pageScales d c.page with
    | some a, some b => some (a, b)
    | _, _ => none
  match cells d, cells e with
  | some (a, as), some (b, bs) =>
    let src := a ++ if bs = [] then [] else as
    let dst := b ++ if as = [] then [] else bs
    layLines (apLines d c.page) s fun s => layBytes src dst s fun x s =>
      let s := layWrite dst x s
      .swap { s with layout := { s.layout with
        gen := (c.g, c.g2, c.page + 1) :: s.layout.gen.filter (·.1 ≠ c.g) } }
  | _, _ => .bad 1 s
/-- Packed MI4 elements of a block (R72). -/
def packMi4 : List Int → List Byte
  | a :: b :: l => BitVec.ofNat 8 ((a % 16).toNat + 16 * (b % 16).toNat) :: packMi4 l
  | [a] => [BitVec.ofNat 8 (a % 16).toNat]
  | [] => []
/-- Blocks of 32 codes, quantised by MXQUANT under RNE (R74): scales and elements. -/
def quantBlocks (bs : List Byte) (n : Nat) : List Byte × List Byte :=
  (List.range n).foldl (fun (p : List Byte × List Byte) b =>
    let xs := ((bs.drop (32 * b)).take 32).map fun x => FV.ofInt (sext 8 x.toNat)
    let (e, q) := mxQuant 0xD RNE xs
    (p.1 ++ [BitVec.ofNat 8 e], p.2 ++ packMi4 q)) ([], [])
/-- REQUANT of a page of h, from two pages of g; codes beyond g's end count as 0. -/
def requantPage1 (c : LCmd) (s : State) : LayOut :=
  let d := s.layDesc c.g
  let e := s.layDesc c.g2
  let second := decide (2 * c.page + 1 < dLen d)
  match s.pageCells d (2 * c.page), (if second then s.pageCells d (2 * c.page + 1) else some []),
      s.pageCells e c.page, s.pageScales e c.page with
  | some a, some b, some x, some y =>
    layLines (apLines e c.page) s fun s => layBytes (a ++ b) (x ++ y) s fun bs s =>
      let (sc, el) := quantBlocks (bs ++ List.replicate (8192 - bs.length) 0) 256
      let s := layWrite y sc (layWrite x el s)
      let n := ((s.layout.zero.find? (·.1 == c.g2)).map (·.2)).getD 0
      .swap { s with layout := { s.layout with
        zero := (c.g2, max n (c.page + 1)) :: s.layout.zero.filter (·.1 ≠ c.g2) } }
  | _, _, _, _ => .bad 1 s

/-! ### Commands -/

/-- The descriptor that a command writes. -/
def LCmd.target (c : LCmd) : Nat := if 2 ≤ c.cmd then c.g2 else c.g
/-- Logical pages of a command. -/
def State.layPages (s : State) (c : LCmd) : Nat :=
  if c.cmd = 3 then min (dLen (s.layDesc c.g2)) ((dLen (s.layDesc c.g) + 1) / 2) else dLen (s.layDesc c.g)

/-- The head command is over. -/
def layNext (s : State) : State :=
  { s with layout := { s.layout with cmds := s.layout.cmds.tail, done := s.layout.done + 1 } }
/-- The head command stops at a fault (R463, R465). -/
def layStop (c : LCmd) (r : Nat) (s : State) : State :=
  let d := s.layDesc c.target
  let base := dLbase (s.layDesc (if c.cmd = 3 then c.g2 else c.g))
  let s := setFlagsOf c.target (fieldOf d 13 1 ||| 2) s
  let s := { s with layout := { s.layout with gen := s.layout.gen.filter fun r => !(r.1 == c.g && r.2.2 == 0) } }
  report { cause := 0x3B, kind := 1, src := 11, val := BitVec.ofNat 64 (base + 4096 * c.page),
           info := BitVec.ofNat 64 (r + c.cmd * 2 ^ 8 + c.target * 2 ^ 16 + c.page % 2 ^ 24 * 2 ^ 24) } .none (layNext s)
/-- A RESTRIPE or REQUANT whose last page has been swapped (R285). -/
def layFinish (c : LCmd) (s : State) : State :=
  if c.cmd = 2 then
    let o := fun (g i : Nat) => 0x110000 + 64 * g + 8 * i
    let s := s.setReg (o c.g2 0) (s.reg (o c.g 0))
    let s := s.setReg (o c.g2 3) (s.reg (o c.g 3))
    let s := s.setReg (o c.g2 1) (BitVec.ofNat 64 ((s.reg (o c.g2 1)).toNat / 2 ^ 32 * 2 ^ 32 + (s.reg (o c.g 1)).toNat % 2 ^ 32))
    let s := setFlagsOf c.g2 (fieldOf (s.layDesc c.g2) 13 1 ||| 1) s
    let s := setFlagsOf c.g (fieldOf (s.layDesc c.g) 13 1 &&& 0xFE) s
    layNext { s with layout := { s.layout with gen := s.layout.gen.filter (·.1 ≠ c.g) } }
  else if c.cmd = 3 then layNext { s with layout := { s.layout with zero := s.layout.zero.filter (·.1 ≠ c.g2) } }
  else layNext s

/-- A RESTRIPE is in progress from its first turn on: its pages are mapped by their own generations (R285, R503). -/
def beginRestripe (c : LCmd) (s : State) : State :=
  if c.cmd = 2 ∧ !s.layout.gen.any (·.1 == c.g) then { s with layout := { s.layout with gen := (c.g, c.g2, 0) :: s.layout.gen } }
  else s

/-- The head command, of the given number, does its next page; before its first it waits for the runs in flight that name its
regions (R285). -/
def layTurn (cmd : Nat) (f : LCmd → State → LayOut) (s : State) : Host.Outcome State Fault Refusal :=
  match s.layout.cmds with
  | [] => ok s
  | c :: cs =>
    let d := s.layDesc c.g
    let e := s.layDesc c.g2
    let s := if c.cmd = cmd then beginRestripe c s else s
    if c.cmd ≠ cmd ∨ c.page == 0 && (s.runsOn c.g || (decide (2 ≤ cmd) && s.runsOn c.g2)) then ok s
    else if layBad d || (decide (2 ≤ cmd) && layBad e) || (cmd == 3 && (dFmt d != 0 || dFmt e != 1)) then
      ok (layStop c 3 s)
    else
      -- a RESTRIPE passes over pages already at g2; a REQUANT's target reads as zero until swapped
      let at2 := match s.layout.gen.find? (fun r => r.1 == c.g && r.2.1 == c.g2) with
        | some (_, _, n) => n
        | none => 0
      let c := if cmd = 2 then { c with page := max c.page at2 } else c
      let s := if cmd = 3 ∧ !s.layout.zero.any (·.1 == c.g2) then
          { s with layout := { s.layout with zero := (c.g2, 0) :: s.layout.zero } }
        else s
      if s.layPages c ≤ c.page then ok (layFinish c s)
      else match f c s with
        | .wait s => ok s
        | .bad r s => ok (layStop c r s)
        | .swap s => ok { s with layout := { s.layout with cmds := { c with page := c.page + 1 } :: cs } }

/-- STRIPE (R285). -/
def execStripe (s : State) : Host.Outcome State Fault Refusal := layTurn 0 stripePage1 s
/-- UNSTRIPE (R285). -/
def execUnstripe (s : State) : Host.Outcome State Fault Refusal := layTurn 1 unstripePage1 s
/-- RESTRIPE (R285). -/
def execRestripe (s : State) : Host.Outcome State Fault Refusal := layTurn 2 restripePage1 s
/-- REQUANT (R285). -/
def execRequant (s : State) : Host.Outcome State Fault Refusal := layTurn 3 requantPage1 s

/-- A write of LCMD (R286). -/
def writeLcmd (v : Nat) (s : State) : State :=
  let l := s.layout
  if 4 ≤ bits v 63 60 then { s with layout := { l with bad := true } }
  else if 16 ≤ l.cmds.length then { s with layout := { l with full := true } }
  else { s with layout := { l with cmds := l.cmds ++
    [{ cmd := bits v 63 60, g := bits v 59 54, g2 := bits v 53 48, addr := bits v 44 0 * 4096 }] } }

end Sys2Proof.Machine
end

