-- ==== Sys2Proof/Machine/Attn.lean ====
section
/-! DEFINITION. Attention (R290 to R300): block triples, their merges, absent blocks (R298, R471), and the result.
Readings and choices of the model: DESIGN CHOICE log entry 14; DEDUCED log entries 20, 39. -/

namespace Sys2Proof.Machine

/-- ATTN (R290). -/
def execAttn (tk : BitVec 4) (a : BitVec 5) (t : BitVec 1) (c : BitVec 6) (s : State) :
    Host.Outcome State Fault Refusal := runE .attn 64 tk a t c s

/-! ### Reads -/

/-- What a read of the operation comes to: absent says that the leaf entry of a page has V = 0 (R298). -/
inductive AR (α : Type) where
  | wait (s : State)
  | absent (va : Nat) (s : State)
  | bad (b : EBad) (s : State)
  | val (a : α) (s : State)

def AR.bind {α β : Type} (x : AR α) (f : α → State → AR β) : AR β :=
  match x with
  | .wait s => .wait s
  | .absent va s => .absent va s
  | .bad b s => .bad b s
  | .val a s => f a s

/-- f over the members of a list, in order. -/
def AR.list {α β : Type} (f : α → State → AR β) : List α → State → AR (List β)
  | [], s => .val [] s
  | a :: l, s => (f a s).bind fun b s => (AR.list f l s).bind fun bs s => .val (b :: bs) s

/-- The leaf entry of the page of va has V = 0 (R298): at level 0, or a level-1 entry with LEAF = 1. -/
def State.leafGone (s : State) (tier space va : Nat) : Bool :=
  (s.tlbFind tier space va).isNone && !s.walking space (va / 4096) && s.canAccess 16 (s.walkLines space va) &&
  match s.walk space va with
    | .bad 0x20 0x50 => true
    | .bad 0x20 0x51 =>
      let sp := (s.reg (0x010000 + 8 * space)).toNat
      let e3 := s.physLe (bits sp 56 15 * 2 ^ 15 + 8 * bits va 56 45) 8
      let e2 := s.physLe (pteFrame e3 + 8 * bits va 44 33) 8
      pteLeaf (s.physLe (pteFrame e2 + 8 * bits va 32 21) 8)
    | _ => false

/-- A read of n bytes of a block. -/
def aRead (o : EOp) (va n al : Nat) (s : State) : AR (List Byte) :=
  match ([va, va + n - 1].find? fun a => s.leafGone o.tier o.space a) with
  | some a => .absent a s
  | none => match eRead o va n al s with
    | .wait s => .wait s
    | .bad b s => .bad b s
    | .val bs s => .val bs s
/-- A read outside the blocks: of the path, the node table and the query. -/
def pRead (o : EOp) (va n al : Nat) (s : State) : AR Nat :=
  match eRead o va n al s with
  | .wait s => .wait s
  | .bad b s => .bad b s
  | .val bs s => .val (leNat bs) s

/-! ### Triples (R295, R296) -/

/-- A triple (m, l, o). -/
structure Trip where
  m : FV := .inf true
  l : FV := .fin false 0 0
  o : List FV := []
deriving DecidableEq, Repr, Inhabited

/-- IDENTITY for D elements. -/
def tripId (d : Nat) : Trip := { o := List.replicate d (.fin false 0 0) }

/-- ROUND_RNE to F32, with subnormals honoured. -/
def r32 (v : FV) : FV := fp32.rv RNE false v
/-- EXP2 in F32 (R84, R85). -/
def exp32 (v : FV) : FV := r32 (fvExp2 v)
def negInf : FV := .inf true
/-- An exact sum; the sum of no terms is −0, which leaves every value unchanged (R64). -/
def exactSum (l : List FV) : FV := l.foldl (FV.add RNE) (.fin true 0 0)
/-- TREE_SUM over the 64 rows; rows without a value enter as −0 (R295, R81). -/
def treeSum (rows : List (Option FV)) : FV :=
  (treeFold (fun a b => r32 (a.add RNE b)) 6 (rows.map fun r => r.getD (.fin true 0 0))).headD .nan

/-- The triple of a block: for each of its 64 rows the key and value, none for a row that is not valid. -/
def blockTrip (d : Nat) (q : List FV) (scale : FV) (rows : List (Option (List FV × List FV))) : Trip :=
  let ss := rows.map fun r => r.map fun kv => r32 ((r32 (exactSum (q.zipWith FV.mul kv.1))).mul scale)
  let mb := (ss.filterMap id).foldl FV.max negInf
  if mb = negInf then tripId d
  else
    let ps := ss.map fun r => r.map fun x => exp32 (r32 (x.add RNE mb.neg))
    { m := mb, l := treeSum ps,
      o := (List.range d).map fun i => treeSum ((ps.zip rows).map fun pr => match pr with
        | (some p, some kv) => some (r32 (p.mul (kv.2.getD i .nan)))
        | _ => none) }

/-- MERGE (R296). -/
def mergeTrip (a b : Trip) : Trip :=
  if a.m = negInf ∧ b.m = negInf then tripId a.o.length
  else
    let m := a.m.max b.m
    let f1 := exp32 (r32 (a.m.add RNE m.neg))
    let f2 := exp32 (r32 (b.m.add RNE m.neg))
    let mix := fun (x y : FV) => r32 ((x.mul f1).add RNE (y.mul f2))
    { m := m, l := mix a.l b.l, o := a.o.zipWith mix b.o }
/-- MERGE where a slice may be absent (R82, R297). -/
def mergeOpt (a b : Option Trip) : Option Trip :=
  match a, b with
  | some a, some b => some (mergeTrip a b)
  | some a, none => some a
  | none, b => b

/-! ### The operation -/

def EOp.aD (o : EOp) : Nat := o.f 36 2
def EOp.aP0 (o : EOp) : Nat := o.f 24 4
def EOp.aP1 (o : EOp) : Nat := o.f 28 4

/-- A row of keys or values: D elements at va, and their scales for MXINT8 (R294). -/
def aRow (o : EOp) (f va sc : Nat) (s : State) : AR (List FV) :=
  let d := o.aD
  if f = 2 then
    (aRead o va d 1 s).bind fun es s => (aRead o sc (d / 32) 1 s).bind fun ss s =>
      .val ((List.range d).map fun i =>
        mxValue 0xB (sext 8 (es.getD i 0).toNat) (ss.getD (i / 32) 0).toNat) s
  else
    (aRead o va (2 * d) 2 s).bind fun es s =>
      .val ((List.range d).map fun i =>
        (if f = 0 then fp16 else bf16).value false (leNat ((es.drop (2 * i)).take 2))) s

/-- A block of a path entry: its index, the positions of its node and its pointer's address. -/
structure ABlk where
  i : Nat
  b : Nat
  start : Nat
  run : Nat
  ptr : Nat
deriving DecidableEq, Repr, Inhabited

/-- The row of a block is valid (R293). -/
def EOp.rowValid (o : EOp) (k : ABlk) (r : Nat) : Bool :=
  let p := k.start + 64 * k.b + r
  decide (o.aP0 ≤ p) && decide (p < o.aP1) && decide (p < k.start + k.run)

/-- The blocks with a valid row of a node, in order (R293). -/
def EOp.nodeBlks (o : EOp) (i node : Nat) : List ABlk :=
  let st := fieldOf node 0 4
  let run := fieldOf node 4 4
  let lo := max o.aP0 st
  let hi := min o.aP1 (st + run)
  if hi ≤ lo then []
  else
    let b0 := (lo - st) / 64
    (List.range ((hi - 1 - st) / 64 + 1 - b0)).map fun j =>
      { i := i, b := b0 + j, start := st, run := run, ptr := fieldOf node 8 8 + 8 * (b0 + j) }

/-- Every block of the range by block key (R292, R293). -/
def aBlks (o : EOp) (s : State) : AR (List ABlk) :=
  if o.aP0 = o.aP1 then .val [] s
  else (pRead o (o.f 8 8) 8 8 s).bind fun h s =>
    (AR.list (fun i s => (pRead o (o.f 8 8 + 8 + 4 * i) 4 4 s).bind fun n s =>
      (pRead o (o.f 16 8 + 16 * n) 16 16 s).bind fun node s => .val (o.nodeBlks i node) s) (List.range (h % 256)) s).bind
    fun l s => .val l.flatten s

/-- The count of the path is above 32 (R292, R433). -/
def aPathBad (o : EOp) (s : State) : AR Bool :=
  (pRead o (o.f 8 8) 8 8 s).bind fun h s => .val (decide (32 < h % 256)) s

/-- The slice that R107 gives for the physical address of a block (R294); its page is translated, and nothing of it read (R293). -/
def aHome (o : EOp) (B : Nat) (s : State) : AR Nat :=
  match eSide o B 1 1 .read s with
  | (.inl b, s) => .bad b s
  | (.inr rs, s) => .val (homeSlice (rs.headD (0, 0, 0)).1) s

/-- The operation as the attention unit of a slice runs it. -/
def EOp.onSlice (o : EOp) (slice : Nat) : EOp := { o with engine := 4 + slice }
/-- The slice of a block, if it can be found now. -/
def aSlice (o : EOp) (B : Nat) (s : State) : Option Nat :=
  match aHome o B s with
  | .val h _ => some h
  | _ => none

/-- A block's slice and triple (R294, R295). -/
def aBlock (o : EOp) (q : List FV) (k : ABlk) (s : State) : AR (Nat × Trip) :=
  (pRead o k.ptr 8 8 s).bind fun B s =>
    let o := o.onSlice ((aSlice o B s).getD 0)
    let kf := bits (o.f 38 1) 1 0
    let vf := bits (o.f 38 1) 3 2
    let d := o.aD
    (AR.list (fun r s =>
      if !o.rowValid k r then .val none s
      else (aRow o kf (B + r * o.f 40 2) (B + o.f 48 4 + r * (d / 32)) s).bind fun ks s =>
        (aRow o vf (B + o.f 44 4 + r * o.f 42 2) (B + o.f 52 4 + r * (d / 32)) s).bind fun vs s => .val (some (ks, vs)) s)
      (List.range 64) s).bind fun rows s =>
    (aHome o B s).bind fun home s =>
    .val (home, blockTrip d q (fp32.value false (o.f 32 4)) rows) s

/-- The blocks in key order (R298): an absent one is skipped, and its unit goes on with the blocks up to 15 ahead of it; gone holds
the places and slices of the absent ones, va the page of the first. -/
def aBlocks (o : EOp) (q : List FV) : List (ABlk × Nat) → List (Nat × Option Nat) → Option Nat → State → AR (List (Nat × Trip))
  | [], _, none, s => .val [] s
  | [], _, some va, s => .absent va s
  | (k, j) :: l, gone, va, s =>
    let h := match pRead o k.ptr 8 8 s with
      | .val B s => aSlice o B s
      | _ => none
    if gone.any fun g => g.2 == h && decide (g.1 + 15 < j) then aBlocks o q l gone va s
    else match aBlock o q k s with
      | .wait s => .wait s
      | .bad b s => .bad b s
      | .absent v s => aBlocks o q l ((j, h) :: gone) (some (va.getD v)) s
      | .val t s => (aBlocks o q l gone va s).bind fun ts s => .val (t :: ts) s

/-- The query (R291). -/
def aQuery (o : EOp) (s : State) : AR (List FV) :=
  match eRead o (o.f 0 8) (4 * o.aD) 4 s with
  | .wait s => .wait s
  | .bad b s => .bad b s
  | .val bs s => .val ((List.range o.aD).map fun i => fp32.value false (leNat ((bs.drop (4 * i)).take 4))) s

/-- The whole attention: blocks merged in key order within a slice, slices in a tree (R297). -/
def aResult (o : EOp) (s : State) : AR Trip :=
  (aBlks o s).bind fun ks s =>
    (if ks = [] then .val [] s else aQuery o s).bind fun q s =>
    (aBlocks o q ks.zipIdx [] none s).bind fun ts s =>
    let slice := fun (i : Nat) => ((ts.filter (·.1 == i)).map (·.2)).foldl (fun (a : Option Trip) t =>
      some (mergeTrip (a.getD (tripId o.aD)) t)) none
    let leaves := (List.range 32).map slice
    .val (((pairUp mergeOpt (tree82 mergeOpt leaves)).headD none).getD (tripId o.aD)) s

/-- The bytes of the result (R300). -/
def aBytes (o : EOp) (t : Trip) : List Byte :=
  let w := fun (v : FV) => leBytes (fp32.round RNE false v) 4
  let norm := bit (o.f 38 1) 4
  let lz := t.l == .fin false 0 0 || (t.l.isZero && !t.l.isNeg)
  w t.m ++ w t.l ++ t.o.flatMap fun x =>
    w (if norm then (if lz then .fin false 0 0 else x.div t.l) else x)

/-- First absent block, as path entry and block (R471). -/
def aFirstAbsent (o : EOp) (s : State) : Nat × Nat :=
  match aBlks o s with
  | .val ks s =>
    match ks.find? fun k => match aBlock o (List.replicate o.aD .nan) k s with
      | .absent _ _ => true
      | _ => false with
    | some k => (k.i, k.b)
    | none => (0, 0)
  | _ => (0, 0)

/-- A cause met by a read: a poisoned line ends the operation (R470), any other parks it (R448). -/
def aStop (id : Nat) (o : EOp) (b : EBad) (s : State) : State :=
  if b.code = 0x38 then eParity id o 2 s else eFault id o b s

/-- The block is read and checked (R433). -/
def readAttn (id : Nat) (o : EOp) (s : State) : State :=
  withBlock id 64 64 o s fun o s =>
    let d := o.aD
    let kf := bits (o.f 38 1) 1 0
    let vf := bits (o.f 38 1) 3 2
    if o.aP1 < o.aP0 then eEnd id o 24 0 s
    else if d % 32 ≠ 0 ∨ d < 32 ∨ 256 < d then eEnd id o 36 0 s
    else if kf = 3 ∨ vf = 3 then eEnd id o 38 0 s
    else match aPathBad o s with
      | .wait s => s
      | .absent _ s => s
      | .bad b s => aStop id o b s
      | .val true s => eEnd id o 8 0 s
      | .val false s => setEop id { o with read := true } s

/-- ATTN_COMPLETE (R298, R300): every triple is merged and the result written, unless a block is absent; with parity the
units' buffers have failed (R470). -/
def execAttnComplete (id : Nat) (parity : Bool) (s : State) : Host.Outcome State Fault Refusal := putOff s <|
  match s.eop? id with
  | none => ok s
  | some o =>
    if o.kind ≠ .attn ∨ o.parked then ok s
    else if !o.read then ok (readAttn id o s)
    else if parity then ok (eParity id o 1 s)
    else if o.absentAt.isSome then ok s
    else match aResult o s with
      | .wait s => ok s
      | .absent _ s => ok (setEop id { o with absentAt := some s.clk, tried := s.clk } s)
      | .bad b s => ok (aStop id o b s)
      | .val t s =>
        match eSides o .write [(o.f 56 8, 8 + 4 * o.aD, 8)] s with
        | (some b, _, s) => ok (eFault id o b s)
        | (none, ds, s) =>
          let o := { o with dsts := ds }
          ok (whenRetire o s fun s => match eWrite o (o.f 56 8) (aBytes o t) s with
            | (true, s) => eRetire id o s
            | (false, s) => s)

/-- An ATTN that waits at an absent block tries it again (R298). -/
def retryOp (id : Nat) (s : State) : State :=
  match s.eop? id with
  | none => s
  | some o =>
    if o.kind ≠ .attn ∨ o.parked ∨ o.absentAt.isNone then s
    else unlessPutOff s (match aResult o s with
      | .absent _ s => setEop id { o with retries := o.retries + 1, tried := s.clk } s
      | .bad _ t => setEop id { o with retries := o.retries + 1, absentAt := none } { s with walkStop := t.walkStop }
      | _ => setEop id { o with retries := o.retries + 1, absentAt := none } s)
/-- Every ATTN at an absent block that has not tried it for 4 096 clk tries it again (R298). -/
def retryLate (s : State) : State :=
  s.eops.foldl (fun s e => if e.2.absentAt.isSome && decide (e.2.tried + 4096 ≤ s.clk) then retryOp e.1 s else s) s
/-- ATTN_ABSENT_RETRY (R298): the absent block is tried again. -/
def execAttnAbsentRetry (id : Nat) (s : State) : Host.Outcome State Fault Refusal := ok (retryOp id s)

/-- ATTN_ABSENT_TIMEOUT (R471). -/
def execAttnAbsentTimeout (id : Nat) (s : State) : Host.Outcome State Fault Refusal := putOff s <|
  match s.eop? id with
  | none => ok s
  | some o =>
    let lim := bits (s.reg 0x130030).toNat 15 12
    match o.absentAt with
    | none => ok s
    | some c =>
      if o.kind ≠ .attn ∨ o.parked ∨ lim = 0 ∨ s.clk < c + 2 ^ (lim + 12) then ok s
      else match aResult o s with
        | .absent va s =>
          let (i, b) := aFirstAbsent o s
          let inf := i % 64 + b % 2 ^ 24 * 2 ^ 8 + o.retries % 2 ^ 32 * 2 ^ 32
          ok (eFault id o { code := 0x3D, val := va, info := some inf } s)
        | _ => ok s

end Sys2Proof.Machine
end

