-- ==== Sys2Proof/Machine/Sample.lean ====
section
/-! DEFINITION. The winnow engine (R306 to R310, R434) and the sampling engine (R301 to R305).
Readings and choices of the model: DESIGN CHOICE log entry 14; DEDUCED log entry 40. -/

namespace Sys2Proof.Machine

/-- SAMPLE (R290). -/
def execSample (tk : BitVec 4) (a : BitVec 5) (t : BitVec 1) (c : BitVec 6) (s : State) :
    Host.Outcome State Fault Refusal := runE .sample 64 tk a t c s
/-- WNSTEP (R290). -/
def execWnstep (tk : BitVec 4) (a : BitVec 5) (t : BitVec 1) (c : BitVec 6) (s : State) :
    Host.Outcome State Fault Refusal := runE .wnstep 32 tk a t c s

/-! ### Grammars, contexts and masks (R306, R307) -/

/-- Fields of a grammar descriptor. -/
def gV (g : Nat) : Nat := fieldOf g 0 4
def gNstate (g : Nat) : Nat := fieldOf g 4 2
def gNsym (g : Nat) : Nat := fieldOf g 6 2
def gNclass (g : Nat) : Nat := fieldOf g 8 2
def gDepth (g : Nat) : Nat := fieldOf g 10 1
def gStart (g : Nat) : Nat := fieldOf g 12 2
def gClasstab (g : Nat) : Nat := fieldOf g 16 8
def gTrans (g : Nat) : Nat := fieldOf g 24 8
def gMasktab (g : Nat) : Nat := fieldOf g 32 8
/-- Lines of a mask. -/
def gLines (g : Nat) : Nat := (gV g + 511) / 512

def State.gram (s : State) (slot : Nat) : Option Nat := (lookupN s.grams slot).map (·.toNat)
def State.wctxOf (s : State) (c : Nat) : WCtx := mget {} s.wctx c
/-- The top symbol, 0 for an empty stack. -/
def WCtx.top (c : WCtx) : Nat := c.stack.headD 0

/-- One line of a mask through the cache (R306, R310). -/
def maskLine (o : EOp) (slot g st top i : Nat) (s : State) : AR (BitVec 512) :=
  match s.mcache.find? fun l => l.1 == slot && l.2.1 == st && l.2.2.1 == top && l.2.2.2.1 == i with
  | some l => .val l.2.2.2.2 s
  | none =>
    match eRead o (gMasktab g + (st * gNsym g + top) * (64 * gLines g) + 64 * i) 64 64 s with
    | .wait s => .wait s
    | .bad b s => .bad b s
    | .val bs s =>
      let v := BitVec.ofNat 512 (leNat bs)
      .val v { s with mcache := ((slot, st, top, i, v) :: s.mcache).take 65536 }
/-- The lines of the mask of a slot, state and top, as one number; its bits at or beyond V mean nothing. -/
def maskOf (o : EOp) (slot g st top : Nat) (s : State) : AR Nat :=
  (AR.list (fun i s => maskLine o slot g st top i s) (List.range (gLines g)) s).bind fun ls s =>
    .val ((ls.zipIdx).foldl (fun a l => a + l.1.toNat * 2 ^ (512 * l.2)) 0) s

/-! ### WNSTEP (R308, R309) -/

def EOp.wOp (o : EOp) : Nat := o.f 0 1
def EOp.wCtx (o : EOp) : Nat := o.f 1 1
def EOp.wSlot (o : EOp) : Nat := o.f 2 1

/-- The block is read and checked (R433). -/
def readWnstep (id : Nat) (o : EOp) (s : State) : State :=
  withBlock id 32 32 o s fun o s =>
    if 3 < o.wOp then eEnd id o 0 0 s
    else if 63 < o.wCtx then eEnd id o 1 0 s
    else if 2 ≤ o.wOp ∧ (s.wctxOf o.wCtx).slot.isNone then eEnd id o 1 0xFFFF s
    else if o.wOp < 2 ∧ 15 < o.wSlot then eEnd id o 2 0 s
    else if o.wOp = 1 ∧ (s.gram o.wSlot).isNone then eEnd id o 2 0xFFFF s
    else setEop id { o with read := true } s

/-- The request at the head of the winnow engine, if it is of this operation, takes effect (R306). -/
def winTurn (op : Nat) (f : Nat → EOp → State → State) (s : State) : Host.Outcome State Fault Refusal :=
  match s.winQ with
  | [] => ok s
  | id :: _ =>
    match s.eop? id with
    | none => ok (leaveEngine id s)
    | some o => if !o.read then ok (readWnstep id o s) else if o.wOp = op then ok (f id o s) else ok s

/-- First field of a descriptor outside R307. -/
def gramBad (g : Nat) : Option Nat :=
  if gV g = 0 ∨ 262144 < gV g then some 0
  else if gNstate g = 0 ∨ 4096 < gNstate g then some 4
  else if gNsym g = 0 ∨ 256 < gNsym g then some 6
  else if gNclass g = 0 ∨ 256 < gNclass g then some 8
  else if gDepth g = 0 ∨ 64 < gDepth g then some 10
  else if gNstate g ≤ gStart g then some 12
  else if gMasktab g % 64 ≠ 0 then some 32
  else none

/-- GRAM: the descriptor is loaded and the slot's cached lines are dropped. -/
def execGram (s : State) : Host.Outcome State Fault Refusal := putOff s <|
  winTurn 0 (fun id o s =>
    match eRead o (o.f 8 8) 64 64 s with
    | .wait s => s
    | .bad b s => eFault id o b s
    | .val bs s =>
      match gramBad (leNat bs) with
      | some off => eEnd id o 8 off s
      | none => whenRetire o s (fun s =>
          eRetire id o { s with grams := mput (merase s.grams o.wSlot) o.wSlot (BitVec.ofNat 512 (leNat bs)),
                                mcache := s.mcache.filter (·.1 ≠ o.wSlot) })) s

/-- The status word (R309). -/
def wStatus (c : WCtx) (mask : Nat) (v : Nat) (nostep : Bool) : Nat :=
  let n := (List.range v).countP (bit mask)
  c.state % 4096 + c.stack.length % 128 * 2 ^ 12 + c.top % 256 * 2 ^ 19 + (if n = 1 then 2 ^ 32 else 0)
    + (if n = 0 then 2 ^ 33 else 0) + (if nostep then 2 ^ 34 else 0) + n % 2 ^ 24 * 2 ^ 40

/-- The context's new content takes effect with the writes of FETCH (R309), after everything it reads and writes has
been translated; irr says that a guarded task becomes irrevocable first (R310). -/
def wEffect (id : Nat) (o : EOp) (slot g : Nat) (c : WCtx) (nostep irr : Bool) (s : State) : State :=
  match maskOf o slot g c.state c.top s with
  | .wait s => s
  | .absent _ s => s
  | .bad b s => eFault id o b s
  | .val m s =>
    let wr := bit (o.f 3 1) 0
    let st := o.f 24 8
    let outs := (if wr then [(o.f 16 8, 64 * gLines g, 64)] else []) ++ if st = 0 then [] else [(st, 8, 8)]
    match eSides o .write outs s with
    | (some b, _, s) => eFault id o b s
    | (none, ds, s) =>
      let o := { o with dsts := ds }
      let t := o.org.task
      let ls := ds.flatMap fun d => linesOf d.2.1 d.2.2.1
      if s.putWaits t ls then sendBisnp (s.taskLines t ls) s
      else whenRetire o s fun s =>
        let s := if irr then becomeIrrevocable t 4 s else s
        let s := { s with wctx := mset {} s.wctx o.wCtx c }
        let s := if wr then (eWrite o (o.f 16 8) (leBytes m (64 * gLines g)) s).2 else s
        let s := if st = 0 then s else (eWrite o st (leBytes (wStatus c m (gV g) nostep) 8) s).2
        eRetire id o s

/-- INIT: the context is bound to the slot at its start state. -/
def execInitW (s : State) : Host.Outcome State Fault Refusal := putOff s <|
  winTurn 1 (fun id o s =>
    match s.gram o.wSlot with
    | none => eEnd id o 2 0xFFFF s
    | some g => wEffect id o o.wSlot g { slot := some o.wSlot, state := gStart g } false false s) s

/-- A delegable cause ends the operation without effect (R404, R434). -/
def wTrap (id : Nat) (o : EOp) (cause tok st : Nat) (s : State) : State :=
  delegable o.org cause o.org.block.toNat tok st (leaveEngine id (dropEop id s))

/-- A step by token t (R309, R434): off is the block field that led to the tables. -/
def wStep (id off t : Nat) (o : EOp) (s : State) : State :=
  let c := s.wctxOf o.wCtx
  let slot := c.slot.getD 0
  match s.gram slot with
  | none => eEnd id o 1 0xFFFF s
  | some g =>
    match maskOf o slot g c.state c.top s with
    | .wait s => s
    | .absent _ s => s
    | .bad b s => eFault id o b s
    | .val m s =>
      if gV g ≤ t ∨ !bit m t then wTrap id o 0x60 t c.state s
      else match pRead o (gClasstab g + t) 1 1 s with
        | .wait s => s
        | .absent _ s => s
        | .bad b s => eFault id o b s
        | .val cl s =>
          if gNclass g ≤ cl then eEnd id o off 16 s
          else match pRead o (gTrans g + 4 * (c.state * gNclass g + cl)) 4 4 s with
            | .wait s => s
            | .absent _ s => s
            | .bad b s => eFault id o b s
            | .val e s =>
              let op := bits e 13 12
              let sym := bits e 21 14
              let next := bits e 11 0
              if op = 1 ∧ gDepth g ≤ c.stack.length then wTrap id o 0x61 t c.state s
              else if op = 2 ∧ c.stack = [] then wTrap id o 0x62 t c.state s
              else if op = 3 ∨ gNstate g ≤ next ∨ (op = 1 ∧ (sym = 0 ∨ gNsym g ≤ sym)) then eEnd id o off 24 s
              else
                let stack := if op = 1 then sym :: c.stack else if op = 2 then c.stack.tail else c.stack
                wEffect id o slot g { c with state := next, stack := stack } false true s

/-- STEP. -/
def execStepW (s : State) : Host.Outcome State Fault Refusal := putOff s <|
  winTurn 2 (fun id o s => wStep id 4 (o.f 4 4) o s) s

/-- STEPR: an EMPTY sample makes no step. -/
def execSteprW (s : State) : Host.Outcome State Fault Refusal := putOff s <|
  winTurn 3 (fun id o s =>
    match pRead o (o.f 8 8) 8 8 s with
    | .wait s => s
    | .absent _ s => s
    | .bad b s => eFault id o b s
    | .val r s =>
      if bit r 34 then
        let c := s.wctxOf o.wCtx
        match s.gram (c.slot.getD 0) with
        | none => eEnd id o 1 0xFFFF s
        | some g => wEffect id o (c.slot.getD 0) g c true true s
      else wStep id 8 (bits r 31 0) o s) s

/-! ### SAMPLE (R301 to R304) -/

/-- GEN (R302). -/
def genDraw (seed ctr : Word) : Nat :=
  let x := seed + ctr * 0x9E3779B97F4A7C15
  let x := (x ^^^ (x >>> 30)) * 0xBF58476D1CE4E5B9
  let x := (x ^^^ (x >>> 27)) * 0x94D049BB133111EB
  let x := x ^^^ (x >>> 31)
  (x >>> 32).toNat

/-- A candidate: token, score and weight. -/
structure Cand where
  tok : Nat
  s : FV
  w : FV := .fin false 0 0
deriving DecidableEq, Repr, Inhabited

/-- Rank order (R303): descending score, the lower token first among equals. -/
def Cand.before (a b : Cand) : Bool := b.s.lt a.s || (!a.s.lt b.s && decide (a.tok < b.tok))
def insertCand (c : Cand) : List Cand → List Cand
  | [] => [c]
  | d :: l => if c.before d then c :: d :: l else d :: insertCand c l
def rankCands (l : List Cand) : List Cand := l.foldr insertCand []

/-- What SAMPLE returns: the result word (R304), and whether it has drawn. -/
structure Choice where
  word : Nat
  drawn : Bool := false
deriving DecidableEq, Repr, Inhabited
def resultWord (tok : Nat) (forced drawn empty : Bool) (ncand : Nat) : Nat :=
  tok % 2 ^ 32 + (if forced then 2 ^ 32 else 0) + (if drawn then 2 ^ 33 else 0) + (if empty then 2 ^ 34 else 0)
    + ncand % 2 ^ 24 * 2 ^ 40

/-- Members kept, up to and including the first whose running sum reaches th, each with its running sum. -/
def keepCands (th : FV) : FV → List Cand → List (Cand × FV)
  | _, [] => []
  | cum, c :: l =>
    let cum := r32 (cum.add RNE c.w)
    if th.isNan || cum.lt th then (c, cum) :: keepCands th cum l else [(c, cum)]

/-- The choice among the allowed tokens with their logits (R303). -/
def chooseToken (scale topp : FV) (topk : Nat) (seed ctr : Word) (l : List (Nat × FV)) : Choice :=
  let n := l.length
  match l with
  | [] => { word := resultWord 0xFFFFFFFF false false true 0 }
  | [t] => { word := resultWord t.1 true false false 1 }
  | _ =>
    let cs := l.map fun t =>
      let x := if t.2.isNan then negInf else t.2
      let y := if scale.isZero then x else r32 (x.mul scale)
      ({ tok := t.1, s := if y.isNan then negInf else y } : Cand)
    let m := cs.foldl (fun a c => if a.lt c.s then c.s else a) negInf
    let greedy := (cs.find? fun c => !c.s.lt m).map (·.tok)
    if scale.isZero ∨ m = negInf then { word := resultWord (greedy.getD 0) false false false 1 }
    else
      let C := if decide (0 < topk) && decide (topk < n) then (rankCands cs).take topk else rankCands cs
      let weight := fun (x : FV) =>
        if m = .inf false then (if x = .inf false then FV.ofInt 1 else .fin false 0 0) else exp32 (r32 (x.add RNE m.neg))
      let C := C.map fun c => { c with w := weight c.s }
      let Z := C.foldl (fun z c => r32 (z.add RNE c.w)) (.fin false 0 0)
      let kept := keepCands (r32 (topp.mul Z)) (.fin false 0 0) C
      let Zk := ((kept.getLast?).map (·.2)).getD (.fin false 0 0)
      let u := genDraw seed ctr
      let pick := kept.find? fun k => ((FV.ofInt u).mul Zk).lt (k.2.mul (FV.ofInt (2 ^ 32)))
      { word := resultWord ((pick.map (·.1.tok)).getD 0) false true false kept.length, drawn := true }

/-- The block is read and checked (R433). -/
def readSample (id : Nat) (o : EOp) (s : State) : State :=
  withBlock id 64 64 o s fun o s =>
    let v := o.f 8 4
    if v = 0 ∨ 262144 < v then eEnd id o 8 0 s
    else if 2 < o.f 12 1 then eEnd id o 12 0 s
    else if 2 < o.f 13 1 then eEnd id o 13 0 s
    else if 63 < o.f 14 1 then eEnd id o 14 0 s
    else if o.f 13 1 = 2 ∧ (s.wctxOf (o.f 14 1)).slot.isNone then eEnd id o 14 0xFFFF s
    else if 262144 < o.f 24 4 then eEnd id o 24 0 s
    else setEop id { o with read := true } s

/-- The mask, as a number of V bits (R301, R305). -/
def sampleMask (o : EOp) (s : State) : AR Nat :=
  let v := o.f 8 4
  match o.f 13 1 with
  | 0 => .val (2 ^ v - 1) s
  | 1 => match eRead o (o.f 48 8) ((v + 7) / 8) 64 s with
    | .wait s => .wait s
    | .bad b s => .bad b s
    | .val bs s => .val (leNat bs % 2 ^ v) s
  | _ =>
    let c := s.wctxOf (o.f 14 1)
    match s.gram (c.slot.getD 0) with
    | none => .val 0 s
    | some g => (maskOf o (c.slot.getD 0) g c.state c.top s).bind fun m s => .val (m % 2 ^ v) s

/-- The token is chosen; a draw writes the counter back (R304). -/
def chooseSample (id : Nat) (o : EOp) (s : State) : State :=
  let v := o.f 8 4
  let lf := o.f 12 1
  let n := if lf = 0 then 4 else 2
  match sampleMask o s with
  | .wait s => s
  | .absent _ s => s
  | .bad b s => eFault id o b s
  | .val m s =>
    match eRead o (o.f 0 8) (n * v) n s with
    | .wait s => s
    | .bad b s => eFault id o b s
    | .val bs s =>
      let F := redFmt lf
      let l := ((List.range v).filter (bit m)).map fun t => (t, F.value false (leNat ((bs.drop (n * t)).take n)))
      let c := chooseToken (fp32.value false (o.f 16 4)) (fp32.value false (o.f 20 4)) (o.f 24 4)
        (BitVec.ofNat 64 (o.f 32 8)) (BitVec.ofNat 64 (o.f 40 8)) l
      let blk := o.org.block.toNat
      match eSides o .write ((o.f 56 8, 8, 8) :: if c.drawn then [(blk + 40, 8, 8)] else []) s with
      | (some b, _, s) => eFault id o b s
      | (none, ds, s) =>
        let o := { o with dsts := ds, data := leBytes c.word 8, phase := 1 }
        if c.drawn then
          match eWrite o (blk + 40) (leBytes (o.f 40 8 + 1) 8) s with
          | (true, s) => setEop id o s
          | (false, s) => s
        else setEop id o s

/-- SAMPLE_COMPLETE (R303, R304): the request at the head of the sampling engine goes on. -/
def execSampleComplete (s : State) : Host.Outcome State Fault Refusal := putOff s <|
  match s.sampQ with
  | [] => ok s
  | id :: _ =>
    match s.eop? id with
    | none => ok (leaveEngine id s)
    | some o =>
      if !o.read then ok (readSample id o s)
      else if o.phase = 0 then ok (chooseSample id o s)
      else ok (whenRetire o s fun s => match eWrite o (o.f 56 8) o.data s with
        | (true, s) => eRetire id o s
        | (false, s) => s)

end Sys2Proof.Machine
end

