-- ==== Sys2Proof/Machine/Issue.lean ====
section
/-! DEFINITION. Words leave their engine queues (R42 to R46, R53, R113, R115, R123): which word may leave, and which
slot its engine chooses. The word takes effect in the turn that follows at once.
Readings and choices of the model: DEDUCED log entries 18, 34. -/

namespace Sys2Proof.Machine

/-- Accesses and fences that the issue of an M or T word must wait for (R113, R115, R123); the helper has none. -/
def State.issueOrdered (s : State) (k : Nat) (e : QEnt) : Bool :=
  e.walk.isNone || s.forkReady k (agentScope e.word) fun q => q.earlier e.walk e.id

/-- The core works: its clocks run, it is awake and answers (R24, R496, R500). -/
def State.coreRuns (s : State) (c : Nat) : Bool :=
  !s.pkg.stopped && !s.pkg.gated.getLsbD c && !(s.core c).waking && !s.pkg.deadCores.getLsbD c

/-- The head word of a queue may look whether it can issue (R31, R42, R44). -/
def State.headReady (s : State) (k q : Nat) : Bool :=
  let sl := s.slot k
  match mget [] sl.queues q with
  | [] => false
  | e :: _ =>
    sl.task.isSome && sl.st != 5 && sl.issuing.isNone && sl.tokReady q (e.word.extractLsb' 25 4)
    && (if q = 0 then decide (sl.results = []) else s.issueOrdered k e)

/-- The meaning of a word that goes through an engine. -/
def engineWord (i : Instr) (s : State) : Host.Outcome State Fault Refusal :=
  match i with
  | .vshape tk x ss m t => execVshape tk x ss m t s
  | .vadd tk d a b v => execVadd tk d a b v s
  | .vsub tk d a b v => execVsub tk d a b v s
  | .vmul tk d a b v => execVmul tk d a b v s
  | .vfma tk d a b v => execVfma tk d a b v s
  | .vfms tk d a b v => execVfms tk d a b v s
  | .vmin tk d a b v => execVmin tk d a b v s
  | .vmax tk d a b v => execVmax tk d a b v s
  | .vabs tk d a v => execVabs tk d a v s
  | .vneg tk d a v => execVneg tk d a v s
  | .vdiv tk d a b v => execVdiv tk d a b v s
  | .vsqrt tk d a v => execVsqrt tk d a v s
  | .vrcp tk d a v => execVrcp tk d a v s
  | .vrsq tk d a v => execVrsq tk d a v s
  | .vexp2 tk d a v => execVexp2 tk d a v s
  | .vlog2 tk d a v => execVlog2 tk d a v s
  | .vand tk d a b v => execVand tk d a b v s
  | .vor tk d a b v => execVor tk d a b v s
  | .vxor tk d a b v => execVxor tk d a b v s
  | .vshl tk d a b v => execVshl tk d a b v s
  | .vshr tk d a b v => execVshr tk d a b v s
  | .vcmp tk c a b v => execVcmp tk c a b v s
  | .minv tk => execMinv tk s
  | .mpop tk => execMpop tk s
  | .mget tk d => execMget tk d s
  | .mset tk a => execMset tk a s
  | .vsel tk d a b v => execVsel tk d a b v s
  | .vrsum tk d a v => execVrsum tk d a v s
  | .vrmax tk d a v => execVrmax tk d a v s
  | .vrmin tk d a v => execVrmin tk d a v s
  | .vargmax tk d a v => execVargmax tk d a v s
  | .vscan tk d a v => execVscan tk d a v s
  | .vbcst tk d a v => execVbcst tk d a v s
  | .vmov tk d a v => execVmov tk d a v s
  | .vxtr tk d a b v => execVxtr tk d a b v s
  | .vins tk d a b v => execVins tk d a b v s
  | .vperm tk d a b v => execVperm tk d a b v s
  | .vslide tk d a b v => execVslide tk d a b v s
  | .vcvt tk d a t v => execVcvt tk d a t v s
  | .vqmx tk d a v => execVqmx tk d a v s
  | .vdqmx tk d a v => execVdqmx tk d a v s
  | .vpack tk d a b v => execVpack tk d a b v s
  | .vunpk tk d a h v => execVunpk tk d a h v s
  | .vqpop tk d q => execVqpop tk d q s
  | .vqpush tk q a => execVqpush tk q a s
  | .vaccr tk d c => execVaccr tk d c s
  | .vaccw tk a c => execVaccw tk a c s
  | .viota tk d a v => execViota tk d a v s
  | .mlease tk m => execMlease tk m s
  | .mfree tk m => execMfree tk m s
  | .mplane tk ss a => execMplane tk ss a s
  | .mswap tk f c a => execMswap tk f c a s
  | .mstep tk ss a c => execMstep tk ss a c s
  | .mcommit tk ss o => execMcommit tk ss o s
  | .mdrain tk ss a c => execMdrain tk ss a c s
  | .mzero tk n c => execMzero tk n c s
  | .copy tk ss a d g t c => execCopy tk ss a d g t c s
  | .gath tk ss m a t c => execGath tk ss m a t c s
  | .scat tk ss m a t c => execScat tk ss m a t c s
  | .halo tk ss a ii c => execHalo tk ss a ii c s
  | .glkick tk a b t c => execGlkick tk a b t c s
  | .gllink tk b l c => execGllink tk b l c s
  | .attn tk a t c => execAttn tk a t c s
  | .pimld tk a t c => execPimld tk a t c s
  | .pimrun tk a t c => execPimrun tk a t c s
  | .reduce tk a t c => execReduce tk a t c s
  | .sample tk a t c => execSample tk a t c s
  | .wnstep tk a t c => execWnstep tk a t c s
  | .hspawn tk a b d => execHspawn tk a b d s
  | _ => ok s

/-- The slot with the head of queue q taken out, in the step in which the word takes effect. -/
def State.withIssue (s : State) (k q : Nat) (e : QEnt) : State :=
  { s.modSlot k fun sl => { sl with queues := mset [] sl.queues q (mget [] sl.queues q).tail, issuing := some (e, q) } with
    sel := { slot := k, party := queueParty q, issue := true, word := e.word } }

/-- The head word of a queue is ready to issue (R53, R209): it would take effect, or meet its cause, rather than go back
to the head of its queue. -/
def State.headCan (s : State) (k q : Nat) : Bool :=
  s.headReady k q && match mget [] (s.slot k).queues q with
    | [] => false
    | e :: es => match decodeCore e.word with
      | .bad _ => false
      | .ok i => match engineWord i (s.withIssue k q e) with
        | .next t => decide ((mget [] (t.slot k).queues q).length ≤ es.length) || (t.slot k).st == 5
        | _ => false

/-- The slot's ESQ stands in exposed mode at a V word that is ready to issue (R58, R59). -/
def State.pipeCan (s : State) (k : Nat) : Bool :=
  let sl := s.slot k
  sl.exposed && s.coreRuns (coreOf k) && sl.canFetch .esq && match s.wordAt k .esq with
    | none => false
    | some w => wordTag w == 3 && (spanBroken sl.esq sl.asq w true).isNone && match decodeCore w with
      | .bad _ => false
      | .ok i => match engineWord i { s with sel := { slot := k, party := .esq, word := w } } with
        | .next t => (t.slot k).esq != sl.esq
        | _ => false

/-- The engine of a queue: 0 vector engine, 1 matrix command port, 2 transfer engine (R53). -/
def engineOf (q : Nat) : Nat := if q = 3 then 2 else q
/-- The slot has a word ready for engine e: the vector engine serves V queues and exposed pipes, the transfer engine TA
and TH. -/
def State.wantsEngine (s : State) (k e : Nat) : Bool :=
  if e = 0 then s.headCan k 0 || s.pipeCan k
  else if e = 2 then s.headCan k 2 || s.headCan k 3
  else s.headCan k e

/-- The engine may take a word of slot k from queue q (R53): no slot with a ready word comes first, and TA and TH
alternate. -/
def State.engineTakes (s : State) (k q : Nat) : Bool :=
  let e := engineOf q
  ((List.range 4).map (4 * coreOf k + ·)).all (fun j => j == k || !s.wantsEngine j e || s.chosenBefore e k j)
  && (e != 2 || !s.headCan k (5 - q) || mget 0 (s.core (coreOf k)).alt k != q)

/-- The engine has taken a word: the choice and the alternation move on (R53). -/
def engineTook (k q : Nat) (s : State) : State :=
  let s := tookSlot k (engineOf q) s
  s.modCore (coreOf k) fun c => { c with alt := if engineOf q = 2 then mset 0 c.alt k q else c.alt }

/-- The turn of an exposed ESQ that stands at a V word: the pipe freezes while the vector engine chooses another slot
(R59). -/
def chooseExposed (k : Nat) (f : Fetched) (s0 : State) : Fetched :=
  match f with
  | .run s i =>
    if wordTag s.sel.word == 3 && (s0.slot k).exposed && s0.pipeCan k then
      if s0.engineTakes k 0 then .run (engineTook k 0 s) i else hold s0
    else f
  | f => f

/-- ENGINE_QUEUE_ISSUE (R42): the head of queue q of the slot leaves, and takes effect in the next turn. A word that is not
ready looks at what it waits for and goes back; the engine has not chosen its slot. -/
def execEngineQueueIssue (k q : Nat) (s : State) : Host.Outcome State Fault Refusal :=
  let sl := s.slot k
  match mget [] sl.queues q with
  | [] => ok s
  | e :: es =>
    if 64 ≤ k || 4 ≤ q || !s.coreRuns (coreOf k) || !s.headReady k q then ok s
    else if s.headCan k q && !s.engineTakes k q then ok s
    else
      let s := if s.headCan k q then engineTook k q s else s
      ok { s.modSlot k fun sl => { sl with queues := mset [] sl.queues q es, issuing := some (e, q) } with
           sched := .issue k :: s.sched }

end Sys2Proof.Machine
end

