-- ==== Sys2Proof/Machine/Tgu.lean ====
section
/-! DEFINITION. Events of the task graph unit: launches and replays (R319 to R321, R335), dispatch with placement and
pre-emption (R323 to R328, R409, R472, R480), retirement (R32), counters (R315), waking (R24) and the watchdog (R416).
Readings and choices of the model: DESIGN CHOICE log entries 11, 44; DEDUCED log entries 41, 42, 65. -/

namespace Sys2Proof.Machine

/-! ### Words that the TGU reads and writes for a launch (R320) -/

/-- A record of the TGU that names no task (R320, R414). -/
def tguRecord (cause va info : Nat) (s : State) : State :=
  report { cause := cause, kind := 1, src := 12, val := BitVec.ofNat 64 va, info := BitVec.ofNat 64 info } .none s

/-- An aligned 8-byte word of the graph's space: physical address and leaf, or cause and reason (R438). -/
def tguWord (gr : Graph) (va : Nat) (w : Want) (s : State) : Sum (Nat × Nat) (Nat × Nat) × State :=
  if va < 2 ^ 57 ∧ va % 8 ≠ 0 then (.inl (0x23, 0x61), s) else xlEngine (tierEngine 12) gr.space va 8 w s

/-- The stop word: it waits for the host, is zero or counts as non-zero (R320). -/
inductive StopRead where
  | wait (s : State)
  | val (stop : Bool) (s : State)

def readStop (gr : Graph) (va : Nat) (s : State) : StopRead :=
  if va = 0 then .val false s
  else match tguWord gr va .read s with
    | (.inl (c, r), s) => .val true (tguRecord c va r s)
    | (.inr (pa, _), s) =>
      if s.owes 16 then .wait s
      else if !s.canAccess 16 [lineOf pa] then .wait (sendData [lineOf pa] s)
      else match s.hostErr pa 8 with
        | some r => .val true (tguRecord 0x50 va r (forgetErr pa 8 s))
        | none => match touchRead pa 8 s with
          | (some col, s) => .val true (tguRecord 0x38 va (uncInfo s col 3) s)
          | (none, s) => .val (s.physLe pa 8 != 0) s

/-- The completion word counts one more settlement (R320), which waits, on the left, while its line is not free for a write. -/
def addDone (gr : Graph) (va : Nat) (s : State) : Sum State State :=
  if va = 0 then .inr s
  else match tguWord gr va .write s with
    | (.inl (c, r), s) => .inr (tguRecord c va r s)
    | (.inr (pa, e), s) =>
      if pteStr e then .inr (tguRecord 0x30 va 1 s)
      else match atomBad pa 8 false s with
        | (some r, s) => .inr (tguRecord 0x30 va r s)
        | (none, s) =>
          if s.hostHolds [lineOf pa] then .inl (sendBisnp [lineOf pa] s)
          else .inr (homeWrite pa (leBytes ((s.physLe pa 8 + 1) % 2 ^ 64) 8) s)

/-! ### Launches and replays -/

/-- The active launch of a graph. -/
def State.activeLaunch (s : State) (g : Nat) : Option Launch := s.tgu.launches.find? fun l => l.graph == g && l.active
def setLaunch (g : Nat) (v : Launch) (s : State) : State :=
  { s with tgu := { s.tgu with launches := s.tgu.launches.map fun l => if l.graph = g ∧ l.active then v else l } }

/-- The launch starts no more replays: STOP was set or NREP have started (R320). -/
def Launch.full (l : Launch) : Bool := l.closed || (l.nrep != 0 && decide (l.nrep ≤ l.started))

/-- An active launch that starts nothing more and whose replays have settled ends, and its entry frees (R320). -/
def endLaunch (g : Nat) (s : State) : State :=
  match s.activeLaunch g with
  | none => s
  | some l =>
    if l.full && l.settled == l.started then
      let s := { s with tgu := { s.tgu with launches := s.tgu.launches.filter fun l => !(l.graph == g && l.active) } }
      drainPort (s.tgu.port.length + 1) s
    else s

/-- Replay starts (R320, R321, R327): a publish request flips the bank, the token pool is filled, the launch counts it,
and instances that are ready enter the pool. -/
def startReplay (g : Nat) (s : State) : State :=
  match s.graph? g, s.activeLaunch g with
  | some gr, some l =>
    let cur := if gr.pubreq then !gr.cur else gr.cur
    let s := leaveS1 (tguDid 4 s)
    let s := setGraph g { gr with cur := cur, pubreq := false, count := gr.count + 1, pool := gr.poolInit } s
    let s := setLaunch g { l with started := l.started + 1 } s
    readyScan { s with tgu := { s.tgu with replays := s.tgu.replays ++ [{ graph := g, num := gr.count, bank := cur }] } }
  | _, _ => s

/-- LAUNCH_ACTIVATE (R320): the oldest queued launch of a graph without an active one becomes active, and its replay 0
starts. -/
def execLaunchActivate (g : Nat) (s : State) : Host.Outcome State Fault Refusal :=
  match s.graph? g, s.activeLaunch g with
  | some gr, none =>
    if gr.aborted || !s.tgu.launches.any (·.graph == g) || s.pkg.stopped || !s.tguMay 4 then ok s
    else
      let s := { s with tgu := { s.tgu with launches := s.tgu.launches.takeWhile (·.graph ≠ g) ++
        (match s.tgu.launches.dropWhile (·.graph ≠ g) with
          | l :: ls => { l with active := true } :: ls
          | [] => []) } }
      ok (startReplay g s)
  | _, _ => ok s

/-- Every instance of every node of the graph's lowest stage has been started in replay n (R320). -/
def State.lowestStarted (s : State) (gr : Graph) (g n : Nat) : Bool :=
  let es := (List.range gr.nnode).map fun i => (i, s.node gr i)
  let low := es.foldl (fun m e => min m (nStage e.2)) 15
  (s.replay? g n).isNone ||
  es.all fun e => nStage e.2 != low || (List.range (nCount e.2)).all fun i =>
    s.tgu.insts.any fun p => p.2.graph == g && p.2.replay == n && p.2.node == some e.1
      && nIdx e.2 p.2.x p.2.y p.2.z == i && p.2.begun

/-- REPLAY_START (R320): the next replay of the active launch, unless STOP is set. -/
def execReplayStart (g : Nat) (s : State) : Host.Outcome State Fault Refusal := putOff s <|
  match s.graph? g, s.activeLaunch g with
  | some gr, some l =>
    if l.full || gr.aborted || !s.lowestStarted gr g (gr.count - 1) || s.pkg.stopped || !s.tguMay 4 then ok s
    else match readStop gr l.stop s with
      | .wait s => ok s
      | .val true s => ok (endLaunch g (setLaunch g { l with closed := true } s))
      | .val false s => ok (startReplay g s)
  | _, _ => ok s

/-- Every instance and every spawned task of replay n has retired, and nothing is left of it (R335). -/
def State.replayDone (s : State) (gr : Graph) (g n : Nat) : Bool :=
  (List.range gr.nnode).all (s.nodeRetired gr g n)
  && s.tgu.insts.all fun p => p.2.graph != g || p.2.replay != n || p.2.st == .retired || p.2.st == .gone

/-- Work outside the cores still names the instance: it is kept until that ends. -/
def State.instNamed (s : State) (t : Nat) : Bool :=
  s.eops.any (fun e => e.2.org.task == t) || s.gctx.any (fun c => c.2.run && c.2.org.task == t)
  || s.tgu.sigs.any (fun x => x.1.task == t)

/-- A settled replay is forgotten with its instances. -/
def forgetReplay (g n : Nat) (s : State) : State :=
  { s with tgu := { s.tgu with
      replays := s.tgu.replays.filter fun r => !(r.graph == g && r.num == n)
      insts := s.tgu.insts.filter fun p => p.2.graph != g || p.2.replay != n || s.instNamed p.1 } }

/-- REPLAY_SETTLE (R335, R320): DONE counts one more, the host is signalled with IRQ, and the launch may end. -/
def execReplaySettle (g n : Nat) (s : State) : Host.Outcome State Fault Refusal := putOff s <|
  match s.graph? g, s.activeLaunch g, s.replay? g n with
  | some gr, some l, some _ =>
    if gr.aborted || !s.replayDone gr g n || s.pkg.stopped then ok s
    else match addDone gr l.done s with
      | .inl s => ok s
      | .inr s =>
        let s := if l.irq then { s with pkg := { s.pkg with msix := 0 :: s.pkg.msix } } else s
        ok (endLaunch g (readyScan (forgetReplay g n (setLaunch g { l with settled := l.settled + 1 } s))))
  | _, _, _ => ok s

/-! ### Dispatch (R324 to R326) -/

/-- A producer's first dispatch in a replay takes one item of every output edge (R323). -/
def takeItems (i : Inst) (s : State) : State :=
  match s.graph? i.graph, i.node, s.replay? i.graph i.replay with
  | some gr, some node, some r =>
    (s.edgesOf gr).foldl (fun s p =>
      if eSrc p.2 = node ∧ ¬ r.items.contains p.1 then
        let k := gr.edge0 + p.1
        let s := { s with tgu := { s.tgu with edgeFree := mset 0 s.tgu.edgeFree k (mget 0 s.tgu.edgeFree k - 1) } }
        match s.replay? i.graph i.replay with
        | some r => setReplay { r with items := p.1 :: r.items } s
        | none => s
      else s) s
  | _, _, _ => s

/-- A core task is started on its spots (R324). -/
def dispatchCore (t : Nat) (ps : List Spot) (s : State) : State :=
  startTask t ps ((takeItems (s.inst t) s).setInst t { (takeItems (s.inst t) s).inst t with begun := true })

/-- The engine kind of an executor class (R316). -/
def classKind (c : Nat) : EKind :=
  if c = 1 then .attn else if c = 2 then .pimrun else if c = 3 then .reduce else if c = 4 then .sample else .wnstep

/-- The engine's request queue has room (R326; log entry 11). -/
def State.engineAccepts (s : State) (c : Nat) : Bool :=
  decide ((s.eops.filter fun e => e.2.kind == classKind c).length ≤ Config.engineDepth c)

/-- The task's linear index: that of its node, or for a spawned task of the first node of its type (R326). -/
def State.linearIdx (s : State) (gr : Graph) (i : Inst) : Nat :=
  let node := i.node.getD (((List.range gr.nnode).find? fun n => nType (s.node gr n) == i.type).getD 0)
  nIdx (s.node gr node) i.x i.y i.z

/-- ISSUE_OP: an engine-class task runs as one operation (R326). -/
def issueOp (t c : Nat) (s : State) : State :=
  let i := s.inst t
  let gr := (s.graph? i.graph).getD {}
  let ty := s.typeEnt i.type
  let n := s.linearIdx gr i
  let s := leaveS1 (takeItems i s)
  let s := s.setInst t { s.inst t with st := .engine, op := some s.nextEop, begun := true }
  addEop { kind := classKind c, space := gr.space, engine := n % 4,
           org := { task := t, bySlot := false,
                    block := BitVec.ofNat 64 (gr.bankOf i.bank + tPboff ty + n * tPbstr ty) } } s

/-! ### Pre-emption (R327, R328, R480) -/

/-- A killed or requeued instance leaves everything it ran on, and its record enters the pool unchanged, with its
original place in pool order. What still names the old instance works for nobody (R480). -/
def requeue (t : Nat) (s : State) : State :=
  let i := s.inst t
  let s := takeOff t s
  let s := s.setInst t { s.inst t with st := .gone }
  let s := addInst { i with st := .pooled, slots := [], images := [], ents := [], shadow := [], savedOps := [], savedBars := [],
                            lateTok := [], lateUp := [], op := none, faulted := false } s
  let n := s.tgu.nextInst - 1
  s.setInst n { s.inst n with entry := i.entry }

/-- Effective class of a running task, its dispatch, and its lowest core. -/
def State.taskClass (s : State) (i : Inst) : Nat := i.slots.foldl (fun m k => max m (s.slot k).eclass) 0
def State.taskStart (s : State) (i : Inst) : Nat := (s.slot (i.slots.headD 0)).started
def lowCore (i : Inst) : Nat := i.slots.foldl (fun m k => min m (coreOf k)) 16

/-- Stopped by a fault in this very clk (R409). -/
def State.justStopped (s : State) (i : Inst) : Bool :=
  i.faulted && i.slots.all fun k => (s.slot k).lastAct == s.clk

/-- The tasks of the graph's pre-emption tokens pay for the victim (R327). -/
def charge (g cost : Nat) (s : State) : State :=
  match s.graph? g with
  | some gr => setGraph g { gr with pool := gr.pool - cost } s
  | none => s

/-- Records that name the task as one that waits name nothing any more (R409, R411). -/
def dropTarget (t : Nat) (s : State) : State :=
  let f := fun (x : FRec × FTarget) => if x.2 = .task t then (x.1, .none) else x
  { s with fq := { s.fq with recs := s.fq.recs.map fun p => (p.1, f p.2), waiting := s.fq.waiting.map f } }

/-- v comes before w in the choice of a victim (R328). -/
def State.victimBefore (s : State) (v w : Inst) : Bool :=
  let key := fun (i : Inst) => (s.taskClass i, tCost (s.typeEnt i.type), lowCore i)
  let a := key v
  let b := key w
  decide (a.1 < b.1) || (a.1 == b.1 && (decide (a.2.1 < b.2.1) || (a.2.1 == b.2.1 && decide (a.2.2 < b.2.2))))

/-- A drain: the victim's places go to newcomer r when it retires (R472). -/
def drain (v r : Nat) (s : State) : State :=
  (s.inst v).slots.foldl (fun s k => s.modSlot k fun sl => { sl with drainFor := some r }) s

/-- Every member has passed its END, the last sequencer of them in this very clk (R409). -/
def State.justEnded (s : State) (i : Inst) : Bool :=
  i.slots.all (fun k => (s.slot k).st == 4) && i.slots.any fun k => (s.slot k).endAt == s.clk

/-- PREEMPT for newcomer r (R328), with the coincidences of R409 and R481: a victim that has ended in this clk is nothing to
pre-empt, and PREEMPT runs without it in the next. -/
def preempt (r : Nat) (s : State) : State :=
  let i := s.inst r
  let ty := s.typeEnt i.type
  let cand := s.tgu.insts.filter fun p =>
    p.2.st == .running && (!p.2.faulted || s.justStopped p.2) && decide (s.taskClass p.2 < tCls ty)
      && ((s.without p.1).place ty 0).isSome && !s.tgu.spared.any (fun x => x.1 == r && x.2.1 == p.1)
  let now := s.tgu.spared.any fun x => x.1 == r && x.2.2 == s.clk
  let draining := s.tgu.insts.any fun p => p.2.slots.any fun k => (s.slot k).drainFor == some r
  if now then s
  else
    let s : State := { s with tgu := { s.tgu with spared := s.tgu.spared.filter (·.1 ≠ r) } }
    match cand with
    | [] => s
    | c :: cs =>
      if draining then s
      else
        let v := cs.foldl (fun b p => if s.victimBefore p.2 b.2 then p else b) c
        let vt := s.typeEnt v.2.type
        let rem := tEst vt - (s.clk - s.taskStart v.2)
        let lim := if tLatn ty = 0 then (s.reg 0x020000).toNat / 2 ^ 32 else tLatn ty
        let ending := v.2.slots.all fun k => (s.slot k).st == 4
        let pool := ((s.graph? i.graph).getD {}).pool
        if s.justEnded v.2 then { s with tgu := { s.tgu with spared := (r, v.1, s.clk) :: s.tgu.spared } }
        else if ending || decide (rem ≤ lim) || decide (pool < tCost vt) then
          if v.2.faulted then s else drain v.1 r s
        else if v.2.holds then
          let s := charge i.graph (tCost vt) s
          if v.2.faulted then requeue v.1 (dropTarget v.1 (discardSet v.1 3 none s))
          else requeue v.1 (discardSet v.1 1 (some 0) s)
        else if v.2.faulted then s
        else if !s.canSave v.1 then drain v.1 r s
        else beginSave v.1 (charge i.graph (tCost vt) s)

/-- PLACE has woken the gated cores that it chose for members of a gang before it found no place for one (R325). -/
def wakeTried (ty pick : Nat) (s : State) : State :=
  (s.placed ty pick).foldl (fun s p => wakeCore (coreOf p.slot) s) s

/-- One pool entry is tried; the number dispatched goes up when it starts (R324). -/
def tryEntry (pick : Nat) (r : Nat) (a : Nat × State) : Nat × State :=
  let s := a.2
  let i := s.inst r
  let ty := s.typeEnt i.type
  if 4 ≤ a.1 ∨ i.st ≠ .pooled ∨ s.outFree i = false then a
  else if tClass ty ≠ 0 then
    if s.engineAccepts (tClass ty) then (a.1 + 1, issueOp r (tClass ty) s) else a
  else match s.place ty pick with
    | some ps => (a.1 + 1, dispatchCore r ps s)
    | none => (a.1, preempt r (wakeTried ty pick s))

/-- Puts an entry before the first that entered later. -/
def byEntry (p : Nat × Inst) : List (Nat × Inst) → List (Nat × Inst)
  | [] => [p]
  | q :: l => if p.2.entry < q.2.entry then p :: q :: l else q :: byEntry p l

/-- The pool in its order: dispatch class, highest first, then entry, oldest first (R324). Of instances that wait, more than the pool
holds only when tasks have been put back, the 2 048 oldest are in it (R311, log entry 65). -/
def State.poolOrder (s : State) : List Nat :=
  let es := (s.tgu.insts.filter fun p => p.2.st == .pooled).foldr byEntry []
  [3, 2, 1, 0].flatMap fun c => ((es.take 2048).filter fun p => tCls (s.typeEnt p.2.type) == c).map (·.1)

/-- TGU_DISPATCH (R324): the choices that R325 leaves open are read from pick. -/
def execTguDispatch (pick : Nat) (s : State) : Host.Outcome State Fault Refusal :=
  if s.pkg.stopped then ok s
  else
    let s := aftermath s
    let (n, s') := s.poolOrder.foldl (fun a r => tryEntry pick r a) (s.dispatched, s)
    if n = s.dispatched then ok s'
    else
      let s' := tguDid 5 s'
      ok { s' with tgu := { s'.tgu with evDisp := n } }

/-! ### Retirement (R32) -/

/-- The conditions of R32 and R125 for one member: its sequencers are at their end, its queues are empty, its helper
is idle, its operations have completed, and its writes are visible. -/
def State.memberDone (s : State) (t k : Nat) : Bool :=
  let sl := s.slot k
  let mine := fun (o : Origin) => o.bySlot && o.task == t && o.member == sl.member
  sl.asq.ended && sl.esq.ended && sl.st != 5 && (List.range 4).all (fun q => mget [] sl.queues q == []) && sl.issuing.isNone
  && !sl.helper.run && sl.pend == [] && sl.results == [] && sl.hold.isNone && sl.mops == [] && sl.batches == []
  && (s.core (coreOf k)).xops.all (fun x => x.org.slot != k) && s.eops.all (fun e => !mine e.2.org)
  && s.gctx.all (fun c => !(c.2.run && mine c.2.org)) && s.released k

/-- TASK_RETIRE (R32): when every member is done the task retires or parks, and a newcomer for which it drained takes
its places (R472). -/
def execTaskRetire (k : Nat) (s : State) : Host.Outcome State Fault Refusal :=
  match (s.slot k).task with
  | none => ok s
  | some t =>
    let i := s.inst t
    if i.st != .running || i.slots.any (fun j => !s.memberDone t j) || s.pkg.stopped then ok s
    else if s.endWaits t then ok (sendBisnp (heldLines i.held) s)
    else
      let r := (s.slot k).drainFor
      let s := endInst t s
      match r with
      | none => ok s
      | some r =>
        let n := s.inst r
        if n.st == .pooled && s.outFree n then
          match s.place (s.typeEnt n.type) 0 with
          | some ps => ok (dispatchCore r ps s)
          | none => ok s
        else ok s

/-! ### Counters, waking, watchdog -/

/-- TGU_COUNTER_SIGNAL (R315): the oldest signal on its way arrives. -/
def execTguCounterSignal (s : State) : Host.Outcome State Fault Refusal :=
  match s.tgu.sigs with
  | [] => ok s
  | (o, g, n, i) :: l => ok (signalCtr o g n i { s with tgu := { s.tgu with sigs := l } })

/-- CORE_WAKE_COMPLETE (R24): the core is awake. -/
def execCoreWakeComplete (c : Nat) (s : State) : Host.Outcome State Fault Refusal :=
  if (s.core c).waking && !s.pkg.stopped && decide (c < 16) then
    let s := s.modCore c fun v => { v with waking := false, idleSince := s.clk }
    ok { s with pkg := { s.pkg with gated := s.pkg.gated &&& ~~~BitVec.twoPow 16 c } }
  else ok s

/-- WATCHDOG_EXPIRE (R416): a slot that has made no progress for one period is reported once, and not stopped. The spec
gives its record no PC, VAL or INFO: they are open values. -/
def execWatchdogExpire (k : Nat) (s : State) : Host.Outcome State Fault Refusal :=
  let sl := s.slot k
  let w := bits (s.reg 0x130000).toNat 23 20
  if w = 0 ∨ sl.task.isNone ∨ sl.reported ∨ s.pkg.stopped ∨ s.clk < sl.lastAct + 2 ^ (w + 12) then ok s
  else
    let (pc, s) := s.takeFree
    let (val, s) := s.takeFree
    let (info, s) := s.takeFree
    ok (report { cause := 0x48, kind := 1, src := 12, gstat := gstatOf (s.inst (sl.task.getD 0)) false, place := whereOf k,
                 pc := pc, val := val, info := info, task := sl.trec } .none
      (s.modSlot k fun sl => { sl with reported := true }))

end Sys2Proof.Machine
end

