-- ==== Sys2Proof/Machine/Save.lean ====
section
/-! DEFINITION. The saved image (R482 to R486), its writing (R473 to R479) and restore (R475, R487, R488). The
sections of R483 hold their items in the order given there, one dword each where no size is stated.
Readings and choices of the model: DEDUCED log entries 22, 46; DESIGN CHOICE log entry 45. -/

namespace Sys2Proof.Machine

/-! ### Coding (R486) -/

/-- Runs of equal granules: value and length. -/
def eqRuns : List Nat → List (Nat × Nat)
  | [] => []
  | g :: gs => match eqRuns gs with
    | (h, n) :: rs => if h = g then (h, n + 1) :: rs else (g, 1) :: (h, n) :: rs
    | [] => [(g, 1)]

/-- A literal run, if there is one. -/
def litRun (l : List Nat) : List Nat := if l = [] then [] else l.length :: l

/-- The coder, over runs; lit is the literal run that is open. -/
def codeRuns : List (Nat × Nat) → List Nat → List Nat
  | [], lit => litRun lit ++ [3 * 2 ^ 62]
  | (g, n) :: rs, lit =>
    if g = 0 then litRun lit ++ (2 ^ 62 + n) :: codeRuns rs []
    else if 3 ≤ n then litRun lit ++ (2 * 2 ^ 62 + n) :: g :: codeRuns rs []
    else codeRuns rs (lit ++ List.replicate n g)

/-- The coded stream of a body. -/
def codeBody (l : List Nat) : List Nat := codeRuns (eqRuns l) []

/-- The body of a coded stream, none where it is malformed (R488). -/
def decodeBody : Nat → List Nat → Option (List Nat)
  | 0, _ => none
  | _, [] => none
  | f + 1, c :: cs =>
    let n := c % 2 ^ 40
    if c / 2 ^ 40 % 2 ^ 22 ≠ 0 then none
    else match c / 2 ^ 62 with
      | 0 => if n = 0 ∨ cs.length < n then none else (decodeBody f (cs.drop n)).map (cs.take n ++ ·)
      | 1 => if n = 0 then none else (decodeBody f cs).map (List.replicate n 0 ++ ·)
      | 2 => match cs with
        | g :: ds => if n < 3 then none else (decodeBody f ds).map (List.replicate n g ++ ·)
        | [] => none
      | _ => if n = 0 ∧ cs = [] then some [] else none

/-- Granules of bytes, and bytes of granules (R5). -/
def granules : List Byte → List Nat
  | a :: b :: c :: d :: e :: f :: g :: h :: l => leNat [a, b, c, d, e, f, g, h] :: granules l
  | _ => []
def granBytes (l : List Nat) : List Byte := l.flatMap fun g => leBytes g 8

/-! ### Sections (R483) -/

/-- A section padded with zeros to n granules. -/
def padTo (n : Nat) (l : List Nat) : List Nat := (l ++ List.replicate n 0).take n
/-- A list of words in n granules, a flag as a number, and the value of a map's first n keys. -/
def wordsN (n : Nat) (l : List Word) : List Nat := padTo n (l.map (·.toNat))
def flag (b : Bool) : Nat := if b then 1 else 0
def mapN (m : Map Word) (n : Nat) : List Nat := (List.range n).map fun i => (mget 0 m i).toNat
def walkN (i : Int) : Nat := (wordOf i).toNat
/-- Words of a wide value, lowest first. -/
def wide (v n : Nat) : List Nat := (List.range n).map fun i => v / 2 ^ (64 * i) % 2 ^ 64
def unwide (l : List Nat) : Nat := l.foldr (fun g v => g % 2 ^ 64 + 2 ^ 64 * v) 0

def loopsN (n : Nat) (l : List LoopLv) : List Nat :=
  padTo (3 * n) (l.flatMap fun v => [v.start.toNat, v.stop.toNat, v.left]) ++ [l.length]

def secScalar (sl : Slot) : List Nat :=
  padTo 256 ([sl.asq.pc.toNat, walkN sl.asq.walk] ++ mapN sl.a 32 ++ [sl.esq.pc.toNat, walkN sl.esq.walk] ++ mapN sl.x 32
    ++ [sl.helper.pc.toNat, flag sl.helper.run + 2 * flag sl.helper.ending] ++ mapN sl.helper.h 8
    ++ wordsN 16 sl.asq.ret ++ [sl.asq.ret.length] ++ wordsN 16 sl.esq.ret ++ [sl.esq.ret.length]
    ++ loopsN 8 sl.asq.loops ++ loopsN 8 sl.esq.loops ++ loopsN 4 sl.helper.loops)

/-- What a held wait word waits for: kind and awaited value or generation. -/
def WaitFor.code : WaitFor → Nat × Nat
  | .none => (0, 0)
  | .bar _ p => (1, p)
  | .arrive => (2, 0)
  | .barg _ _ g _ => (3, g.toNat)
  | .wordv _ _ v _ => (4, v.toNat)
  | .count _ n => (5, n)
  | .ring _ n => (6, n)

/-- Keys of the token FIFOs, in order. -/
def tokKeys : List Nat := [1, 2, 3, 4, 6, 7, 8, 9, 11, 12, 13, 14]

/-- CONTROL: m is the mask of sections held, bars the phase and arrival of each barrier id, by scope (R477). -/
def secControl (sl : Slot) (m : Nat) (bars : List Nat) : List Nat :=
  let (w, pc) := if sl.waitE = .none then (sl.waitA, sl.asq.pc) else (sl.waitE, sl.esq.pc)
  let toks := leNat (tokKeys.flatMap fun k => [BitVec.ofNat 8 (mget 0 sl.tokens k), BitVec.ofNat 8 (mget 0 sl.tokRes k)])
  padTo 128 ([sl.slipw.toNat, sl.shape.toNat, sl.cls.toNat, sl.utvec.toNat, sl.uepc.toNat, sl.ucause.toNat, sl.utval.toNat,
      sl.uscratch.toNat, sl.mxst.toNat]
    ++ padTo 10 (sl.upend.flatMap fun u => [u.cause.toNat, u.tval.toNat]) ++ [m]
    ++ [w.code.1, pc.toNat, w.code.2] ++ padTo 32 bars ++ wide toks 3
    ++ [0, sl.boAE.length, 0, sl.boEA.length])

def secOutcomes (sl : Slot) : List Nat := padTo 32 sl.boAE ++ padTo 32 sl.boEA

def secCompletion (sl : Slot) : List Nat :=
  let cs := (List.range 64).map fun i => mget ({} : Co) sl.cos i
  cs.map (·.cfg.toNat) ++ cs.map (·.status.toNat) ++ cs.flatMap fun c => wide c.filled.toNat 4

def secMasks (sl : Slot) : List Nat :=
  let ms := sl.masks.reverse
  padTo 128 ([ms.length] ++ wide (leNat (ms.map fun m => BitVec.ofNat 8 m.2)) 2 ++ [0] ++ ms.flatMap fun m => wide m.1.toNat 4)

def secVector (sl : Slot) : List Nat := (List.range 32).flatMap fun i => wide (mget (0 : Vec) sl.v i).toNat 32
def secStreams (sl : Slot) : List Nat := (List.range 16).flatMap fun i => (sl.stream i).map (·.toNat)

def ptrs (size n : Nat) : Nat := n % size * 2 ^ 8 + n * 2 ^ 16
def secDataq (sl : Slot) : List Nat :=
  let q := fun (l : List Vec) => padTo 256 (l.flatMap fun v => wide v.toNat 32)
  let lqs := (List.range 4).map fun i => (mget [] sl.lq i).map fun e => e.2.getD 0
  let sqs := (List.range 2).map fun i => mget [] sl.sq i
  padTo 1544 ((lqs ++ sqs).flatMap q ++ (lqs ++ sqs).map fun l => ptrs 8 l.length)

/-- A queue entry (R484): res says that a P token is reserved. -/
def entryN (word : W32) (res : Bool) (walk : Option Int) (regs s1 s2 : List Word) : List Nat :=
  [word.toNat + 2 ^ 32 * flag res, walkN (walk.getD 0)] ++ wordsN 3 regs ++ [0, 0, 0] ++ wordsN 22 s1 ++ wordsN 22 s2
def queueSize (q : Nat) : Nat := if q = 1 then 16 else if q = 3 then 8 else 32
def secEngq (sl : Slot) : List Nat :=
  (List.range 4).flatMap (fun q => padTo (52 * queueSize q)
    ((mget [] sl.queues q).flatMap fun e => entryN e.word false e.walk e.regs e.s1 e.s2))
  ++ (List.range 4).map fun q => ptrs (queueSize q) (mget [] sl.queues q).length

/-- A cut record (R484): engine, kind, cursor, target and batch of an operation that the checkpoint cuts (R474). -/
structure Cut where
  org : Origin
  walk : Option Int := none
  regs : List Word := []
  s1 : List Word := []
  s2 : List Word := []
  kind : Nat := 0
  cursor : Nat := 0
  target : Nat := 0
  batch : Nat := 0
  parked : Bool := false

def Cut.record (c : Cut) : List Nat :=
  entryN c.org.word (tkPost c.org.tok) c.walk c.regs c.s1 c.s2
  ++ [c.cursor, c.target, c.org.queue + 2 ^ 8 * c.kind + 2 ^ 16 * (c.batch % 2 ^ 16) + 2 ^ 32 * flag c.parked, 0]

/-- The first element not written (R474). -/
def XOp.firstOpen (o : XOp) : Nat := (o.chunks.map (·.start)).headD o.cursor

/-- The operations that a checkpoint of the slot cuts, in issue order (R474). -/
def State.cuts (s : State) (k : Nat) : List Cut :=
  let sl := s.slot k
  let xs := ((s.core (coreOf k)).xops.filter fun x => x.org.slot == k).map fun x =>
    ({ org := x.org, walk := x.walk, regs := [x.base], s1 := x.s1, s2 := x.s2, cursor := x.firstOpen, parked := x.parked,
       target := if x.kind = .ring then x.ringSlot else x.base.toNat } : Cut)
  let ms := sl.mops.map fun o =>
    let kind := match decodeCore o.org.word with
      | .ok (.mdrain _ _ _ _) => 2
      | _ => 1
    ({ org := o.org, walk := o.walk, regs := [o.desc], s1 := o.s1, kind := kind, cursor := o.cursor, batch := o.batch,
       parked := o.parked } : Cut)
  let bs := sl.batches.map fun b => ({ org := b.org, kind := 3, batch := b.num } : Cut)
  let put := fun (c : Cut) (l : List Cut) => l.takeWhile (fun d => decide (d.org.id ≤ c.org.id)) ++ c
    :: l.dropWhile (fun d => decide (d.org.id ≤ c.org.id))
  (xs ++ ms ++ bs).foldl (fun l c => put c l) []

/-- A bitmap of n bits in granules. -/
def bitmap (m : Map Bool) (n : Nat) : List Nat :=
  (List.range (n / 64)).map fun i => (List.range 64).foldl (fun v b => v + (if mget false m (64 * i + b) then 2 ^ b else 0)) 0

def secSpmap (s : State) (k : Nat) : List Nat :=
  let sl := s.slot k
  bitmap sl.dirtySp 3072 ++ sl.dirtySp.flatMap fun p => granules (s.slotSpRead k (4096 * p.1) 4096)
def secAccmap (s : State) (k : Nat) : List Nat :=
  let sl := s.slot k
  bitmap sl.dirtyAcc 2048 ++ sl.dirtyAcc.flatMap fun p => wide (s.accRow k p.1).toNat 32

/-- Scopes, ids and units of the barriers that the slot's type claims. -/
def State.claimed (s : State) (k : Nat) : List (Nat × Nat) :=
  let ids := tBarids (s.typeEnt (s.inst ((s.slot k).task.getD 0)).type)
  ((List.range 32).filter (bit ids)).flatMap fun i => (List.range 3).map fun z => (z, i)

/-- Phase bit and arrival of each barrier id, two bits for each scope. -/
def State.barBits (s : State) (k : Nat) : List Nat :=
  (List.range 32).map fun i => (List.range 3).foldl (fun v z =>
    if (s.claimed k).contains (z, i) then
      let b := mget {} s.tgu.bars (barKey z (barUnit z k) i)
      v + 4 ^ z * (b.phase % 2 + 2 * flag (b.arrived.contains k))
    else v) 0

/-- Mask of the sections that the slot holds. -/
def State.secMask (s : State) (k : Nat) : BitVec 4 :=
  (List.range 4).foldl (fun m i => if (s.sec (clusterOf k) i).holder = some k then m ||| BitVec.twoPow 4 i else m) 0

/-- The raw body of the slot's image. -/
def State.rawBody (s : State) (k : Nat) : List Nat :=
  let sl := s.slot k
  secScalar sl ++ secControl sl (s.secMask k).toNat (s.barBits k) ++ secOutcomes sl ++ secCompletion sl ++ secMasks sl
  ++ secVector sl ++ secStreams sl ++ secDataq sl ++ secEngq sl ++ (s.cuts k).flatMap Cut.record ++ secSpmap s k ++ secAccmap s k

/-- The header (R482). -/
def State.header (s : State) (k coded : Nat) : List Byte :=
  let sl := s.slot k
  let i := s.inst (sl.task.getD 0)
  let fl := flag sl.exposed + 2 * flag sl.handler + 4 * flag sl.helper.run + 8 * flag i.faulted + 16 * flag (sl.settle.st == 2)
  leBytes (1 + 2 ^ 8 * fl) 4 ++ leBytes (s.cuts k).length 4 ++ leBytes sl.dirtySp.length 2 ++ leBytes sl.dirtyAcc.length 2
  ++ leBytes 0 4 ++ leBytes (s.rawLen k (s.cuts k).length) 8 ++ leBytes coded 8 ++ leBytes sl.trec.toNat 32
  ++ leBytes k 8 ++ leBytes 0 440

/-! ### Writing an image (R473, R478, R479) -/

/-- Physical address of chunk c of the pool. -/
def State.chunkAt (s : State) (c : Nat) : Nat := s.poolBase + 65536 * c

/-- Where a chunk at pa names the next one (R479). -/
@[irreducible] def linkAt (pa : Nat) : Nat := pa + 65528

/-- The bytes of a stream that its first chunk takes, and the others. -/
@[irreducible] def chunkBytes (bs : List Byte) : List Byte := bs.take 65528
@[irreducible] def chunkRest (bs : List Byte) : List Byte := bs.drop 65528
/-- Writes a stream into chunks, each naming the next. -/
def writeChunks (s : State) : List Nat → List Byte → State
  | [], _ => s
  | c :: cs, bs =>
    let s' := homeWrite (s.chunkAt c) (chunkBytes bs) s
    writeChunks (homeWrite (linkAt (s.chunkAt c)) (leBytes (if cs = [] then 0 else s.chunkAt (cs.headD 0)) 8) s') cs (chunkRest bs)

/-- No operation that member m of task t has outside the cores is on its way (R407), but one that is parked and a list that
waits, perhaps for a word of the stopped task itself (log entry 46). -/
def State.outsideDone (s : State) (t m : Nat) : Bool :=
  let mine := fun (o : Origin) => o.bySlot && o.task == t && o.member == m
  s.eops.all (fun e => !mine e.2.org || e.2.parked || e.2.absentAt.isSome)
  && s.gctx.all fun c => !(c.2.run && mine c.2.org) || c.2.stopped || c.2.claim.isSome || c.2.cmd.isSome
      || c.2.pushes.any (·.parked)

/-- Nothing of the slot moves any more (R405, R407, R473, R474): the words issued are complete, but for accesses and
operations that wait for a word the halted sequencers have not passed. -/
def State.saveReady (s : State) (k : Nat) : Bool :=
  let sl := s.slot k
  let i := s.inst (sl.task.getD 0)
  let free := fun (p : Party) (id : Nat) (w : Option Int) => (w.map (sl.bothPassed p)).getD true && sl.checked id
  sl.issuing.isNone && sl.results == [] && sl.pend.all (fun p => !s.accReady k p)
  && !s.unreleased k true && s.offers.all (·.slot != k)
  && s.gctx.all (fun c => c.2.pushes.all fun x => x.peer != k || x.chunks == [])
  && (s.core (coreOf k)).xops.all (fun x => x.org.slot != k || x.chunks.all fun c => c.put == [])
  && sl.mops.all (fun o => o.parked || match decodeCore o.org.word with
      | .ok (.mstep _ _ _ _) | .ok (.mdrain _ _ _ _) => !i.faulted || !free .esq o.id o.walk
      | _ => false)
  && (!i.faulted || s.outsideDone (sl.task.getD 0) sl.member)
  && (!i.faulted || (s.core (coreOf k)).xops.all fun x => x.org.slot != k || x.parked || x.wait.isSome || !free (queueParty x.org.queue) x.org.id x.walk)

/-- References to the slot of a member go over to its image (R476). -/
def leaveRefs (k t m : Nat) (s : State) : State :=
  let link := fun (l : Nat × Nat × Nat) => if l.1 = k ∧ l.2.2 = t then (awayKey t m, l.2) else l
  let push := fun (x : XOp) => if x.peer = k then { x with peer := awayKey t m } else x
  let ctx := fun (c : GCtx) => { c with links := c.links.map fun l => (l.1, link l.2), pushes := c.pushes.map push }
  let tgt := fun (x : FRec × FTarget) => match x.2 with
    | .mop j id => if j = k then (x.1, FTarget.mop (awayKey t m) id) else x
    | .xfer c id => if c = coreOf k ∧ (s.core c).xops.any (fun o => o.id == id && o.org.slot == k) then
        (x.1, FTarget.xfer (16 + t) (m * 2 ^ 32 + id)) else x
    | _ => x
  { s with gctx := s.gctx.map (fun p => (p.1, ctx p.2)),
           fq := { s.fq with recs := s.fq.recs.map (fun p => (p.1, tgt p.2)), waiting := s.fq.waiting.map tgt } }

/-- The slot's state outside the image goes to the instance, and its operations leave the core. -/
def leaveState (k t m : Nat) (s : State) : State :=
  let sl := s.slot k
  let i := s.inst t
  let peers := i.slots
  let xs := ((s.core (coreOf k)).xops.filter fun x => x.org.slot == k).map fun x =>
    { x with id := m * 2 ^ 32 + x.id, cursor := x.firstOpen, chunks := [], idx := none,
             peer := if x.kind = .halo then awayKey t (peers.findIdx (· == x.peer)) else x.peer }
  let bars := (s.claimed k).map fun z =>
    let b := mget {} s.tgu.bars (barKey z.1 (barUnit z.1 k) z.2)
    (m, barKey z.1 (barUnit z.1 k) z.2, b.phase, b.arrived.contains k)
  let s := s.modCore (coreOf k) fun c => { c with xops := c.xops.filter fun x => x.org.slot != k }
  s.setInst t { i with shadow := mput i.shadow m sl, savedOps := i.savedOps ++ xs, savedBars := i.savedBars ++ bars }

/-- CHECKPOINT (R473): the slot's image is written into free chunks, and the slot becomes Free. With its last member
saved the task waits in the pool, or for an action if it stopped at a fault (R407). -/
def execCheckpoint (k : Nat) (s : State) : Host.Outcome State Fault Refusal :=
  let sl := s.slot k
  match sl.task with
  | none => ok s
  | some t =>
    let i := s.inst t
    if sl.st ≠ 5 ∨ i.st = .restoring ∨ s.pkg.stopped ∨ s.saveReady k = false then ok s
    else
      let free := s.freeChunks
      if free.length < chunksFor (s.rawLen k (s.cuts k).length) then ok s
      else
        let code := granBytes (codeBody (s.rawBody k))
        let bs := s.header k code.length ++ code
        let cs := free.take ((bs.length + 65527) / 65528)
        let ls := cs.flatMap fun c => linesOf (s.chunkAt c) 65536
        if s.hostHolds ls then ok (sendBisnp ls s)
        else
          let m := sl.member
          let s := leaveState k t m (leaveRefs k t m (writeChunks s cs bs))
          let i := s.inst t
          let images := (if i.images = [] then List.replicate i.slots.length 0 else i.images).set m (s.chunkAt (cs.headD 0))
          let s := { s with tgu := { s.tgu with used := s.tgu.used ++ cs.map fun c => (t, c) } }
          let s := freeSlot k (s.setInst t { i with images := images })
          if images.contains 0 then ok s
          else ok (s.setInst t { s.inst t with st := if i.faulted then .stopped else .pooled, slots := [] })

/-! ### Restore (R475, R487, R488) -/

/-- A chunk's column words are read: the first poisoned one, if any (R459). -/
@[irreducible] def touchChunk (pa : Nat) (s : State) : Option Nat × State := touchRead pa 65536 s
/-- Reads n bytes of an image from the chunk at pa on: the bytes, or the poisoned column word met. -/
def readChunks : Nat → Nat → Nat → State → Sum Nat (List Byte) × State
  | 0, _, _, s => (.inr [], s)
  | f + 1, pa, n, s =>
    let k := min n 65528
    match touchChunk pa s with
    | (some col, s) => (.inl col, s)
    | (none, s) =>
      let bs := s.physRead pa k
      if n ≤ k then (.inr bs, s)
      else match readChunks f (s.physLe (linkAt pa) 8) (n - k) s with
        | (.inl c, s) => (.inl c, s)
        | (.inr l, s) => (.inr (bs ++ l), s)

/-- Header and body of an image; a poisoned column word, or none for a malformed image. -/
def readImage (pa : Nat) (s : State) : Sum Nat (Option (List Byte × List Nat)) × State :=
  match readChunks 1 pa 512 s with
  | (.inl c, s) => (.inl c, s)
  | (.inr h, s) =>
    let v := leNat h
    let coded := fieldOf v 24 8
    match readChunks ((512 + coded) / 65528 + 1) pa (512 + coded) s with
    | (.inl c, s) => (.inl c, s)
    | (.inr bs, s) =>
      let g := granules (bs.drop 512)
      let raw := 67680 + 448 * fieldOf v 4 4 + 384 + 4096 * fieldOf v 8 2 + 256 + 256 * fieldOf v 10 2
      match decodeBody (g.length + 1) g with
      | some body =>
        if fieldOf v 0 1 = 1 ∧ coded % 8 = 0 ∧ 8 * body.length = fieldOf v 16 8 ∧ fieldOf v 16 8 = raw then
          (.inr (some (h, body)), s)
        else (.inr none, s)
      | none => (.inr none, s)

/-- n granules of a body from granule a on, and one granule. -/
def part (b : List Nat) (a n : Nat) : List Nat := (b.drop a).take n
def gran (b : List Nat) (i : Nat) : Nat := b.getD i 0
def word (b : List Nat) (i : Nat) : Word := BitVec.ofNat 64 (gran b i)
def mapOf {α : Type} [DecidableEq α] (d : α) (l : List α) : Map α := l.zipIdx.foldl (fun m p => mset d m p.2 p.1) []
def regsOf (b : List Nat) (a n : Nat) : Map Word := mapOf 0 ((part b a n).map (BitVec.ofNat 64))
def walkOf64 (g : Nat) : Int := sext 64 g

/-- Loop levels at granule a of n levels, over what the image has no place for. -/
def loopsOf (b : List Nat) (a n : Nat) (old : List LoopLv) : List LoopLv :=
  (List.range (gran b (a + 3 * n))).map fun i =>
    { old.getD i {} with start := word b (a + 3 * i), stop := word b (a + 3 * i + 1), left := gran b (a + 3 * i + 2) }
def retOf (b : List Nat) (a : Nat) : List Word := ((part b a 16).take (gran b (a + 16))).map (BitVec.ofNat 64)

/-- An entry of an engine queue at granule a. -/
def entryOf (b : List Nat) (a : Nat) (old : QEnt) : QEnt :=
  let some3 := fun (n off : Nat) => ((part b (a + off) 22).take n).map (BitVec.ofNat 64)
  { old with word := BitVec.ofNat 32 (gran b a), walk := old.walk.map fun _ => walkOf64 (gran b (a + 1)),
             regs := ((part b (a + 2) 3).take old.regs.length).map (BitVec.ofNat 64),
             s1 := some3 old.s1.length 8, s2 := some3 old.s2.length 30 }

/-- The slot of a body: every section loaded over the slot as it was saved. -/
def loadSlot (sl : Slot) (b : List Nat) (fl : Nat) : Slot :=
  let c := 256
  let ms := (List.range (gran b 832)).map fun i =>
    (BitVec.ofNat 256 (unwide (part b (836 + 4 * i) 4)), bits (unwide (part b 833 2)) (8 * i + 7) (8 * i))
  let cos : List Co := (List.range 64).map fun i =>
    let o : Co := { cfg := word b (448 + i) }
    let st := gran b (512 + i)
    let o := { o with filled := BitVec.ofNat 256 (unwide (part b (576 + 4 * i) 4)) }
    if o.kind = 3 then { o with free := bits st 33 25, oldest := bits st 15 8, next := bits st 7 0,
                                count := (mget ({} : Co) sl.cos i).count }
    else { o with count := BitVec.ofNat 32 st, free := (mget ({} : Co) sl.cos i).free, oldest := (mget ({} : Co) sl.cos i).oldest,
                  next := (mget ({} : Co) sl.cos i).next }
  let toks := unwide (part b (c + 55) 3)
  let vq := fun (q : Nat) => (List.range (bits (gran b (3872 + q)) 19 16)).map fun i =>
    (BitVec.ofNat 2048 (unwide (part b (2336 + 256 * q + 32 * i) 32)) : Vec)
  let base := fun (q : Nat) => 3880 + 52 * (if q = 0 then 0 else if q = 1 then 32 else if q = 2 then 48 else 80)
  { sl with
    asq := { sl.asq with pc := word b 0, walk := walkOf64 (gran b 1), ret := retOf b 78, loops := loopsOf b 112 8 sl.asq.loops }
    esq := { sl.esq with pc := word b 34, walk := walkOf64 (gran b 35), ret := retOf b 95, loops := loopsOf b 137 8 sl.esq.loops }
    a := regsOf b 2 32
    x := regsOf b 36 32
    helper := { sl.helper with pc := word b 68, run := bit (gran b 69) 0, ending := bit (gran b 69) 1, h := regsOf b 70 8,
                               loops := loopsOf b 162 4 sl.helper.loops }
    slipw := word b c, shape := word b (c + 1), cls := BitVec.ofNat 2 (gran b (c + 2)), utvec := word b (c + 3)
    uepc := word b (c + 4), ucause := word b (c + 5), utval := word b (c + 6), uscratch := word b (c + 7)
    mxst := BitVec.ofNat 7 (gran b (c + 8))
    upend := ((List.range 5).map fun i =>
      { (sl.upend[i]?).getD {} with cause := word b (c + 9 + 2 * i), tval := word b (c + 10 + 2 * i) }).filter
      (·.cause ≠ 0)
    tokens := tokKeys.zipIdx.foldl (fun m p => mset 0 m p.1 (bits toks (16 * p.2 + 7) (16 * p.2))) []
    tokRes := tokKeys.zipIdx.foldl (fun m p => mset 0 m p.1 (bits toks (16 * p.2 + 15) (16 * p.2 + 8))) []
    boAE := (part b 384 32).take (gran b (c + 59)), boEA := (part b 416 32).take (gran b (c + 61))
    cos := mapOf ({} : Co) cos
    masks := ms.reverse
    v := mapOf 0 ((List.range 32).map fun i => BitVec.ofNat 2048 (unwide (part b (960 + 32 * i) 32)))
    streams := (List.range 352).foldl (fun m i => mset 0 m (32 * (i / 22) + i % 22) (word b (1984 + i))) []
    lq := mapOf [] ((List.range 4).map fun q => (vq q).zipIdx.map fun p => (((mget [] sl.lq q).map (·.1)).getD p.2 0, some p.1))
    sq := mapOf [] ((List.range 2).map fun q => vq (4 + q))
    queues := mapOf [] ((List.range 4).map fun q => (List.range (bits (gran b (8456 + q)) 21 16)).map fun i =>
      entryOf b (base q + 52 * i) ((mget [] sl.queues q).getD i {}))
    exposed := bit fl 0
    handler := bit fl 1
    st := if bit fl 4 then 2 else if bit fl 1 then 3 else 1 }

/-- Zeros the slot's windows and writes the dirty blocks and rows of the body (R485, R487). -/
def loadWindows (k ncut : Nat) (b : List Nat) (s : State) : State :=
  let sl := s.slot k
  let sp := 8460 + 56 * ncut
  let lo := sl.spBase
  let hi := sl.spBase + sl.spSize
  let s := s.modCore (coreOf k) fun c =>
    { c with sp := c.sp.filter (fun p => decide (p.1 < lo) || decide (hi ≤ p.1)),
             acc := c.acc.filter (fun p => decide (p.1 < 64 * sl.accBase) || decide (64 * (sl.accBase + sl.accRows) ≤ p.1)) }
  let s := s.modSlot k fun sl => { sl with dirtySp := [], dirtyAcc := [] }
  let blocks := (List.range 3072).filter fun i => bit (gran b (sp + i / 64)) (i % 64)
  let s := blocks.zipIdx.foldl (fun s p => slotSpWrite k (4096 * p.1) (granBytes (part b (sp + 48 + 512 * p.2) 512)) s) s
  let ac := sp + 48 + 512 * blocks.length
  let rows := (List.range 2048).filter fun i => bit (gran b (ac + i / 64)) (i % 64)
  rows.zipIdx.foldl (fun s p => landRes k { acc := some (p.1, BitVec.ofNat 2048 (unwide (part b (ac + 32 + 32 * p.2) 32))) } s) s

/-- A wait goes over to the barrier's new unit (R487), and its address is translated anew. -/
def WaitFor.moved (k : Nat) : WaitFor → WaitFor
  | .bar key p => .bar (barKey (key / 1024) (barUnit (key / 1024) k) (key % 32)) p
  | .barg va _ g _ => .barg va Option.none g false
  | w => w

/-- Signals that came while the image was stored: PEND[n] more on each local counter (R476, R487). -/
def addPend (t : Nat) (h : List Byte) (k : Nat) (s : State) : State :=
  (List.range 64).foldl (fun s n =>
    let p := leNat ((h.drop (256 + 4 * n)).take 4)
    let o := mget {} (s.slot k).cos n
    if p = 0 ∨ o.kind ≠ 1 then s
    else
      let c := o.count.toNat + p
      let s := s.modSlot k fun sl => { sl with cos := mset {} sl.cos n { o with count := BitVec.ofNat 32 (min c (2 ^ 32 - 1)) } }
      if 2 ^ 32 ≤ c then asyncRecord { slot := k, task := t } 0x16 12 0 0 0x22 false .none s else s) s

/-- Barriers, links, pushes and records of a member that comes back in slot k (R476, R477). -/
def comeBack (t m k : Nat) (s : State) : State :=
  let i := s.inst t
  let mine := i.savedBars.filter (·.1 == m)
  let s := mine.foldl (fun s b =>
    let key := barKey (b.2.1 / 1024) (barUnit (b.2.1 / 1024) k) (b.2.1 % 32)
    let old := (mget {} s.tgu.bars key).arrived.filter i.slots.contains
    let v : Barrier := { phase := b.2.2.1, arrived := if b.2.2.2 then k :: old else old }
    { s with tgu := { s.tgu with bars := mset {} s.tgu.bars key v } }) s
  let link := fun (l : Nat × Nat × Nat) => if l.1 = awayKey t m then (k, l.2) else l
  let push := fun (x : XOp) => if x.peer = awayKey t m then { x with peer := k } else x
  let ctx := fun (c : GCtx) => { c with links := c.links.map fun l => (l.1, link l.2), pushes := c.pushes.map push }
  let tgt := fun (x : FRec × FTarget) => match x.2 with
    | .mop j id => if j = awayKey t m then (x.1, FTarget.mop k id) else x
    | _ => x
  { s with gctx := s.gctx.map (fun p => (p.1, ctx p.2)),
           fq := { s.fq with recs := s.fq.recs.map (fun p => (p.1, tgt p.2)), waiting := s.fq.waiting.map tgt } }

/-- A saved transfer enters the transfer engine of the slot's new core, with the cursor of its cut record; its record
names it there. -/
def enterOp (t k : Nat) (x : XOp) (cursor : Nat) (s : State) : State :=
  let c := s.core (coreOf k)
  let slots := (s.inst t).slots
  let y := { x with id := c.nextOp, org := { x.org with slot := k }, cursor := cursor,
                    peer := if x.kind = .halo then slots.getD (x.peer - awayKey t 0) k else x.peer }
  let tgt := fun (r : FRec × FTarget) => if r.2 = .xfer (16 + t) x.id then (r.1, FTarget.xfer (coreOf k) c.nextOp) else r
  let s := s.setCore (coreOf k) { c with xops := c.xops ++ [y], nextOp := c.nextOp + 1 }
  { s with fq := { s.fq with recs := s.fq.recs.map (fun p => (p.1, tgt p.2)), waiting := s.fq.waiting.map tgt } }

/-- One member is loaded into its slot (R487). -/
def loadMember (t m k : Nat) (h : List Byte) (b : List Nat) (s : State) : State :=
  let i := s.inst t
  let cur := s.slot k
  let sh := (lookupN i.shadow m).getD {}
  let v := leNat h
  let ncut := fieldOf v 4 4
  let key := fun (n : Nat) => barKey (n / 1024) (barUnit (n / 1024) k) (n % 32)
  let sl := loadSlot sh b (fieldOf v 1 1)
  -- cut records by dispatch number: the cursor stands in granule 52
  let ids := (List.range ncut).map fun j => gran b (8460 + 56 * j + 52)
  let order := (((i.savedOps.filter fun x => x.org.member == m).map fun x => x.org.id) ++ sh.mops.map (·.org.id)
    ++ sh.batches.map (·.org.id)).foldl (fun (l : List Nat) c => l.takeWhile (· ≤ c) ++ c :: l.dropWhile (· ≤ c)) []
  let cursorOf := fun (id d : Nat) => ids.getD (order.findIdx (· == id)) d
  let toks := i.lateTok.filter (·.1 == m)
  let sl : Slot := { sl with
    task := some t, member := m, stage := cur.stage, level := cur.level, space := cur.space, trec := cur.trec,
    spwin := cur.spwin, accwin := cur.accwin, started := s.clk, lastAct := s.clk, reported := false, drainFor := none,
    csrWait := none, issuing := none, results := [], early := [],
    waitA := sh.waitA.moved k, waitE := sh.waitE.moved k,
    lent := sl.lent.map fun l => (key l.1, l.2), bara := sl.bara.foldl (fun n p => mset 0 n (key p.1) p.2) [],
    upend := sl.upend ++ (i.lateUp.filter (·.1 == m)).map (·.2),
    tokens := toks.foldl (fun n p => mset 0 n p.2 (mget 0 n p.2 + 1)) sl.tokens,
    tokRes := toks.foldl (fun n p => mset 0 n p.2 (mget 0 n p.2 - 1)) sl.tokRes,
    mops := sh.mops.map fun o => { o with org := { o.org with slot := k }, restored := true, cursor := cursorOf o.org.id o.cursor },
    batches := sh.batches.map fun q => { q with org := { q.org with slot := k } } }
  let sl := if sl.asq.ended && sl.esq.ended then { sl with st := 4 } else (sl.rewait .asq).rewait .esq
  let s := addPend t h k (loadWindows k ncut b (s.setSlot k sl))
  let secs := BitVec.ofNat 4 (gran b 275) ||| sl.mops.foldl (fun m o => m ||| secsOf o.macs) 0
  let s := if secs = 0 then s else askSecs k secs s
  let s := (i.savedOps.filter fun x => x.org.member == m).foldl (fun s x => enterOp t k x (cursorOf x.org.id x.cursor) s) s
  comeBack t m k s

/-- The restore places nothing: the task waits outside the pool (R488). -/
def failRestore (t cause val info : Nat) (s : State) : State :=
  let s := (s.inst t).slots.foldl (fun s k => freeSlot k s) s
  let i := { s.inst t with st := .stopped, slots := [], faulted := true }
  report { cause := cause, kind := 1, src := 12, gstat := gstatOf i true, val := BitVec.ofNat 64 val,
           info := BitVec.ofNat 64 info, task := taskRecord i } (.task t) (s.setInst t i)

/-- Reads the images of all members: their headers and bodies, or the cause met with its VAL and INFO. -/
def readAll : List Nat → State → Sum (Nat × Nat × Nat) (List (List Byte × List Nat)) × State
  | [], s => (.inr [], s)
  | pa :: l, s =>
    match readImage pa s with
    | (.inl col, s) => (.inl (0x38, pmdBase + 32 * col, uncInfo s col 3), s)
    | (.inr none, s) => (.inl (0x17, 0, 9), s)
    | (.inr (some x), s) =>
      match readAll l s with
      | (.inl e, s) => (.inl e, s)
      | (.inr xs, s) => (.inr (x :: xs), s)

/-- Lines of a task's images: those of its chunks. -/
def State.imageLines (s : State) (t : Nat) : List Nat :=
  (s.inst t).images.map lineOf ++ (s.tgu.used.filter (·.1 == t)).flatMap fun c => linesOf (s.chunkAt c.2) 65536

/-- TASK_RESTORE (R487): a task that TGU_DISPATCH has placed is loaded from its images; its place is chosen already. -/
def execTaskRestore (t _pick : Nat) (s : State) : Host.Outcome State Fault Refusal :=
  let i := s.inst t
  let ls := s.imageLines t
  if i.st ≠ .restoring ∨ s.pkg.stopped ∨ i.slots.any (fun k => !s.coreRuns (coreOf k)) then ok s
  else if !s.canAccess 16 ls then ok (sendData ls s)
  else match readAll i.images s with
    | (.inl (c, v, r), s) => ok (failRestore t c v r s)
    | (.inr xs, s) =>
      let s := (xs.zip i.slots).zipIdx.foldl (fun s p => loadMember t p.2 p.1.2 p.1.1.1 p.1.1.2 s) s
      let s := freeImages t s
      ok (s.setInst t { s.inst t with st := .running, faulted := false })

/-- A write of SAVEPOOL (R478): no effect while any image is stored. -/
def writeSavepool (v : Nat) (s : State) : State :=
  if s.tgu.used = [] then { s with tgu := { s.tgu with savepool := BitVec.ofNat 64 v &&& 0x01FFFFFFFFFFFFFF } } else s

end Sys2Proof.Machine
end

