-- ==== Sys2Proof/Machine/Xlat.lean ====
section
/-! DEFINITION. Events of translation: page walks (R104, R105, R442), evictions (R105), and invalidations started by the
management core or by the host (R352, R369).
Readings and choices of the model: DEDUCED log entries 8, 46, 50. -/

namespace Sys2Proof.Machine

/-- A walk that slot k waits for. -/
def Slot.waits (sl : Slot) (space page : Nat) : Bool := (sl.missOn space page).any (·.failed.isNone)

/-- Every slot whose miss merged into the walk meets its outcome (R442): the leaf is in its tier, or its miss has
failed. -/
def meetWalk (space va : Nat) (r : WalkRes) (s : State) : State :=
  let page := va / 4096
  let ks := (List.range 64).filter fun k => (s.slot k).waits space page
  match r with
  | .leaf t => ks.foldl (fun s k => (cacheLeaf (tierSlot k) t s).modSlot k fun sl =>
      { sl with misses := sl.misses.filter fun m => !(m.space == space && m.page == page) }) s
  | .bad c q => ks.foldl (fun s k => s.modSlot k fun sl =>
      { sl with misses := sl.misses.map fun m =>
          if m.space = space ∧ m.page = page ∧ m.failed.isNone then { m with failed := some (c, q) } else m }) s

/-- PAGE_WALK (R105): the walk for a page on which slots have a miss. It reads no entry whose line the host holds modified before
it has come back (R358). -/
def execPageWalk (space va : Nat) (s : State) : Host.Outcome State Fault Refusal :=
  if s.pkg.stopped || (List.range 64).all (fun k => !(s.slot k).waits space (va / 4096)) then ok s
  else
    let ls := s.walkLines space va
    if s.canAccess 16 ls then ok (meetWalk space va (s.walk space va) s) else ok (sendData ls s)

/-- TLB_EVICT (R105): a tier drops the translation at place i. -/
def execTlbEvict (tier i : Nat) (s : State) : Host.Outcome State Fault Refusal :=
  if s.pkg.stopped then ok s else ok { s with tlbs := mset [] s.tlbs tier ((mget [] s.tlbs tier).eraseIdx i) }

/-! ### Invalidation (R352) -/

/-- An access to a virtual address of a space may have used a translation that the invalidation removed. The size of a
removed page is not kept, so in mode 0b00 every access of the same 2 MiB counts. -/
def tinvUses (q : BitVec 2 × Nat × Nat) (space va : Nat) : Bool :=
  match q.1.toNat with
  | 0 => space == q.2.2 && va / 2 ^ 21 == q.2.1 / 2 ^ 21
  | 1 => space == q.2.2
  | _ => true

/-- Every access that used a removed translation, on its first page or on its last, has been performed; the waits on words have given
theirs up as the invalidation began. -/
def State.tinvDone (s : State) (q : BitVec 2 × Nat × Nat) : Bool :=
  let ops := fun (l : List XOp) => l.all fun x => x.chunks.all fun c => c.vas.all fun a => !tinvUses q x.space a
  let span := fun (space a n : Nat) => !tinvUses q space a && !tinvUses q space (a + n - 1)
  ((List.range 64).all fun k =>
    let sl := s.slot k
    sl.pend.all fun p => p.parts == [] || span sl.space p.va p.len)
  && s.cores.all (fun c => c.2.l1.all (fun x => span (s.slot x.slot).space x.va ((x.parts.map (·.2.1)).sum)) && ops c.2.xops)
  && s.gctx.all (fun c => ops c.2.pushes)
  && s.eops.all (fun e => e.2.dsts.all fun d => span e.2.space d.1 d.2.2.1)

/-- Attention units try their absent blocks again (R298). -/
def retryAbsent (s : State) : State := (s.eops.map (·.1)).foldl (fun s i => retryOp i s) s

/-- TINV_COMPLETE (R352): an invalidation completes once the accesses that used removed translations are performed. -/
def execTinvComplete (s : State) : Host.Outcome State Fault Refusal :=
  let fin := fun (q : Option (BitVec 2 × Nat × Nat)) => match q with
    | some v => s.tinvDone v
    | none => false
  if s.pkg.stopped || !(fin s.tinv || fin s.tinvCmd) then ok s
  else
    let s' := { s with tinv := if fin s.tinv then none else s.tinv, tinvCmd := if fin s.tinvCmd then none else s.tinvCmd }
    ok (retryAbsent s')

/-- A write of all 8 bytes of TINVCMD (R369): none while BUSY, and mode 0b11 starts nothing. -/
def writeTinvcmd (v : Nat) (s : State) : State :=
  if s.tinvCmd.isSome then s
  else
    let s := s.setReg 0x020028 (BitVec.ofNat 64 (bits v 17 16 * 2 ^ 16 + bits v 11 0))
    let m := bits v 17 16
    if m = 3 then s
    else
      let a := (s.reg 0x020020).toNat
      let sp := bits v 11 0
      { startTinv m a sp s with tinv := s.tinv, tinvCmd := some (BitVec.ofNat 2 m, a, sp) }

end Sys2Proof.Machine
end

