-- ==== Sys2Proof/Machine/Host.lean ====
section
/-! DEFINITION. The host at the link: launches (R319), CXL.mem and snoops (R355, R358 to R360, R503), back-invalidation
responses (R358), sharer hints (R361, R362, R498) and delivered-store windows (R364).
Readings and choices of the model: DEDUCED log entries 32, 47, 48; DESIGN CHOICE log entries 49, 63. -/

namespace Sys2Proof.Machine

/-! ### What lets a host request in -/

/-- A host request to a register: it waits while the link is down (R499) or the clocks are stopped (R500), reaches
nothing before the firmware is ready but the mailbox in recovery (R376, R501), and in a low-power state starts an exit and
is held (R372). -/
def busGate (mailbox : Bool) (s : State) (f : State → State) : Host.Outcome State Fault Refusal :=
  if s.pkg.stopped || !s.pkg.linkUp || !(s.pkg.boot == 3 || mailbox && s.pkg.boot == 1) then ok s
  else if s.pkg.power ≠ 0 then ok { s with pkg := { s.pkg with exiting := true } }
  else ok (f s)

/-- A CXL.mem or CXL.cache request of the host: a fenced host's is dropped (R497), and one that has trained the link to an earlier
revision has CXL.io only (R354). -/
def memGate (s : State) (f : State → State) : Host.Outcome State Fault Refusal :=
  if s.pkg.fenced || s.pkg.cxlOld then ok s else busGate false s f

/-- LAUNCH_WRITE (R319): one 64-byte write to the launch port. -/
def execLaunchWrite (r : BitVec 512) (s : State) : Host.Outcome State Fault Refusal := busGate false s (launchArrive r)

/-- TINVCMD_WRITE (R369). -/
def execTinvcmdWrite (v : Word) (s : State) : Host.Outcome State Fault Refusal := busGate false s (writeTinvcmd v.toNat)

/-! ### CXL.mem (R355, R358, R359) -/

/-- The answer to a host read; one marked poison carries no data that means anything. -/
def answer (off : Nat) (bs : List Byte) (poison : Bool) (s : State) : State :=
  { s with pkg := { s.pkg with reads := (off, bs, poison) :: s.pkg.reads } }

/-- A record of the host link that names no task (R414, R454, R459). -/
def linkRecord (cause val info : Nat) (s : State) : State :=
  report { cause := cause, kind := 1, src := 14, val := BitVec.ofNat 64 val, info := BitVec.ofNat 64 info } .none s

/-- Device physical address of an HDM offset (R355). -/
def hdmAddr (dec1 : Bool) (off : Nat) : Nat := (if dec1 then strBase else pmdBase) + off

/-- A copy of a line is granted to the host, which may modify it or not; and it is gone. -/
def grantHost (line : Nat) (mod : Bool) (s : State) : State :=
  let s := (coHome line s).setLine line { (coHome line s).lineCo line with host := true, hostMod := mod }
  { s with pkg := { s.pkg with hostFilter := s.pkg.hostFilter.filter (· ≠ line) ++ [line] } }
def dropHost (line : Nat) (s : State) : State :=
  let s := s.setLine line { s.lineCo line with host := false, hostMod := false, bisnp := false, bisnpD := false }
  { s with pkg := { s.pkg with hostFilter := s.pkg.hostFilter.filter (· ≠ line) } }

/-- A CXL.mem read of n bytes within one line. -/
def hostRead (dec1 : Bool) (off n : Nat) (cached : Option Bool) (s : State) : State :=
  let pa := hdmAddr dec1 off
  let line := lineOf pa
  let grant := cached.isSome && !dec1 && !s.lostReg.contains (regionOf line)
  if s.cap ≤ off then answer off [] true (linkRecord 0x30 pa 2 s)
  else match s.physBad pa n with
    | some r => answer off [] true (linkRecord 0x30 pa r s)
    | none =>
      -- a full filter first calls its oldest line back (R358)
      if grant && !(s.lineCo line).host && decide (131072 ≤ s.pkg.hostFilter.length) then
        sendBisnp (s.pkg.hostFilter.take 1) s
      else match touchRead pa n s with
        | (some col, s) =>
          answer off [] true (linkRecord 0x38 (pmdBase + 32 * col) (uncInfo s col 4) s)
        | (none, s) =>
          let s := answer off (s.physRead pa n) false s
          if grant then grantHost line (cached == some true) s else s

/-- HOST_MEM_READ (R358): a read of at most one line; cached says that the host asks for a copy to keep, and whether
for one that it may modify. -/
def execHostMemRead (dec1 : Bool) (off n : Nat) (cached : Option Bool) (s : State) : Host.Outcome State Fault Refusal :=
  if n = 0 ∨ 64 < off % 64 + n ∨ 2 ^ 56 ≤ off then ok s else memGate s (hostRead dec1 off n cached)

/-- A CXL.mem write within one line (R355, R359, R503, R280). -/
def hostWrite (dec1 : Bool) (off : Nat) (data : List Byte) (s : State) : State :=
  let pa := hdmAddr dec1 off
  if s.cap ≤ off then linkRecord 0x30 pa 2 s
  else match s.physBad pa data.length with
    | some r => linkRecord 0x30 pa r s
    | none => if s.runHolds (linesOf pa data.length) then s else homeWrite pa data s

/-- HOST_MEM_WRITE (R359): a write of at most one line. -/
def execHostMemWrite (dec1 : Bool) (off : Nat) (data : List Byte) (s : State) : Host.Outcome State Fault Refusal :=
  if data = [] ∨ 64 < off % 64 + data.length ∨ 2 ^ 56 ≤ off then ok s else memGate s (hostWrite dec1 off data)

/-- HOST_SNOOP (R360): a snoop of a line of host memory; the home gathers its tokens and answers with its data. -/
def execHostSnoop (line : Nat) (s : State) : Host.Outcome State Fault Refusal :=
  if s.pclass (64 * line) ≠ .host then ok s
  else memGate s fun s => answer (64 * line) (s.physRead (64 * line) 64) false (coHome line s)

/-- BISNP_RESPONSE (R358): the host gives up a line that BISnpInv asked for, or gives the data of one that BISnpData asked for and
keeps a copy that it has not modified; with data where it had modified it. -/
def execBisnpResponse (line : Nat) (data : Option (List Byte)) (s : State) : Host.Outcome State Fault Refusal :=
  let l := s.lineCo line
  if !(l.bisnp || l.bisnpD) then ok s
  else memGate s fun s =>
    let s := if l.bisnp then dropHost line s else s.setLine line { l with hostMod := false, bisnpD := false }
    match data with
    | some d => if d.length = 64 ∧ l.hostMod then homeWrite (64 * line) d s else s
    | none => s

/-! ### Sharer tracking and requests (R361, R362, R498) -/

/-- The transient request of a core for a line finds too few tokens, and its one retry by broadcast too (R361). -/
def retryLine (c line : Nat) (s : State) : State :=
  let l := s.lineCo line
  if 16 ≤ c ∨ !s.missing c line ∨ s.canShare c line && s.canOwn c line && !l.host && !s.reserved c line ∨ l.retried.contains c then s
  else s.setLine line { l with retried := c :: l.retried }
/-- A core's access on the line has been outstanding for 512 clk. -/
def State.missLong (s : State) (c line : Nat) : Bool :=
  let on := fun (p : Nat × Nat × BitVec 2 × Bool) => decide (p.1 / 64 ≤ line) && decide (line ≤ (p.1 + p.2.1 - 1) / 64)
  (List.range 4).any (fun i => (s.slot (4 * c + i)).pend.any fun a => a.parts.any on && decide (a.since + 512 ≤ s.clk))
  || (s.core c).l1.any fun x => x.parts.any on && decide (x.since + 512 ≤ s.clk)

/-- PERSISTENT_REQUEST (R361): a core that has missed on a line for 512 clk, or whose broadcast retry has failed, registers its
request behind those there. -/
def execPersistentRequest (line c : Nat) (s : State) : Host.Outcome State Fault Refusal :=
  let l := s.lineCo line
  if 16 ≤ c ∨ !s.missing c line ∨ !(s.missLong c line || l.retried.contains c) ∨ s.pkg.stopped ∨ s.pkg.deadCores.getLsbD c ∨ l.preq.any (·.1 == c) then ok s
  else ok (s.setLine line { l with preq := l.preq.filter (fun r => s.missing r.1 line) ++ [(c, s.clk)] })

/-- DIRECTORY_SILENT_DROP (R362): an entry with one bit goes, of the die directory or of a cluster's filter; not while
drops are held (R498), and not a LOST region's entry (R496). -/
def execDirectorySilentDrop (cl : Option Nat) (key : Nat) (s : State) : Host.Outcome State Fault Refusal :=
  if s.pkg.stormAt.isSome || s.pkg.stopped then ok s
  else match cl with
    | none =>
      if oneBit (mget 0 s.dir key) && !s.lostReg.contains key then ok { s with dir := mset 0 s.dir key 0 } else ok s
    | some c =>
      if oneBit (mget 0 s.filt (filtKey key c)) && decide (c < 4) then
        ok { s with filt := mset 0 s.filt (filtKey key c) 0 }
      else ok s

/-- DISCOVERY_STORM_HOLD (R498): silent drops stop on the whole device. -/
def execDiscoveryStormHold (slice : Nat) (s : State) : Host.Outcome State Fault Refusal :=
  if 32 ≤ slice ∨ s.pkg.stopped ∨ s.pkg.stormAt.isSome then ok s
  else ok { s with pkg := { s.pkg with stormAt := some s.clk } }

/-- DISCOVERY_STORM_END (R498): after 100 µs, 150 000 clk. -/
def execDiscoveryStormEnd (s : State) : Host.Outcome State Fault Refusal :=
  match s.pkg.stormAt with
  | some t => if t + 150000 ≤ s.clk ∧ ¬ s.pkg.stopped then ok { s with pkg := { s.pkg with stormAt := none } } else ok s
  | none => ok s

/-- DLVQ_WINDOW_START (R364): the window that holds the present clk has begun, with no copy accepted. -/
def execDlvqWindowStart (c : Nat) (s : State) : Host.Outcome State Fault Refusal :=
  let v := s.core c
  let win := s.clk / bits (s.reg (0x080000 + 0x1000 * c)).toNat 23 12
  if 16 ≤ c ∨ s.pkg.stopped ∨ v.dlvWin = win then ok s
  else ok (s.setCore c { v with dlvAccepted := 0, dlvWin := win })

end Sys2Proof.Machine
end

