-- ==== Sys2Proof/Machine/Faultq.lean ====
section
/-! DEFINITION. The fault queue as the host drives it (R412, R413, R415): RESUME, REQUEUE, ABORT, and the writes of
FQHEAD.
Readings and choices of the model: DEDUCED log entry 43. -/

namespace Sys2Proof.Machine

/-! ### Operations that end without a signal (R406, R415, R447, R497) -/

/-- Commands on their way to an NBU for an operation that is gone are not sent. -/
def McsCmd.names (ids : List Nat) : McsCmd → Bool
  | .pload _ _ _ op => ids.contains op
  | .pstart _ _ _ _ run => ids.contains run
  | _ => false

/-- Operations outside the cores leave their engines, sequencers and NBU threads. -/
def dropOps (ids : List Nat) (s : State) : State :=
  let s := ids.foldl (fun s i => dropEop i (leaveEngine i s)) s
  let chan := fun (m : Mcs) => { m with cmds := m.cmds.filter (fun c => !c.names ids),
                                        waiting := m.waiting.filter fun i => !ids.contains i,
                                        runs := m.runs.filter fun i => !ids.contains i }
  let thr := fun (v : NThread) => if v.run && ids.contains v.org then { v with run := false, dp := [], loops := [] } else v
  let nbu := fun (v : Nbu) => { v with threads := v.threads.map fun t => (t.1, thr t.2) }
  if ids = [] then s
  else { s with mcs := s.mcs.map (fun p => (p.1, chan p.2)), nbus := s.nbus.map (fun p => (p.1, nbu p.2)) }

/-- A gleaner list ends: its context is idle, with the links it has. -/
def GCtx.idle (c : GCtx) : GCtx := { c with run := false, stopped := false, loops := [], pushes := [], claim := none, cmd := none }

/-- The operations of task t that run outside its slots end without signalling: all of them, or those that are parked
and those of a task that is itself an operation. -/
def endOps (t : Nat) (all : Bool) (s : State) : State :=
  let mine := fun (o : Origin) => o.task == t
  let ids := (s.eops.filter fun e => mine e.2.org && (all || e.2.parked || !e.2.org.bySlot)).map (·.1)
  let s := dropOps ids s
  let ctx := fun (c : GCtx) =>
    if !mine c.org || !(c.run || c.pushes != []) then c
    else if all || c.stopped then c.idle
    else { c with pushes := c.pushes.filter (!·.parked) }
  { s with gctx := s.gctx.map fun p => (p.1, ctx p.2) }

/-! ### What a record names (R415) -/

/-- Task and member of a saved member's key (R476). -/
def keyTask (k : Nat) : Nat := (k - 64) / 16
def keyMember (k : Nat) : Nat := (k - 64) % 16

/-- M words of a slot, or of a member whose image is stored. -/
def State.mopsAt (s : State) (k : Nat) : List MOp :=
  if k < 64 then (s.slot k).mops else ((lookupN (s.inst (keyTask k)).shadow (keyMember k)).getD {}).mops
/-- Transfers of a core, or of a task whose image is stored. -/
def State.xopsAt (s : State) (c : Nat) : List XOp := if c < 16 then (s.core c).xops else (s.inst (c - 16)).savedOps

/-- The record's target still waits for an action. -/
def State.targetWaits (s : State) : FTarget → Bool
  | .none => false
  | .task t => (s.inst t).faulted && (s.inst t).st.live
  | .xfer c id => (s.xopsAt c).any fun x => x.id == id && x.parked
  | .push n id => (s.ctx n).pushes.any fun x => x.id == id && x.parked
  | .mop k id => (s.mopsAt k).any fun o => o.id == id && o.parked
  | .eop id => match s.eop? id with
    | some o => o.parked
    | none => false
  | .ctx n => (s.ctx n).stopped

/-- The task that a target is, or that issued it. -/
def State.targetTask (s : State) : FTarget → Option Nat
  | .none => none
  | .task t => some t
  | .xfer c id => ((s.xopsAt c).find? (·.id == id)).map (·.org.task)
  | .push n id => ((s.ctx n).pushes.find? (·.id == id)).map (·.org.task)
  | .mop k id => ((s.mopsAt k).find? (·.id == id)).map (·.org.task)
  | .eop id => (s.eop? id).map (·.org.task)
  | .ctx n => some (s.ctx n).org.task

/-- The target of record r, if it lies between HEAD and TAIL − 1 and waits. -/
def State.recordTarget (s : State) (r : Nat) : Option FTarget :=
  let d := fun (a : BitVec 8) => (a - s.fq.head).toNat
  let t := (mget ({}, FTarget.none) s.fq.recs r).2
  if r < 256 ∧ d (BitVec.ofNat 8 r) < d s.fq.tail ∧ s.targetWaits t then some t else none

/-- The record has been acted on and names nothing any more. -/
def useRecord (r : Nat) (s : State) : State :=
  let v := mget ({}, FTarget.none) s.fq.recs r
  { s with fq := { s.fq with recs := mset ({}, FTarget.none) s.fq.recs r (v.1, .none) } }
/-- The write has no effect (R415). -/
def badAction (s : State) : State := { s with fq := { s.fq with badact := true } }

/-! ### The actions (R415) -/

/-- RESUME of a stopped task: it is requeued with its image, or will be once its image is written. A task without an
image, as a dead core's, cannot resume (R497). -/
def resumeTask (t : Nat) (s : State) : Option State :=
  let i := s.inst t
  match i.st with
  | .stopped => if i.images = [] then none else some (s.setInst t { i with st := .pooled, faulted := false })
  | .running | .saved => some (s.setInst t { i with st := .saved, faulted := false })
  | _ => none

/-- An operation parked goes on. -/
def unpark (id : Nat) (x : XOp) : XOp := if x.id = id then { x with parked := false } else x
def unparkM (id : Nat) (o : MOp) : MOp := if o.id = id then { o with parked := false, resumed := true } else o

/-- RESUME (R415, R437, R447, R448, R451, R461, R467, R481). -/
def resumeTarget (f : FTarget) (s : State) : Option State :=
  match f with
  | .none => none
  | .task t => resumeTask t s
  | .xfer c id =>
    if c < 16 then some (s.modCore c fun v => { v with xops := v.xops.map (unpark id) })
    else
      let i := s.inst (c - 16)
      some (s.setInst (c - 16) { i with savedOps := i.savedOps.map (unpark id) })
  | .push n id => some (s.setCtx n { s.ctx n with pushes := (s.ctx n).pushes.map (unpark id) })
  | .mop k id =>
    if k < 64 then some (s.modSlot k fun sl => { sl with mops := sl.mops.map (unparkM id) })
    else
      let t := keyTask k
      let i := s.inst t
      let sh := (lookupN i.shadow (keyMember k)).getD {}
      let sh := { sh with mops := sh.mops.map (unparkM id) }
      some (s.setInst t { i with shadow := mput (merase i.shadow (keyMember k)) (keyMember k) sh })
  | .eop id => (s.eop? id).map fun o => resumeEop id o s
  | .ctx n => some (s.setCtx n { s.ctx n with stopped := false })

/-- REQUEUE (R415, R410): only of a guarded task that is not irrevocable and still runs or waits. -/
def requeueTarget (f : FTarget) (s : State) : Option State :=
  match s.targetTask f with
  | none => none
  | some t =>
    let i := s.inst t
    if i.holds && i.st.live && i.st != .retired && i.st != .parked then
      some (requeue t (endOps t false (discardSet t 4 none s)))
    else none

/-- A task of an aborted graph is stopped: its write set is discarded and its operations end (R415). -/
def abortInst (t : Nat) (s : State) : State :=
  let i := s.inst t
  if !i.st.live || i.st == .retired then s
  else
    let began := i.st != .pooled || i.images != []
    let s := if i.holds && began then discardSet t 4 none s else s
    let s := endOps t true (takeOff t s)
    s.setInst t { s.inst t with st := .gone, ents := [] }

/-- ABORT of graph g (R415): no replay or launch of it is left, and none of its tasks. -/
def abortGraph (g : Nat) (s : State) : State :=
  match s.graph? g with
  | none => s
  | some gr =>
    let s := setGraph g { gr with aborted := true } s
    let ts := (s.tgu.insts.filter fun p => p.2.graph == g).map (·.1)
    let s := ts.foldl (fun s t => abortInst t s) s
    let s := { s with tgu := { s.tgu with launches := s.tgu.launches.filter (·.graph ≠ g),
                                          replays := s.tgu.replays.filter (·.graph ≠ g),
                                          sigs := s.tgu.sigs.filter (·.2.1 ≠ g) } }
    drainPort (s.tgu.port.length + 1) s

/-- ABORT (R415). -/
def abortTarget (f : FTarget) (s : State) : Option State :=
  (s.targetTask f).map fun t => abortGraph (s.inst t).graph s

/-- A write of FQACT: action a on record r (R412, R415). -/
def act (f : FTarget → State → Option State) (r : Nat) (s : State) : State :=
  match s.recordTarget r with
  | none => badAction s
  | some t => match f t (useRecord r s) with
    | some s => s
    | none => badAction s

/-- RESUME (R415). -/
def execResumeA (r : Nat) (s : State) : Host.Outcome State Fault Refusal := busGate false s (act resumeTarget r)
/-- REQUEUE (R415). -/
def execRequeueA (r : Nat) (s : State) : Host.Outcome State Fault Refusal := busGate false s (act requeueTarget r)
/-- ABORT (R415). -/
def execAbortA (r : Nat) (s : State) : Host.Outcome State Fault Refusal := busGate false s (act abortTarget r)

/-! ### FQHEAD (R413) -/

/-- Waiting fault records are written while the queue has room. -/
def writeWaiting : Nat → State → State
  | 0, s => s
  | n + 1, s =>
    match s.fq.waiting with
    | [] => s
    | (r, t) :: l => if s.fq.full then s else writeWaiting n (pushRecord r t { s with fq := { s.fq with waiting := l } })

/-- A write of FQHEAD: the records before the new HEAD are consumed, waiting ones enter, and vector 1 is sent once where
the queue is left non-empty and IE is 1. -/
def writeFqhead (v : Nat) (s : State) : State :=
  let sent := s.pkg.msix
  let s := writeWaiting s.fq.waiting.length { s with fq := { s.fq with head := BitVec.ofNat 8 v } }
  { s with pkg := { s.pkg with msix := if s.fq.tail ≠ s.fq.head ∧ s.fqIe then 1 :: sent else sent } }

/-- FQHEAD_WRITE (R413). -/
def execFqheadWrite (v : Word) (s : State) : Host.Outcome State Fault Refusal := busGate false s (writeFqhead v.toNat)

end Sys2Proof.Machine
end

