-- ==== Sys2Proof/Machine/Dead.lean ====
section
/-! DEFINITION. Agents that stop answering (R493 to R497), and the errors of the host link (R499).
Readings and choices of the model: DEDUCED log entry 33; DESIGN CHOICE log entry 54. -/

namespace Sys2Proof.Machine

/-! ### DEADCTL (R493) -/

def State.deadctl (s : State) : Nat := (s.reg 0x130060).toNat
/-- The mode of a class has lease expiry, or heartbeat. -/
def State.coreMode (s : State) (b : Nat) : Bool := bit s.deadctl b
def State.hostMode (s : State) (b : Nat) : Bool := bit s.deadctl (2 + b)
/-- Lease in clk. -/
def State.lease (s : State) : Nat := 2 ^ (bits s.deadctl 15 12 + 10)

/-! ### Declarations (R496, R497) -/

/-- A line's bytes are again those of the home's copy, last written back: what an L1 held dirty is lost (R496, R499). -/
def revertLine (line : Nat) (l : LineCo) (s : State) : State :=
  (l.home.getD []).zipIdx.foldl (fun s b => match s.cellOf (64 * line + b.2) with
    | some a => putCell s a b.1
    | none => s) s

/-- A line gets back the tokens of a dead core: where the owner token was missing it reverts to the home's copy, its
region is LOST and the line is counted. -/
def scrubLine (c line : Nat) (s : State) : State :=
  let l := s.lineCo line
  let pr := match l.probe with
    | some (t, as) => some (t, as.filter (· ≠ c))
    | none => none
  let l' := { l with tok := merase l.tok c, preq := l.preq.filter (·.1 ≠ c), probe := pr }
  if l.owner = some c then
    let s := revertLine line l (s.setLine line { l' with owner := none, home := none })
    { s with lostReg := if s.lostReg.contains (regionOf line) then s.lostReg else regionOf line :: s.lostReg,
             pkg := { s.pkg with lostln := s.pkg.lostln + 1 } }
  else s.setLine line l'

/-- A task with a member on the dead core stops without an image, with a record of its own, and its operations end
(R497). -/
def stopDead (c t : Nat) (s : State) : State :=
  let i := s.inst t
  match i.slots.find? fun k => coreOf k == c with
  | none => s
  | some k =>
    let s := report { cause := 0x52, kind := 1, src := 12, gstat := gstatOf i true, place := whereOf k,
                      task := taskRecord i } (.task t) s
    let s := endOps t true (takeOff t s)
    s.setInst t { s.inst t with st := .stopped, faulted := true }

/-- The record of a declaration: who is 0xFFFF for the host. -/
def deadRecord (src who : Nat) (s : State) : State :=
  report { cause := 0x52, kind := 1, src := src, info := BitVec.ofNat 64 who } .none s

/-- A core is declared dead, at most once (R493, R496, R497). -/
def declareCore (c : Nat) (s : State) : State :=
  if s.pkg.deadCores.getLsbD c || decide (16 ≤ c) then s
  else
    let s := (s.lines.map (·.1)).foldl (fun s l => scrubLine c l s) s
    let mask := ~~~(BitVec.twoPow 4 (c % 4))
    let filt := (s.filt.map fun e => (e.1, if e.1 % 4 = c / 4 then e.2 &&& mask else e.2)).filter fun e => decide (e.2 ≠ 0)
    let s := { s with filt := filt, pkg := { s.pkg with deadCores := s.pkg.deadCores ||| BitVec.twoPow 16 c } }
    let s := s.modCore c fun v => { v with epoch := v.epoch + 1, l1 := [], hbMissed := 0 }
    let ts := (s.tgu.insts.filter fun p => p.2.slots.any fun k => coreOf k == c).map (·.1)
    let s := ts.foldl (fun s t => stopDead c t s) s
    deadRecord 13 c s

/-- The host is declared dead: it is fenced, and what waits for it goes on (R496, R497). -/
def declareHost (s : State) : State :=
  if s.pkg.fenced then s
  else
    let lines := (s.lines.map fun (l : Nat × LineCo) => (l.1, { l.2 with
      host := false, hostMod := false, bisnp := false, bisnpD := false,
      probe := l.2.probe.map fun p => (p.1, p.2.filter (· ≠ 16)) })).filter fun l => decide (l.2 ≠ ({} : LineCo))
    deadRecord 14 0xFFFF { s with lines := lines, pkg := { s.pkg with fenced := true, hostFilter := [], hbMissed := 0, hostEpoch := s.pkg.hostEpoch + 1 } }

/-! ### Leases (R494) -/

/-- Agents that a hint names for a line, but the requester: cores, and 16 for the host. -/
def State.named (s : State) (line req : Nat) : List Nat :=
  let l := s.lineCo line
  ((List.range 16).filter fun c => c != req && !s.pkg.deadCores.getLsbD c
    && ((mget 0 s.filt (filtKey line (c / 4))).getLsbD (c % 4) || decide (0 < l.held c)))
  ++ (if l.host && !s.pkg.fenced then [16] else [])

/-- LEASE_PROBE (R494): the line's persistent request has been active for a lease; the slice probes the agents named. -/
def execLeaseProbe (line : Nat) (s : State) : Host.Outcome State Fault Refusal :=
  let l := s.lineCo line
  match l.preq.find? fun r => s.missing r.1 line with
  | none => ok s
  | some (c, t) =>
    if s.pkg.stopped || l.probe.isSome || decide (s.clk < t + s.lease) then ok s
    else ok (s.setLine line { l with probe := some (s.clk, s.named line c) })

/-- LEASE_EXPIRE (R494): an agent that has not acknowledged its probe within a second lease is declared dead. -/
def execLeaseExpire (line agent : Nat) (s : State) : Host.Outcome State Fault Refusal :=
  match (s.lineCo line).probe with
  | none => ok s
  | some (t, as) =>
    if s.pkg.stopped || decide (s.clk < t + s.lease) || !as.contains agent then ok s
    else if agent = 16 then ok (if s.hostMode 0 then declareHost s else s)
    else ok (if s.coreMode 0 then declareCore agent s else s)

/-! ### Heartbeats (R495) -/

/-- A core answers its poll, or misses it. -/
def pollCore (ans : BitVec 17) (c : Nat) (s : State) : State :=
  if s.pkg.deadCores.getLsbD c || s.pkg.gated.getLsbD c || (s.core c).waking then s
  else if ans.getLsbD c && !(s.core c).mute then s.modCore c fun v => { v with hbMissed := 0 }
  else
    let n := (s.core c).hbMissed + 1
    let s := s.modCore c fun v => { v with hbMissed := n }
    if bits s.deadctl 31 28 ≤ n then declareCore c s else s

/-- The host beats while its link is up and delivers flits. -/
def pollHost (ans : BitVec 17) (s : State) : State :=
  if ans.getLsbD 16 && s.pkg.linkUp then { s with pkg := { s.pkg with hbMissed := 0 } }
  else
    let n := s.pkg.hbMissed + 1
    let s := { s with pkg := { s.pkg with hbMissed := n } }
    if bits s.deadctl 31 28 ≤ n then declareHost s else s

/-- HEARTBEAT_POLL (R495): bit k of answered for core k, bit 16 for the host's flits. -/
def execHeartbeatPoll (answered : BitVec 17) (s : State) : Host.Outcome State Fault Refusal :=
  if s.pkg.stopped then ok s
  else
    let s := if s.coreMode 1 then (List.range 16).foldl (fun s c => pollCore answered c s) s else s
    ok (if s.hostMode 1 then pollHost answered s else s)

/-! ### The link (R499) -/

/-- FLIT_ERROR (R499): a corrected flit error is counted. -/
def execFlitError (s : State) : Host.Outcome State Fault Refusal :=
  if s.pkg.linkUp && !s.pkg.stopped then ok { s with pkg := { s.pkg with corr := s.pkg.corr + 1 } } else ok s

/-- LINK_DOWN (R499). -/
def execLinkDown (s : State) : Host.Outcome State Fault Refusal :=
  if s.pkg.linkUp && !s.pkg.stopped then
    ok { s with pkg := { s.pkg with linkUp := false, downAt := some s.clk } }
  else ok s

/-- LINK_RETRAINED (R499): the link is up again and what waited proceeds, in the CXL revision that the host trains (R354). -/
def execLinkRetrained (s : State) : Host.Outcome State Fault Refusal :=
  if s.pkg.linkUp || s.pkg.stopped || s.pkg.boot == 0 then ok s
  else
    let (w, s) := s.takeFree
    ok { s with pkg := { s.pkg with linkUp := true, downAt := none, retrain := s.pkg.retrain + 1, cxlOld := w.getLsbD 0 } }

/-- LINK_DOWN_TIMEOUT (R499): the link has been down beyond LINKTO, 1 500 000 clk a millisecond. -/
def execLinkDownTimeout (s : State) : Host.Outcome State Fault Refusal :=
  match s.pkg.downAt with
  | none => ok s
  | some t =>
    if s.pkg.stopped || decide (s.clk < t + bits s.deadctl 39 32 * 1500000) then ok s
    else
      let s := linkRecord 0x50 0 1 { s with pkg := { s.pkg with downAt := none } }
      ok (if s.hostMode 0 || s.hostMode 1 then declareHost s else s)

/-- The next CXL.cache read of a line of host memory ends with this reason (R499). -/
def failHost (line reason : Nat) (s : State) : State :=
  if s.pclass (64 * line) ≠ .host then s
  else { s with pkg := { s.pkg with hostPoison := (line, reason) :: s.pkg.hostPoison.filter (·.1 ≠ line) } }

/-- CXL_CACHE_TIMEOUT (R499): a read of the line gets no completion, and is handled as poison. -/
def execCxlCacheTimeout (line : Nat) (s : State) : Host.Outcome State Fault Refusal :=
  if s.pkg.stopped then ok s else ok (failHost line 3 s)

end Sys2Proof.Machine
end

