-- ==== Sys2Proof/Machine/Power.lean ====
section
/-! DEFINITION. Power states (R371 to R374), core gating (R372), supply events (R375, R500) and resets (R499, R500).
Readings and choices of the model: DESIGN CHOICE log entry 54; DEDUCED log entry 55. -/

namespace Sys2Proof.Machine

/-- A change of the package state. -/
def modPkg (f : Pkg → Pkg) (s : State) : State := { s with pkg := f s.pkg }

/-! ### Idle states (R371, R372) -/

/-- S1: no task pooled or running, and no engine operation in flight. -/
def State.idle (s : State) : Bool :=
  s.tgu.insts.all (fun p => p.2.st == .retired || p.2.st == .gone || p.2.st == .parked || p.2.st == .stopped)
  && s.eops == [] && s.cores.all (fun c => c.2.xops == [] && c.2.l1 == []) && s.gctx.all (fun c => !c.2.run && c.2.pushes == [])
  && s.layout.cmds == []
/-- S2 in addition, but for the time without a PMD access: no launch is queued. -/
def State.noLaunch (s : State) : Bool := s.tgu.launches == [] && s.tgu.port == []

/-- Every line leaves the L1 of a core (R361). -/
def evictAll (c : Nat) (s : State) : State := (s.lines.map (·.1)).foldl (fun s l => coEvict c l s) s

/-- POWER_STATE_ENTER (R372): the deepest state whose exit latency LTOL allows and whose conditions hold. Whether 10 µs
have passed without a PMD access, and whether 100 µs have passed without link traffic, are open facts here (log entry 54). -/
def execPowerStateEnter (s : State) : Host.Outcome State Fault Refusal :=
  let ltol := bits (s.reg 0x120000).toNat 47 32
  let (q, s') := s.takeFree
  let s2 := decide (4 ≤ ltol) && s.noLaunch && q.getLsbD 0
  let s3 := decide (40 ≤ ltol) && s.noLaunch && s.pkg.l12 && q.getLsbD 0 && q.getLsbD 1
  let deeper : BitVec 3 := if s3 then 3 else if s2 then 2 else 1
  if s.pkg.stopped || s.pkg.exiting || !s.idle || s.pkg.boot != 3 then ok s
  else if s.pkg.power < deeper then
    ok (modPkg (fun p => { p with power := deeper, gated := 0xFFFF })
      ((List.range 16).foldl (fun s c => evictAll c (s.modCore c fun v => { v with waking := false })) s'))
  else ok s'

/-- POWER_STATE_EXIT (R372): an exit to S0 begins. -/
def execPowerStateExit (s : State) : Host.Outcome State Fault Refusal :=
  if s.pkg.stopped || s.pkg.power == 0 then ok s else ok (modPkg (fun p => { p with exiting := true }) s)

/-- POWER_EXIT_COMPLETE (R371): the package is in S0, and what was held is served. -/
def execPowerExitComplete (s : State) : Host.Outcome State Fault Refusal :=
  if s.pkg.stopped || !s.pkg.exiting then ok s
  else ok (modPkg (fun p => { p with power := 0, exiting := false }) s)

/-- CORE_GATE (R372, R325): a core without a task for COREIDLE is gated, its L1 written back. -/
def execCoreGate (c : Nat) (s : State) : Host.Outcome State Fault Refusal :=
  let v := s.core c
  let lim := bits (s.reg 0x120000).toNat 23 16 * 1500
  if s.pkg.stopped || decide (16 ≤ c) || s.pkg.gated.getLsbD c || v.waking
      || (List.range 4).any (fun i => (s.slot (4 * c + i)).task.isSome) || v.l1 != [] || v.xops != []
      || decide (s.clk < v.idleSince + lim) then ok s
  else ok (modPkg (fun p => { p with gated := p.gated ||| BitVec.twoPow 16 c }) (evictAll c s))

/-- A register read by the host (R366, R502): like any host access it starts an exit from a low-power state and is held until that
completes (R372). -/
def readRegister (bar2 : Bool) (off n : Nat) (s : State) : State :=
  match busGate (!bar2 && decide (off < 0x30)) s fun s => answer off (leBytes (s.hostRegRead bar2 off n).toNat n) false s with
  | .next t => t
  | _ => s

/-! ### The power limit (R374) -/

/-- POWER_LIMIT_WINDOW (R374): the average of a window moves the issue duty by a sixteenth. -/
def execPowerLimitWindow (avg : Nat) (s : State) : Host.Outcome State Fault Refusal :=
  let lim := bits (s.reg 0x120000).toNat 15 8
  let d := s.pkg.duty
  let d := if lim < avg then max 1 (d - 1) else if avg + 2 < lim then min 16 (d + 1) else d
  if s.pkg.stopped then ok s else ok (modPkg (fun p => { p with duty := d, thr := decide (d < 16) }) s)

/-! ### The supply (R375, R500) -/

/-- SUPPLY_SAG (R375): clk periods are lengthened and the event is counted. -/
def execSupplySag (s : State) : Host.Outcome State Fault Refusal :=
  if s.pkg.stopped || s.pkg.sag then ok s else ok (modPkg (fun p => { p with sag := true, sagcnt := p.sagcnt + 1 }) s)

/-- SAG_END (R375). -/
def execSagEnd (s : State) : Host.Outcome State Fault Refusal :=
  if s.pkg.stopped then ok s else ok (modPkg (fun p => { p with sag := false }) s)

/-- SUPPLY_CRITICAL (R500): every logic-die clock stops, with all state retained. -/
def execSupplyCritical (s : State) : Host.Outcome State Fault Refusal := ok (modPkg (fun p => { p with stopped := true }) s)

/-- CLOCK_RESTART (R500): the clocks run again, and a record says so. -/
def execClockRestart (s : State) : Host.Outcome State Fault Refusal :=
  if s.pkg.stopped then
    ok (report { cause := 0x51, kind := 1, src := 15, info := 1 } .none
      (modPkg (fun p => { p with stopped := false, sag := false }) s))
  else ok s

/-! ### Resets (R499, R500) -/

/-- Cells of PMD memory. -/
def inPmd (s : State) (a : Nat) : Bool := decide (pmdBase ≤ a) && decide (a < pmdBase + s.cap)

/-- Every line that an L1 holds dirty loses what was not written back. -/
def dropDirty (s : State) : State := s.lines.foldl (fun s l => revertLine l.1 l.2 s) s

/-- The logic die as at power-on: host memory stays, and the PMDs' cells where their supply held, both without what an L1 held dirty
(log entry 55). -/
def logicReset (cause : BitVec 8) (pmd : Bool) (s : State) : State :=
  { State.reset with
    z128 := s.z128, clk := s.clk, mem := if pmd then (dropDirty s).mem else (dropDirty s).mem.filter fun c => !inPmd s c.1,
    flips := if pmd then s.flips else [], sched := s.sched, choice := s.choice, free := s.free,
    pkg := { State.reset.pkg with rstcause := cause } }

/-- HOT_RESET (R499). -/
def execHotReset (s : State) : Host.Outcome State Fault Refusal :=
  if s.pkg.boot == 0 then ok s else ok (logicReset 2 true s)

/-- SUPPLY_RETENTION_LOSS (R500). -/
def execSupplyRetentionLoss (pmdHeld : Bool) (s : State) : Host.Outcome State Fault Refusal := ok (logicReset 1 pmdHeld s)

end Sys2Proof.Machine
end

