-- ==== Sys2Proof/Machine/Sha.lean ====
section
/-! DEFINITION. SHA-256 of a list of bytes (R376 names it; its definition is that of FIPS 180-4, whose constants are computed
here from the roots of the primes that define them).
Readings and choices of the model: PRESUMED log entry 57. -/

namespace Sys2Proof.Machine

/-! ### Constants -/

/-- The first primes, those below 312: 64 of them. -/
def shaPrimes : List Nat :=
  (List.range 312).filter fun p => decide (2 ≤ p) && (List.range 18).all fun d => decide (d < 2) || d == p || p % d != 0
/-- The largest r whose power e does not exceed x, among those that agree with r0 above its last n bits. -/
def rootFloor (e x : Nat) : Nat → Nat → Nat
  | 0, r0 => r0
  | n + 1, r0 => rootFloor e x n (if (r0 + 2 ^ n) ^ e ≤ x then r0 + 2 ^ n else r0)
/-- The first 32 fraction bits of the root of degree e of p. -/
def rootFrac (e p : Nat) : BitVec 32 := BitVec.ofNat 32 (rootFloor e (p * 2 ^ (32 * e)) 37 0)

/-! ### One block -/

/-- The eight working words: two quartets, of which each round turns both by one place. -/
structure ShaWork where
  lo : BitVec 128
  hi : BitVec 128
deriving DecidableEq, Repr

/-- Word i of a quartet, 0 in its lowest bits. -/
def quart (q : BitVec 128) (i : Nat) : BitVec 32 := q.extractLsb' (32 * i) 32
/-- The exclusive sum of a word turned right by each of the amounts. -/
def turned (x : BitVec 32) (ns : List Nat) : BitVec 32 := ns.foldl (fun y n => y ^^^ x.rotateRight n) 0

/-- A round with round constant plus message word kw: both quartets take in a new lowest word. -/
def ShaWork.round (v : ShaWork) (kw : BitVec 32) : ShaWork :=
  let top := quart v.hi
  let bot := quart v.lo
  let pick := (top 0 &&& top 1) ||| (~~~(top 0) &&& top 2)
  let most := (bot 0 &&& bot 1) ||| (bot 2 &&& (bot 0 ||| bot 1))
  let x := kw + top 3 + pick + turned (top 0) [6, 11, 25]
  { lo := v.lo <<< 32 ||| (x + most + turned (bot 0) [2, 13, 22]).zeroExtend 128,
    hi := v.hi <<< 32 ||| (x + bot 3).zeroExtend 128 }

/-- The rounds of a block, a constant each: ws are the next sixteen words of the message schedule, which grows as it is used. -/
def shaRounds : List (BitVec 32) → List (BitVec 32) → ShaWork → ShaWork
  | [], _, v => v
  | k :: ks, ws, v =>
    let at' := fun (i : Nat) => ws.getD i 0
    let next := at' 0 + at' 9 + (turned (at' 1) [7, 18] ^^^ at' 1 >>> 3) + (turned (at' 14) [17, 19] ^^^ at' 14 >>> 10)
    shaRounds ks (ws.drop 1 ++ [next]) (v.round (k + at' 0))

/-- Words of both quartets added place by place. -/
def ShaWork.plus (v w : ShaWork) : ShaWork :=
  let sum := fun (a b : BitVec 128) => (List.range 4).foldl (fun (q : BitVec 128) i =>
    q ||| (quart a i + quart b i).zeroExtend 128 <<< (32 * i)) 0
  { lo := sum v.lo w.lo, hi := sum v.hi w.hi }

/-! ### A message -/

/-- A number whose bytes, the first highest, are those of the list. -/
def bigEndian (l : List Byte) : Nat := l.foldl (fun n b => 256 * n + b.toNat) 0

/-- Message bits with the bit 1, zeros and the length after them, as a number of some whole blocks of 512 bits. -/
def shaPadded (m : List Byte) : Nat × Nat :=
  let blocks := (m.length + 8) / 64 + 1
  (blocks, (2 * bigEndian m + 1) * 2 ^ (512 * blocks - 8 * m.length - 1) + 8 * m.length)

/-- The digest, its first byte in bits 7:0. -/
def sha256 (m : List Byte) : BitVec 256 :=
  let (blocks, n) := shaPadded m
  let quartet := fun (l : List Nat) => l.foldr (fun p (q : BitVec 128) => q <<< 32 ||| (rootFrac 2 p).zeroExtend 128) 0
  let start : ShaWork := { lo := quartet (shaPrimes.take 4), hi := quartet ((shaPrimes.drop 4).take 4) }
  let ks := shaPrimes.map (rootFrac 3)
  let v := (List.range blocks).foldl (fun v b =>
    let block := n / 2 ^ (512 * (blocks - 1 - b))
    let ws := (List.range 16).map fun i => BitVec.ofNat 32 (block / 2 ^ (32 * (15 - i)))
    v.plus (shaRounds ks ws v)) start
  let word := fun (q : BitVec 128) (i : Nat) => (leBytes (quart q i).toNat 4).reverse
  BitVec.ofNat 256 (leNat ((List.range 4).flatMap (word v.lo) ++ (List.range 4).flatMap (word v.hi)))

end Sys2Proof.Machine
end

