-- ==== Sys2Proof/Machine/Boot.lean ====
section
/-! DEFINITION. Signed boot (R376, R501), the management mailbox (R367) and attestation over SPDM (R377).
Readings and choices of the model: DESIGN CHOICE log entries 1, 5, 63; DEDUCED log entries 48, 56. -/

namespace Sys2Proof.Machine

/-! ### Verification (R376, R501) -/

/-- BOOTST.STATUS of an image (R376, R501): no image; a key whose SHA-256 digest is not the fused one; a signature that does not
verify over the image's digest; a version below the fused minimum. Where several hold the first of these is reported (log entry
56). -/
def imageState (img : List Byte) : BitVec 8 :=
  if img = [] then 1
  else if sha256 (Config.imageKey img) ≠ Config.fusedKeyDigest then 4
  else if Config.ecdsaVerify (Config.imageKey img) (sha256 img) img = false then 2
  else if (Config.imageVersion img).toNat < Config.fusedVersion.toNat then 3
  else 0

/-- BOOTST (R501): FWVER of the image tried, and STATUS. -/
def bootWord (img : List Byte) : Word :=
  BitVec.ofNat 64 ((if img = [] then 0 else (Config.imageVersion img).toNat * 2 ^ 32) + (imageState img).toNat)

/-- A register MRn extended by a digest (R376): SHA-256 of MRn and the digest, byte 0 first. -/
def extended (mr d : BitVec 256) : BitVec 256 := sha256 (leBytes mr.toNat 32 ++ leBytes d.toNat 32)
def extendMr (n : Nat) (d : BitVec 256) (s : State) : State :=
  modPkg (fun p => { p with mr := mset 0 p.mr n (extended (mget 0 p.mr n) d) }) s

/-- The verified firmware starts (R376): MR0 is the image digest, and its version the one running. -/
def startFirmware (img : List Byte) (s : State) : State :=
  modPkg (fun p => { p with mr := mset 0 p.mr 0 (sha256 img), fwver := Config.imageVersion img, boot := 2 }) s

/-- POWER_ON_BOOT (R376): the ROM verifies the flash image and starts it, or stays in recovery (R501). The link trains, to which
CXL revision is the host's choice (R354), as is where its address map places the memory of peers (R357). -/
def execPowerOnBoot (flash : List Byte) (s : State) : Host.Outcome State Fault Refusal :=
  if s.pkg.boot ≠ 0 ∨ s.pkg.stopped then ok s
  else
    let (w, s) := s.takeFree
    let s := modPkg (fun p => { p with linkUp := true, cxlOld := w.getLsbD 0, peers := Config.peerRanges w.toNat, bootst := bootWord flash }) s
    ok (if imageState flash = 0 then startFirmware flash s else modPkg (fun p => { p with boot := 1 }) s)

/-- FIRMWARE_READY (R376): the channels are trained, MR1 is extended by the digest of the configuration tables, and
CXL.cache and CXL.mem come up; training that fails leaves STATUS 0x05 (R501). -/
def execFirmwareReady (trained : Bool) (digest : BitVec 256) (s : State) : Host.Outcome State Fault Refusal :=
  if s.pkg.boot ≠ 2 ∨ s.pkg.stopped ∨ s.pkg.bootst.toNat % 256 ≠ 0 then ok s
  else if trained then ok (modPkg (fun p => { p with boot := 3 }) (extendMr 1 digest s))
  else ok (modPkg (fun p => { p with bootst := p.bootst ||| 5 }) s)

/-! ### SPDM (R377, R501) -/

/-- A response goes out over DOE, with vector 3 (R356). -/
def respond (n : Nat) (bs : List Byte) (s : State) : State :=
  modPkg (fun p => { p with spdm := (n, bs) :: p.spdm, msix := 3 :: p.msix }) s

/-- A DOE request: answered once the ROM runs, in S0, while the link is up (R372, R376, R499). -/
def doe (s : State) (f : State → State) : Host.Outcome State Fault Refusal :=
  if s.pkg.stopped || !s.pkg.linkUp || s.pkg.boot == 0 then ok s
  else if s.pkg.power ≠ 0 then ok (modPkg (fun p => { p with exiting := true }) s)
  else ok (f s)

/-- The measurements MR0 to MR3. -/
def State.measured (s : State) : List (BitVec 256) := (List.range 4).map (mget 0 s.pkg.mr)

/-- GET_VERSION (R377). -/
def execGetVersion (s : State) : Host.Outcome State Fault Refusal := doe s (respond 0 (Config.spdmBody 0))
/-- GET_CAPABILITIES (R377). -/
def execGetCapabilities (s : State) : Host.Outcome State Fault Refusal := doe s (respond 1 (Config.spdmBody 1))
/-- NEGOTIATE_ALGORITHMS (R377): ECDSA P-256 and SHA-256 only. -/
def execNegotiateAlgorithms (s : State) : Host.Outcome State Fault Refusal :=
  doe s (respond 2 (Config.spdmAlgorithms [.ecdsaP256, .sha256]))

/-- The alias key (R377): derived at boot from the fused secret and MR0. -/
def State.aliasKey (s : State) : BitVec 256 := Config.deriveAlias Config.fusedSecret (mget 0 s.pkg.mr 0)

/-- The certificate chain: in recovery the identity chain only (R377, R501). -/
def State.certs (s : State) : List Byte :=
  Config.certChain ++ (if s.pkg.boot = 1 then [] else Config.aliasCert s.aliasKey)

/-- GET_DIGESTS (R377): the SHA-256 digest of the chain. -/
def execGetDigests (s : State) : Host.Outcome State Fault Refusal :=
  doe s fun s => respond 3 (leBytes (sha256 s.certs).toNat 32) s
/-- GET_CERTIFICATE (R377). -/
def execGetCertificate (s : State) : Host.Outcome State Fault Refusal := doe s fun s => respond 4 s.certs s

/-- A response signed by the alias key over the nonce and the measurements, or ERROR in recovery (R377, R501). -/
def signed (n : Nat) (body : List Byte) (nonce : BitVec 256) (s : State) : State :=
  if s.pkg.boot = 1 then respond 7 [] s else respond n (body ++ Config.spdmSign s.aliasKey nonce s.measured) s

/-- CHALLENGE (R377). -/
def execChallenge (nonce : BitVec 256) (s : State) : Host.Outcome State Fault Refusal :=
  doe s fun s => signed 5 (Config.spdmBody 5) nonce s
/-- GET_MEASUREMENTS (R377): MR0 to MR3, signed. -/
def execGetMeasurements (nonce : BitVec 256) (s : State) : Host.Outcome State Fault Refusal :=
  doe s fun s => signed 6 (s.measured.flatMap fun m => leBytes m.toNat 32) nonce s

/-! ### The mailbox (R367) -/

/-- OP and ARG of the command that runs, the buffer and its length. -/
def State.mbOp (s : State) : Nat := bits s.pkg.mbCmd.toNat 63 56
def State.mbArg (s : State) : Nat := bits s.pkg.mbCmd.toNat 55 0
def State.mbAddr (s : State) : Nat := bits (s.reg 0x000008).toNat 56 0
def State.mbLen (s : State) : Nat := bits (s.reg 0x000018).toNat 31 0

/-- A write of all 8 bytes of DOORBELL: RING starts the command in MBCMD and ends a HALT of the management core (R353); with
RING 0, or while a command runs, it has no effect (R367). -/
def ring (v : Nat) (s : State) : State :=
  if bit v 0 ∧ s.pkg.mbBusy = false then
    modPkg (fun p => { p with mbBusy := true, mbDone := false, mbCmd := s.reg 0x000000 }) (modMgmt (fun m => { m with halted := false }) s)
  else s

/-- The command in MBCMD runs and has not been carried out. -/
def State.mbRuns (s : State) (op : Nat) : Bool := s.pkg.mbBusy && !s.pkg.mbDone && s.mbOp == op && !s.pkg.stopped
/-- The command has been carried out with this RESULT. -/
def mbResult (r : BitVec 8) (s : State) : State := modPkg (fun p => { p with mbDone := true, mbResult := r }) s

/-- n bytes of the host's buffer, none where the read fails. -/
def State.mbRead (s : State) (readOk : Bool) (n : Nat) : Option (List Byte) :=
  if readOk ∧ s.mbAddr + n ≤ hostTop + 1 then some (readBytes s.mem s.mbAddr n) else none

/-- Tasks are pooled or running (R367). -/
def State.tasksAbout (s : State) : Bool :=
  s.tgu.insts.any fun p => p.2.st != .retired && p.2.st != .gone && p.2.st != .parked && p.2.st != .stopped

/-- FWLOAD (R367): reads and verifies an image, and starts it as at boot. -/
def execFwload (readOk : Bool) (s : State) : Host.Outcome State Fault Refusal :=
  if !s.mbRuns 1 then ok s
  else if s.pkg.boot ≠ 1 ∧ s.tasksAbout then ok (mbResult 2 s)
  else match s.mbRead readOk s.mbLen with
    | none => ok (mbResult 4 s)
    | some img =>
      let s := modPkg (fun p => { p with bootst := bootWord img }) s
      if imageState img = 0 then ok (mbResult 0 (startFirmware img s)) else ok (mbResult 3 s)

/-- MREXTEND (R367): MR2 or MR3 is extended by a digest. -/
def execMrextend (readOk : Bool) (s : State) : Host.Outcome State Fault Refusal :=
  if !s.mbRuns 2 then ok s
  else match s.mbRead readOk 32 with
    | none => ok (mbResult 4 s)
    | some d => ok (mbResult 0 (extendMr (2 + s.mbArg % 2) (BitVec.ofNat 256 (leNat d)) s))

/-- NOP (R367). -/
def execNopM (s : State) : Host.Outcome State Fault Refusal := if s.mbRuns 3 then ok (mbResult 0 s) else ok s

/-- MAILBOX_COMMAND_DONE (R367): BUSY clears and vector 2 is sent; an OP that names no command has RESULT 0x01. -/
def execMailboxCommandDone (s : State) : Host.Outcome State Fault Refusal :=
  let unknown := s.mbOp == 0 || decide (3 < s.mbOp)
  if s.pkg.stopped || !s.pkg.mbBusy || !(s.pkg.mbDone || unknown) then ok s
  else ok (modPkg (fun p => { p with mbBusy := false, mbDone := false, mbResult := if p.mbDone then p.mbResult else 1,
                                     msix := 2 :: p.msix }) s)

end Sys2Proof.Machine
end

