-- ==== Sys2Proof/Machine/Graph.lean ====
section
/-! DEFINITION. The graph commands of GCMD (R368): LOAD with its checks (R317, R432), UNLOAD and PUBLISH.
Readings and choices of the model: DEDUCED log entry 53. -/

namespace Sys2Proof.Machine

/-! ### The checks of LOAD (R312 to R317, R432): reasons with the node, edge, counter or type at fault -/

/-- The findings of a check. -/
def found (c : Bool) (reason i : Nat) : List (Nat × Nat) := if c then [(reason, i)] else []

/-- The descriptor in GDESC. -/
def State.staged (s : State) : Graph := { desc := BitVec.ofNat 512 (s.table 0x020040 8) }

/-- The graph's ranges lie in the tables (R311). -/
def Graph.rangesBad (g : Graph) : Bool :=
  decide (4096 < g.node0 + g.nnode) || decide (4096 < g.edge0 + g.nedge) || decide (16384 < g.ctr0 + g.nctr)

/-- A type's fields (R316, R317). -/
def typeFaults (e i : Nat) : List (Nat × Nat) :=
  found (decide (5 < tClass e) || tLevel e == 3 || tRefire e == 3 || tMembers e == 0 || decide (16 < tMembers e)
    || (tLevel e == 0 && tMembers e != 1) || decide (256 < tSpw e) || decide (128 < tAccw e)
    || (tClass e == 0 && decide (1024 < tSlip e))) 0x0B i

/-- Edges into node i. -/
def State.into (s : State) (g : Graph) (i : Nat) : List Nat :=
  ((s.edgesOf g).filter fun p => eDst p.2 == i).map (·.2)

/-- A node's fields and its inputs (R313, R317). -/
def State.nodeFaults (s : State) (g : Graph) (i : Nat) : List (Nat × Nat) :=
  let e := s.node g i
  let t := s.typeEnt (nType e)
  let ins := (s.into g i).map eIn
  found (nNx e == 0 || nNy e == 0 || nNz e == 0 || decide (8 < nNin e)) 0x0B i
  ++ found (nNin e != ins.length || ins.eraseDups.length != ins.length) 0x0C i
  ++ found (tRefire t != 0 && (List.range g.nnode).all fun j => nType (s.node g j) != nType e || (s.into g j).all (!eCut ·)) 2 i
  ++ typeFaults t (nType e)
  ++ found (tGuarded t && (tClass t == 2 || tClass t == 3)) 4 i

/-- An edge's fields and the nodes it joins (R314, R317). -/
def State.edgeFaults (s : State) (g : Graph) (p : Nat × Nat) : List (Nat × Nat) :=
  let (i, e) := p
  if g.nnode ≤ eSrc e ∨ g.nnode ≤ eDst e then [(0x0B, i)]
  else
    let a := s.node g (eSrc e)
    let b := s.node g (eDst e)
    let ct := s.typeEnt (nType b)
    found (eSlots e == 0) 0x0B i
    ++ found (eMap e == 3 || (eCut e && eMap e == 1)) 6 i
    ++ found (eMap e == 0 && (nNx a != nNx b || nNy a != nNy b || nNz a != nNz b)) 0x0A i
    ++ found (eCut e && (!tGuarded ct || tRefire ct == 0)) 1 (eDst e)
    ++ found (eCut e && tTlen (s.typeEnt (nType a)) == 0) 3 (eSrc e)

/-- A counter's target (R315). -/
def State.ctrFaults (s : State) (g : Graph) (i : Nat) : List (Nat × Nat) :=
  let c := s.ctrEnt (g.ctr0 + i)
  let n := fieldOf c 8 2
  let e := s.node g n
  found (decide (g.nnode ≤ n) || decide (nNx e ≤ fieldOf c 10 2) || decide (nNy e ≤ fieldOf c 12 2)
    || decide (nNz e ≤ fieldOf c 14 2)) 0x0B i

/-- The nodes that n rounds of following edges reach from those of a list. -/
def reachFrom (es : List (Nat × Nat)) : Nat → List Nat → List Nat
  | 0, l => l
  | n + 1, l =>
    let more := (es.filter fun p => l.contains (eSrc p.2) && !l.contains (eDst p.2)).map fun p => eDst p.2
    if more = [] then l else reachFrom es n (more ++ l)
/-- The edges that lie on a cycle: their producer is reached from their consumer. -/
def cycleEdges (n : Nat) (es : List (Nat × Nat)) : List (Nat × Nat) :=
  es.filter fun p => (reachFrom es n [eDst p.2]).contains (eSrc p.2)

/-- Every finding. Where the ranges leave the tables nothing else can be looked at. -/
def State.loadFaults (s : State) (g : Graph) : List (Nat × Nat) :=
  if g.rangesBad then [(7, 0)]
  else
    found (g.nnode == 0 || g.bankOf false % 64 != 0 || g.bankOf true % 64 != 0) 0x0B 0
    ++ found (!bit (s.reg (0x010000 + 8 * g.space)).toNat 0) 8 0
    ++ (List.range g.nnode).flatMap (s.nodeFaults g)
    ++ (s.edgesOf g).flatMap (s.edgeFaults g)
    ++ (List.range g.nctr).flatMap (s.ctrFaults g)
    ++ (cycleEdges g.nnode (s.edgesOf g)).map fun p => (5, p.1)

/-! ### The commands -/

/-- Graph id of the command that runs, if its OP is op. -/
def State.gcmdOf (s : State) (op : Nat) : Option Nat :=
  match s.tgu.gcmd with
  | some w => if bits w.toNat 63 56 = op ∧ s.pkg.stopped = false then some (bits w.toNat 5 0) else none
  | none => none

/-- The command ends with a RESULT (R368). -/
def endGcmd (g result : Nat) (s : State) : State :=
  { s with tgu := { s.tgu with gcmd := none, gcmdst := BitVec.ofNat 64 (g * 2 ^ 8 + result) } }

/-- A write of all 8 bytes of GCMD: none while BUSY; an OP that names no command has RESULT 0x22. -/
def writeGcmd (v : Word) (s : State) : State :=
  if s.tgu.gcmd.isSome then s
  else if [1, 2, 3].contains (bits v.toNat 63 56) then { s with tgu := { s.tgu with gcmd := some v } }
  else endGcmd (bits v.toNat 5 0) 0x22 s

/-- Binds a graph id to a descriptor: FREE of each edge is SLOTS, nothing has started. -/
def bindGraph (g : Nat) (d : Graph) (s : State) : State :=
  let free := (s.edgesOf d).foldl (fun m p => mset 0 m (d.edge0 + p.1) (eSlots p.2)) s.tgu.edgeFree
  { s with tgu := { s.tgu with edgeFree := free, graphs := mput (merase s.tgu.graphs g) g d,
                               insts := s.tgu.insts.filter (·.2.graph ≠ g) } }

/-- LOAD (R368): with several findings the record names one of them, which is open. -/
def execLoadG (s : State) : Host.Outcome State Fault Refusal :=
  match s.gcmdOf 1 with
  | none => ok s
  | some g =>
    let busy := match s.graph? g with
      | some gr => !gr.aborted
      | none => false
    if busy then ok (endGcmd g 0x20 s)
    else
      let d := s.staged
      match s.loadFaults d with
      | [] => ok (endGcmd g 0 (bindGraph g d s))
      | f :: fs =>
        let (w, s) := s.takeFree
        let (r, i) := (f :: fs).getD (w.toNat % (fs.length + 1)) f
        ok (endGcmd g r (report { cause := 0x17, kind := 1, src := 12, info := BitVec.ofNat 64 (r + i % 65536 * 2 ^ 8) } .none s))

/-- UNLOAD (R368): waits until no launch of the graph is left. -/
def execUnloadG (s : State) : Host.Outcome State Fault Refusal :=
  match s.gcmdOf 2 with
  | none => ok s
  | some g =>
    match s.graph? g with
    | none => ok (endGcmd g 0x20 s)
    | some _ =>
      if s.tgu.launches.any (·.graph == g) then ok s
      else
        ok (endGcmd g 0 { s with tgu := { s.tgu with graphs := merase s.tgu.graphs g,
                                                     insts := s.tgu.insts.filter (·.2.graph ≠ g),
                                                     replays := s.tgu.replays.filter (·.graph ≠ g) } })

/-- PUBLISH (R368). -/
def execPublishG (s : State) : Host.Outcome State Fault Refusal :=
  match s.gcmdOf 3 with
  | none => ok s
  | some g =>
    match s.graph? g with
    | none => ok (endGcmd g 0x20 s)
    | some gr => if !s.tguMay 3 then ok s else ok (endGcmd g 0 (setGraph g { gr with pubreq := true } (tguDid 3 s)))

end Sys2Proof.Machine
end

