-- ==== Sys2Proof/Machine/Regwrite.lean ====
section
/-! DEFINITION. Writes of the registers of BAR0 (R6, R366, R502): each register's own behaviour behind one routing.
Readings and choices of the model: DEDUCED log entry 48; DESIGN CHOICE log entries 52, 63. -/

namespace Sys2Proof.Machine

/-! ### Registers with behaviour of their own -/

/-- A write of ARRDIS of a cluster (R468): a bit written as 1 clears, and its section is recalibrated. -/
def writeArrdis (cl v : Nat) (s : State) : State :=
  (List.range 4).foldl (fun s i =>
    let c := s.cluster cl
    if bit v i && c.arrdis.getLsbD i then
      let s := s.setCluster cl { c with arrdis := c.arrdis &&& ~~~BitVec.twoPow 4 i }
      setSec cl i { s.sec cl i with recal := true } s
    else s) s

/-- A write of all 8 bytes of DEADACK (R497): the LOST flag of one region is cleared. -/
def writeDeadack (v : Nat) (s : State) : State := { s with lostReg := s.lostReg.filter (· ≠ bits v 56 9) }

/-- A write of all 8 bytes of FQACT (R412); one whose action is none has no effect, which BADACT tells. -/
def writeFqact (v : Nat) (s : State) : State :=
  let r := bits v 39 32
  match bits v 47 40 with
  | 1 => act resumeTarget r s
  | 2 => act requeueTarget r s
  | 3 => act abortTarget r s
  | _ => { s with fq := { s.fq with badact := true } }

/-! ### Routing (R366, R502) -/

/-- A naturally aligned write of n bytes, 1, 2, 4 or 8, at byte b of the register at off. w is the value with the other
bytes as they stand; ones is the value with zeros in them, for W1C bits. -/
def writeReg (off b n v : Nat) (s : State) : State :=
  let whole := n == 8
  let ones := v % 256 ^ n * 256 ^ b
  let cur := (s.regView off).toNat
  let w := cur - fieldOf cur b n * 256 ^ b + ones
  if off = 0x000020 then if whole then ring v s else s
  else if off = 0x020010 then if whole then writeGcmd (BitVec.ofNat 64 v) s else s
  else if off = 0x020028 then if whole then writeTinvcmd v s else s
  else if off = 0x020100 then writeSavepool w s
  else if off = 0x111000 then if whole then writeLcmd v s else s
  else if off = 0x111008 then
    let l := s.layout
    { s with layout := { l with bad := l.bad && !bit ones 2, full := l.full && !bit ones 1 } }
  else if off = 0x130008 then { s with fq := { s.fq with badact := s.fq.badact && !bit ones 1 } }
  else if off = 0x130010 then writeFqhead w s
  else if off = 0x130020 then if whole then writeFqact v s else s
  else if 0x130040 ≤ off ∧ off < 0x130060 then writeArrdis ((off - 0x130040) / 8) ones s
  else if off = 0x130070 then if whole then writeDeadack v s else s
  else if 0x100000 ≤ off ∧ off < 0x102000 ∧ off % 0x100 = 0x08 then
    let c := (off - 0x100000) / 0x100
    let m := s.chan c
    if bit ones 0 then s.setChan c { m with eccst := m.eccst &&& ~~~(1 : Word) } else s
  else setRw off w s

/-- A host write of n bytes at an offset of BAR0 or BAR2: one that is not naturally aligned has no effect, nor one to
BAR2, whose list is read-only and whose launch port takes 64 bytes only (R319, R355, R502). -/
def hostRegWrite (bar2 : Bool) (off n v : Nat) (s : State) : State :=
  if bar2 || !([1, 2, 4, 8].contains n) || off % n != 0 || decide (2 ^ 24 ≤ off) then s
  else writeReg (off / 8 * 8) (off % 8) n v s

/-- REGISTER_WRITE (R6, R502). -/
def execRegisterWrite (bar2 : Bool) (off n : Nat) (v : Word) (s : State) : Host.Outcome State Fault Refusal :=
  busGate (!bar2 && decide (off < 0x30)) s (hostRegWrite bar2 off n v.toNat)
/-- DEADACK_WRITE (R497). -/
def execDeadackWrite (v : Word) (s : State) : Host.Outcome State Fault Refusal := busGate false s (writeDeadack v.toNat)
/-- ARRDIS_WRITE (R468). -/
def execArrdisWrite (cl : Nat) (v : Word) (s : State) : Host.Outcome State Fault Refusal :=
  if 4 ≤ cl then ok s else busGate false s (writeArrdis cl v.toNat)
/-- SAVEPOOL_WRITE (R478). -/
def execSavepoolWrite (v : Word) (s : State) : Host.Outcome State Fault Refusal := busGate false s (writeSavepool v.toNat)

end Sys2Proof.Machine
end

