-- ==== Sys2Proof/Machine/Scalar.lean ====
section
/-! DEFINITION. The scalar ALU of A words (ASQ and helper) and X words (ESQ): R158 to R161.
Readings and choices of the model: DEDUCED log entry 13. -/

namespace Sys2Proof.Machine

/-! ### The operations (R159) -/

def aluSll (a b : Word) : Word := a <<< (b.toNat % 64)
def aluSrl (a b : Word) : Word := a >>> (b.toNat % 64)
def aluSra (a b : Word) : Word := a.sshiftRight (b.toNat % 64)
def aluSlt (a b : Word) : Word := if a.toInt < b.toInt then 1 else 0
def aluSltn (a b : Word) : Word := if a.toNat < b.toNat then 1 else 0
def aluMin (a b : Word) : Word := if a.toInt ≤ b.toInt then a else b
def aluMax (a b : Word) : Word := if a.toInt ≤ b.toInt then b else a
def aluMinn (a b : Word) : Word := if a.toNat ≤ b.toNat then a else b
def aluMaxn (a b : Word) : Word := if a.toNat ≤ b.toNat then b else a
/-- Bits 127:64 of the signed product. -/
def aluMulh (a b : Word) : Word := wordOf (a.toInt * b.toInt / 2 ^ 64)
/-- Bits 127:64 of the unsigned product. -/
def aluMulhn (a b : Word) : Word := BitVec.ofNat 64 (a.toNat * b.toNat / 2 ^ 64)
/-- Quotient and remainder by R69. -/
def aluDiv (a b : Word) : Word := if b = 0 then -1 else wordOf (a.toInt.tdiv b.toInt)
def aluDivn (a b : Word) : Word := if b = 0 then -1 else BitVec.ofNat 64 (a.toNat / b.toNat)
def aluRem (a b : Word) : Word := if b = 0 then a else wordOf (a.toInt.tmod b.toInt)
def aluRemn (a b : Word) : Word := if b = 0 then a else BitVec.ofNat 64 (a.toNat % b.toNat)
def aluClz (a : Word) : Word := if a = 0 then 64 else BitVec.ofNat 64 (63 - Nat.log2 a.toNat)
def aluPopc (a : Word) : Word := BitVec.ofNat 64 ((List.range 64).countP fun i => a.getLsbD i)
/-- LIX: the old value shifted up by 18 with the immediate below (R160). -/
def aluLix (d : Word) (i : BitVec 18) : Word := (d <<< 18) ||| i.setWidth 64

/-! ### Shared forms -/

/-- A scalar word of the ASQ or the helper: it waits for the registers it names (R161), writes d, and is done. -/
def aluA (d : BitVec 5) (srcs : List (BitVec 5)) (f : (BitVec 5 → Word) → Word) (s : State) :
    Host.Outcome State Fault Refusal :=
  let p := s.sel.party
  if (d :: srcs).any (s.mySlot.busyP p) then ok s
  else done (s.modSlot s.sel.slot fun sl => sl.wp p d (f (sl.rp p)))

/-- A scalar word of the ESQ with exposed latency lat: in interlocked mode it waits for its registers and writes at
once (R57), in exposed mode its result is due lat ticks on (R58). The management core has registers of its own (R336). -/
def aluX (lat : Nat) (d : BitVec 5) (srcs : List (BitVec 5)) (f : (BitVec 5 → Word) → Word) (s : State) :
    Host.Outcome State Fault Refusal :=
  if s.isMgmt then ok (modMgmt (fun m => (m.wx d (f m.rx)).step) s)
  else if (d :: srcs).any (s.mySlot.busyP .esq) then ok s
  else if s.mySlot.exposed then
    done (s.modSlot s.sel.slot fun sl =>
      { sl with results := sl.results ++ [{ due := sl.tick + lat, x := some (d.toNat, f sl.rx) }] })
  else done (s.modSlot s.sel.slot fun sl => sl.wx d (f sl.rx))

/-! ### A words -/

/-- ADD in an A word (R159). -/
def execAddA (d a b : BitVec 5) (s : State) : Host.Outcome State Fault Refusal :=
  aluA d [a, b] (fun r => (r a) + (r b)) s
/-- SUB in an A word (R159). -/
def execSubA (d a b : BitVec 5) (s : State) : Host.Outcome State Fault Refusal :=
  aluA d [a, b] (fun r => (r a) - (r b)) s
/-- AND in an A word (R159). -/
def execAndA (d a b : BitVec 5) (s : State) : Host.Outcome State Fault Refusal :=
  aluA d [a, b] (fun r => (r a) &&& (r b)) s
/-- OR in an A word (R159). -/
def execOrA (d a b : BitVec 5) (s : State) : Host.Outcome State Fault Refusal :=
  aluA d [a, b] (fun r => (r a) ||| (r b)) s
/-- XOR in an A word (R159). -/
def execXorA (d a b : BitVec 5) (s : State) : Host.Outcome State Fault Refusal :=
  aluA d [a, b] (fun r => (r a) ^^^ (r b)) s
/-- SLL in an A word (R159). -/
def execSllA (d a b : BitVec 5) (s : State) : Host.Outcome State Fault Refusal :=
  aluA d [a, b] (fun r => aluSll (r a) (r b)) s
/-- SRL in an A word (R159). -/
def execSrlA (d a b : BitVec 5) (s : State) : Host.Outcome State Fault Refusal :=
  aluA d [a, b] (fun r => aluSrl (r a) (r b)) s
/-- SRA in an A word (R159). -/
def execSraA (d a b : BitVec 5) (s : State) : Host.Outcome State Fault Refusal :=
  aluA d [a, b] (fun r => aluSra (r a) (r b)) s
/-- SLT in an A word (R159). -/
def execSltA (d a b : BitVec 5) (s : State) : Host.Outcome State Fault Refusal :=
  aluA d [a, b] (fun r => aluSlt (r a) (r b)) s
/-- SLTN in an A word (R159). -/
def execSltnA (d a b : BitVec 5) (s : State) : Host.Outcome State Fault Refusal :=
  aluA d [a, b] (fun r => aluSltn (r a) (r b)) s
/-- MIN in an A word (R159). -/
def execMinA (d a b : BitVec 5) (s : State) : Host.Outcome State Fault Refusal :=
  aluA d [a, b] (fun r => aluMin (r a) (r b)) s
/-- MAX in an A word (R159). -/
def execMaxA (d a b : BitVec 5) (s : State) : Host.Outcome State Fault Refusal :=
  aluA d [a, b] (fun r => aluMax (r a) (r b)) s
/-- MINN in an A word (R159). -/
def execMinnA (d a b : BitVec 5) (s : State) : Host.Outcome State Fault Refusal :=
  aluA d [a, b] (fun r => aluMinn (r a) (r b)) s
/-- MAXN in an A word (R159). -/
def execMaxnA (d a b : BitVec 5) (s : State) : Host.Outcome State Fault Refusal :=
  aluA d [a, b] (fun r => aluMaxn (r a) (r b)) s
/-- MUL in an A word (R159). -/
def execMulA (d a b : BitVec 5) (s : State) : Host.Outcome State Fault Refusal :=
  aluA d [a, b] (fun r => (r a) * (r b)) s
/-- MULH in an A word (R159). -/
def execMulhA (d a b : BitVec 5) (s : State) : Host.Outcome State Fault Refusal :=
  aluA d [a, b] (fun r => aluMulh (r a) (r b)) s
/-- MULHN in an A word (R159). -/
def execMulhnA (d a b : BitVec 5) (s : State) : Host.Outcome State Fault Refusal :=
  aluA d [a, b] (fun r => aluMulhn (r a) (r b)) s
/-- DIV in an A word (R159). -/
def execDivA (d a b : BitVec 5) (s : State) : Host.Outcome State Fault Refusal :=
  aluA d [a, b] (fun r => aluDiv (r a) (r b)) s
/-- DIVN in an A word (R159). -/
def execDivnA (d a b : BitVec 5) (s : State) : Host.Outcome State Fault Refusal :=
  aluA d [a, b] (fun r => aluDivn (r a) (r b)) s
/-- REM in an A word (R159). -/
def execRemA (d a b : BitVec 5) (s : State) : Host.Outcome State Fault Refusal :=
  aluA d [a, b] (fun r => aluRem (r a) (r b)) s
/-- REMN in an A word (R159). -/
def execRemnA (d a b : BitVec 5) (s : State) : Host.Outcome State Fault Refusal :=
  aluA d [a, b] (fun r => aluRemn (r a) (r b)) s
/-- CLZ in an A word (R159). -/
def execClzA (d a : BitVec 5) (s : State) : Host.Outcome State Fault Refusal :=
  aluA d [a] (fun r => aluClz (r a)) s
/-- POPC in an A word (R159). -/
def execPopcA (d a : BitVec 5) (s : State) : Host.Outcome State Fault Refusal :=
  aluA d [a] (fun r => aluPopc (r a)) s
/-- CSEL in an A word (R159): d is the condition. -/
def execCselA (d a b : BitVec 5) (s : State) : Host.Outcome State Fault Refusal :=
  aluA d [a, b] (fun r => if r d ≠ 0 then r a else r b) s
/-- ADDI in an A word (R160). -/
def execAddiA (d a : BitVec 5) (i : BitVec 13) (s : State) : Host.Outcome State Fault Refusal :=
  aluA d [a] (fun r => r a + simm i) s
/-- ANDI in an A word (R160). -/
def execAndiA (d a : BitVec 5) (i : BitVec 13) (s : State) : Host.Outcome State Fault Refusal :=
  aluA d [a] (fun r => r a &&& simm i) s
/-- ORI in an A word (R160). -/
def execOriA (d a : BitVec 5) (i : BitVec 13) (s : State) : Host.Outcome State Fault Refusal :=
  aluA d [a] (fun r => r a ||| simm i) s
/-- XORI in an A word (R160). -/
def execXoriA (d a : BitVec 5) (i : BitVec 13) (s : State) : Host.Outcome State Fault Refusal :=
  aluA d [a] (fun r => r a ^^^ simm i) s
/-- SLTI in an A word (R160). -/
def execSltiA (d a : BitVec 5) (i : BitVec 13) (s : State) : Host.Outcome State Fault Refusal :=
  aluA d [a] (fun r => aluSlt (r a) (simm i)) s
/-- SLLI in an A word (R160). -/
def execSlliA (d a : BitVec 5) (c : BitVec 6) (s : State) : Host.Outcome State Fault Refusal :=
  aluA d [a] (fun r => aluSll (r a) (c.setWidth 64)) s
/-- SRLI in an A word (R160). -/
def execSrliA (d a : BitVec 5) (c : BitVec 6) (s : State) : Host.Outcome State Fault Refusal :=
  aluA d [a] (fun r => aluSrl (r a) (c.setWidth 64)) s
/-- SRAI in an A word (R160). -/
def execSraiA (d a : BitVec 5) (c : BitVec 6) (s : State) : Host.Outcome State Fault Refusal :=
  aluA d [a] (fun r => aluSra (r a) (c.setWidth 64)) s
/-- LI in an A word (R160). -/
def execLiA (d : BitVec 5) (i : BitVec 18) (s : State) : Host.Outcome State Fault Refusal :=
  aluA d [] (fun _ => simm i) s
/-- LIX in an A word (R160). -/
def execLixA (d : BitVec 5) (i : BitVec 18) (s : State) : Host.Outcome State Fault Refusal :=
  aluA d [] (fun r => aluLix (r d) i) s
/-! ### X words -/

/-- ADD in an X word (R159). -/
def execAddX (d a b : BitVec 5) (s : State) : Host.Outcome State Fault Refusal :=
  aluX 1 d [a, b] (fun r => (r a) + (r b)) s
/-- SUB in an X word (R159). -/
def execSubX (d a b : BitVec 5) (s : State) : Host.Outcome State Fault Refusal :=
  aluX 1 d [a, b] (fun r => (r a) - (r b)) s
/-- AND in an X word (R159). -/
def execAndX (d a b : BitVec 5) (s : State) : Host.Outcome State Fault Refusal :=
  aluX 1 d [a, b] (fun r => (r a) &&& (r b)) s
/-- OR in an X word (R159). -/
def execOrX (d a b : BitVec 5) (s : State) : Host.Outcome State Fault Refusal :=
  aluX 1 d [a, b] (fun r => (r a) ||| (r b)) s
/-- XOR in an X word (R159). -/
def execXorX (d a b : BitVec 5) (s : State) : Host.Outcome State Fault Refusal :=
  aluX 1 d [a, b] (fun r => (r a) ^^^ (r b)) s
/-- SLL in an X word (R159). -/
def execSllX (d a b : BitVec 5) (s : State) : Host.Outcome State Fault Refusal :=
  aluX 1 d [a, b] (fun r => aluSll (r a) (r b)) s
/-- SRL in an X word (R159). -/
def execSrlX (d a b : BitVec 5) (s : State) : Host.Outcome State Fault Refusal :=
  aluX 1 d [a, b] (fun r => aluSrl (r a) (r b)) s
/-- SRA in an X word (R159). -/
def execSraX (d a b : BitVec 5) (s : State) : Host.Outcome State Fault Refusal :=
  aluX 1 d [a, b] (fun r => aluSra (r a) (r b)) s
/-- SLT in an X word (R159). -/
def execSltX (d a b : BitVec 5) (s : State) : Host.Outcome State Fault Refusal :=
  aluX 1 d [a, b] (fun r => aluSlt (r a) (r b)) s
/-- SLTN in an X word (R159). -/
def execSltnX (d a b : BitVec 5) (s : State) : Host.Outcome State Fault Refusal :=
  aluX 1 d [a, b] (fun r => aluSltn (r a) (r b)) s
/-- MIN in an X word (R159). -/
def execMinX (d a b : BitVec 5) (s : State) : Host.Outcome State Fault Refusal :=
  aluX 1 d [a, b] (fun r => aluMin (r a) (r b)) s
/-- MAX in an X word (R159). -/
def execMaxX (d a b : BitVec 5) (s : State) : Host.Outcome State Fault Refusal :=
  aluX 1 d [a, b] (fun r => aluMax (r a) (r b)) s
/-- MINN in an X word (R159). -/
def execMinnX (d a b : BitVec 5) (s : State) : Host.Outcome State Fault Refusal :=
  aluX 1 d [a, b] (fun r => aluMinn (r a) (r b)) s
/-- MAXN in an X word (R159). -/
def execMaxnX (d a b : BitVec 5) (s : State) : Host.Outcome State Fault Refusal :=
  aluX 1 d [a, b] (fun r => aluMaxn (r a) (r b)) s
/-- MUL in an X word (R159). -/
def execMulX (d a b : BitVec 5) (s : State) : Host.Outcome State Fault Refusal :=
  aluX 3 d [a, b] (fun r => (r a) * (r b)) s
/-- MULH in an X word (R159). -/
def execMulhX (d a b : BitVec 5) (s : State) : Host.Outcome State Fault Refusal :=
  aluX 4 d [a, b] (fun r => aluMulh (r a) (r b)) s
/-- MULHN in an X word (R159). -/
def execMulhnX (d a b : BitVec 5) (s : State) : Host.Outcome State Fault Refusal :=
  aluX 4 d [a, b] (fun r => aluMulhn (r a) (r b)) s
/-- DIV in an X word (R159). -/
def execDivX (d a b : BitVec 5) (s : State) : Host.Outcome State Fault Refusal :=
  aluX 18 d [a, b] (fun r => aluDiv (r a) (r b)) s
/-- DIVN in an X word (R159). -/
def execDivnX (d a b : BitVec 5) (s : State) : Host.Outcome State Fault Refusal :=
  aluX 18 d [a, b] (fun r => aluDivn (r a) (r b)) s
/-- REM in an X word (R159). -/
def execRemX (d a b : BitVec 5) (s : State) : Host.Outcome State Fault Refusal :=
  aluX 18 d [a, b] (fun r => aluRem (r a) (r b)) s
/-- REMN in an X word (R159). -/
def execRemnX (d a b : BitVec 5) (s : State) : Host.Outcome State Fault Refusal :=
  aluX 18 d [a, b] (fun r => aluRemn (r a) (r b)) s
/-- CLZ in an X word (R159). -/
def execClzX (d a : BitVec 5) (s : State) : Host.Outcome State Fault Refusal :=
  aluX 1 d [a] (fun r => aluClz (r a)) s
/-- POPC in an X word (R159). -/
def execPopcX (d a : BitVec 5) (s : State) : Host.Outcome State Fault Refusal :=
  aluX 1 d [a] (fun r => aluPopc (r a)) s
/-- CSEL in an X word (R159): d is the condition. -/
def execCselX (d a b : BitVec 5) (s : State) : Host.Outcome State Fault Refusal :=
  aluX 1 d [a, b] (fun r => if r d ≠ 0 then r a else r b) s
/-- ADDI in an X word (R160). -/
def execAddiX (d a : BitVec 5) (i : BitVec 13) (s : State) : Host.Outcome State Fault Refusal :=
  aluX 1 d [a] (fun r => r a + simm i) s
/-- ANDI in an X word (R160). -/
def execAndiX (d a : BitVec 5) (i : BitVec 13) (s : State) : Host.Outcome State Fault Refusal :=
  aluX 1 d [a] (fun r => r a &&& simm i) s
/-- ORI in an X word (R160). -/
def execOriX (d a : BitVec 5) (i : BitVec 13) (s : State) : Host.Outcome State Fault Refusal :=
  aluX 1 d [a] (fun r => r a ||| simm i) s
/-- XORI in an X word (R160). -/
def execXoriX (d a : BitVec 5) (i : BitVec 13) (s : State) : Host.Outcome State Fault Refusal :=
  aluX 1 d [a] (fun r => r a ^^^ simm i) s
/-- SLTI in an X word (R160). -/
def execSltiX (d a : BitVec 5) (i : BitVec 13) (s : State) : Host.Outcome State Fault Refusal :=
  aluX 1 d [a] (fun r => aluSlt (r a) (simm i)) s
/-- SLLI in an X word (R160). -/
def execSlliX (d a : BitVec 5) (c : BitVec 6) (s : State) : Host.Outcome State Fault Refusal :=
  aluX 1 d [a] (fun r => aluSll (r a) (c.setWidth 64)) s
/-- SRLI in an X word (R160). -/
def execSrliX (d a : BitVec 5) (c : BitVec 6) (s : State) : Host.Outcome State Fault Refusal :=
  aluX 1 d [a] (fun r => aluSrl (r a) (c.setWidth 64)) s
/-- SRAI in an X word (R160). -/
def execSraiX (d a : BitVec 5) (c : BitVec 6) (s : State) : Host.Outcome State Fault Refusal :=
  aluX 1 d [a] (fun r => aluSra (r a) (c.setWidth 64)) s
/-- LI in an X word (R160). -/
def execLiX (d : BitVec 5) (i : BitVec 18) (s : State) : Host.Outcome State Fault Refusal :=
  aluX 1 d [] (fun _ => simm i) s
/-- LIX in an X word (R160). -/
def execLixX (d : BitVec 5) (i : BitVec 18) (s : State) : Host.Outcome State Fault Refusal :=
  aluX 1 d [] (fun r => aluLix (r d) i) s

end Sys2Proof.Machine
end

