-- ==== Sys2Proof/Machine/Trap.lean ====
section
/-! DEFINITION. Words that are no instruction, at whoever takes them (R422, R431, R435, R436), and the management core's
own turn (R353, R431).
Readings and choices of the model: DEDUCED log entry 58. -/

namespace Sys2Proof.Machine

/-- NOT_AN_INSTRUCTION (R422): the taker meets cause 0x10. -/
def execNotAnInstruction (r : Nat) (s : State) : Host.Outcome State Fault Refusal :=
  match s.sel.kind with
  | .core | .mgmt => takerTrap r s
  | .glean => gTrap r s
  | .nbu => nTrap r s

/-- Words that the management core executes besides the privileged ones: those that need nothing but registers, a pc and the two
stacks (R158 to R160, R176 to R178; log entry 58). -/
def mgmtWord (w : W32) (i : Instr) : Bool :=
  wordTag w == 2 || match i with
    | .br _ _ _ _ | .jmp _ _ | .call _ _ | .ret _ | .loop _ _ _ => true
    | _ => false

/-- The management core takes the word at its pc, a device physical address (log entry 58): SRET, HALT and TINV, hints, X words,
branches, calls and loops, and words that are no instruction. At a word that acts on what only a slot has it stands still. It
waits while its TINV is under way (R352), and for a line that the host holds modified (R358). -/
def fetchMgmt (s : State) : Fetched :=
  let m := s.mgmt
  if m.halted || s.tinv.isSome || s.pkg.stopped || s.pkg.boot == 0 then hold s
  else
    let ls := linesOf m.pc.toNat 4
    if !s.canAccess 16 ls then .whole (.next (sendData ls s))
    else
      let w := BitVec.ofNat 32 (s.physLe m.pc.toNat 4)
      let s := { s with sel := { kind := .mgmt, party := .esq, word := w } }
      if wordTag w = 7 then .whole (.next (modMgmt Mgmt.step s))
      else match decodeCore w with
        | .bad r => .run s (.notAnInstruction r)
        | .ok i => if privWord w || mgmtWord w i then .run s i else hold s

end Sys2Proof.Machine
end

