-- ==== Sys2Proof/Machine/Dispatch.lean ====
section
/-! DEFINITION. The meaning of every instruction and event: one direct call per constructor of Instr. -/

namespace Sys2Proof.Machine

def exec (i : Instr) (s : State) : Host.Outcome State Fault Refusal :=
  match i with
  | .addA d a b => Sys2Proof.Machine.execAddA d a b s
  | .subA d a b => Sys2Proof.Machine.execSubA d a b s
  | .andA d a b => Sys2Proof.Machine.execAndA d a b s
  | .orA d a b => Sys2Proof.Machine.execOrA d a b s
  | .xorA d a b => Sys2Proof.Machine.execXorA d a b s
  | .sllA d a b => Sys2Proof.Machine.execSllA d a b s
  | .srlA d a b => Sys2Proof.Machine.execSrlA d a b s
  | .sraA d a b => Sys2Proof.Machine.execSraA d a b s
  | .sltA d a b => Sys2Proof.Machine.execSltA d a b s
  | .sltnA d a b => Sys2Proof.Machine.execSltnA d a b s
  | .minA d a b => Sys2Proof.Machine.execMinA d a b s
  | .maxA d a b => Sys2Proof.Machine.execMaxA d a b s
  | .minnA d a b => Sys2Proof.Machine.execMinnA d a b s
  | .maxnA d a b => Sys2Proof.Machine.execMaxnA d a b s
  | .mulA d a b => Sys2Proof.Machine.execMulA d a b s
  | .mulhA d a b => Sys2Proof.Machine.execMulhA d a b s
  | .mulhnA d a b => Sys2Proof.Machine.execMulhnA d a b s
  | .divA d a b => Sys2Proof.Machine.execDivA d a b s
  | .divnA d a b => Sys2Proof.Machine.execDivnA d a b s
  | .remA d a b => Sys2Proof.Machine.execRemA d a b s
  | .remnA d a b => Sys2Proof.Machine.execRemnA d a b s
  | .clzA d a => Sys2Proof.Machine.execClzA d a s
  | .popcA d a => Sys2Proof.Machine.execPopcA d a s
  | .cselA d a b => Sys2Proof.Machine.execCselA d a b s
  | .addiA d a ii => Sys2Proof.Machine.execAddiA d a ii s
  | .andiA d a ii => Sys2Proof.Machine.execAndiA d a ii s
  | .oriA d a ii => Sys2Proof.Machine.execOriA d a ii s
  | .xoriA d a ii => Sys2Proof.Machine.execXoriA d a ii s
  | .slliA d a c => Sys2Proof.Machine.execSlliA d a c s
  | .srliA d a c => Sys2Proof.Machine.execSrliA d a c s
  | .sraiA d a c => Sys2Proof.Machine.execSraiA d a c s
  | .sltiA d a ii => Sys2Proof.Machine.execSltiA d a ii s
  | .liA d ii => Sys2Proof.Machine.execLiA d ii s
  | .lixA d ii => Sys2Proof.Machine.execLixA d ii s
  | .addX d a b => Sys2Proof.Machine.execAddX d a b s
  | .subX d a b => Sys2Proof.Machine.execSubX d a b s
  | .andX d a b => Sys2Proof.Machine.execAndX d a b s
  | .orX d a b => Sys2Proof.Machine.execOrX d a b s
  | .xorX d a b => Sys2Proof.Machine.execXorX d a b s
  | .sllX d a b => Sys2Proof.Machine.execSllX d a b s
  | .srlX d a b => Sys2Proof.Machine.execSrlX d a b s
  | .sraX d a b => Sys2Proof.Machine.execSraX d a b s
  | .sltX d a b => Sys2Proof.Machine.execSltX d a b s
  | .sltnX d a b => Sys2Proof.Machine.execSltnX d a b s
  | .minX d a b => Sys2Proof.Machine.execMinX d a b s
  | .maxX d a b => Sys2Proof.Machine.execMaxX d a b s
  | .minnX d a b => Sys2Proof.Machine.execMinnX d a b s
  | .maxnX d a b => Sys2Proof.Machine.execMaxnX d a b s
  | .mulX d a b => Sys2Proof.Machine.execMulX d a b s
  | .mulhX d a b => Sys2Proof.Machine.execMulhX d a b s
  | .mulhnX d a b => Sys2Proof.Machine.execMulhnX d a b s
  | .divX d a b => Sys2Proof.Machine.execDivX d a b s
  | .divnX d a b => Sys2Proof.Machine.execDivnX d a b s
  | .remX d a b => Sys2Proof.Machine.execRemX d a b s
  | .remnX d a b => Sys2Proof.Machine.execRemnX d a b s
  | .clzX d a => Sys2Proof.Machine.execClzX d a s
  | .popcX d a => Sys2Proof.Machine.execPopcX d a s
  | .cselX d a b => Sys2Proof.Machine.execCselX d a b s
  | .addiX d a ii => Sys2Proof.Machine.execAddiX d a ii s
  | .andiX d a ii => Sys2Proof.Machine.execAndiX d a ii s
  | .oriX d a ii => Sys2Proof.Machine.execOriX d a ii s
  | .xoriX d a ii => Sys2Proof.Machine.execXoriX d a ii s
  | .slliX d a c => Sys2Proof.Machine.execSlliX d a c s
  | .srliX d a c => Sys2Proof.Machine.execSrliX d a c s
  | .sraiX d a c => Sys2Proof.Machine.execSraiX d a c s
  | .sltiX d a ii => Sys2Proof.Machine.execSltiX d a ii s
  | .liX d ii => Sys2Proof.Machine.execLiX d ii s
  | .lixX d ii => Sys2Proof.Machine.execLixX d ii s
  | .lds d a ss o => Sys2Proof.Machine.execLds d a ss o s
  | .sts d a ss o => Sys2Proof.Machine.execSts d a ss o s
  | .ldg d a ss o => Sys2Proof.Machine.execLdg d a ss o s
  | .stg d a ss o => Sys2Proof.Machine.execStg d a ss o s
  | .stdl d a b ss => Sys2Proof.Machine.execStdl d a b ss s
  | .qld q a o => Sys2Proof.Machine.execQld q a o s
  | .qldg q a o => Sys2Proof.Machine.execQldg q a o s
  | .qst q a o => Sys2Proof.Machine.execQst q a o s
  | .amo d a p f o ss => Sys2Proof.Machine.execAmo d a p f o ss s
  | .cas d a b w o ss => Sys2Proof.Machine.execCas d a b w o ss s
  | .redw d a p f o ss => Sys2Proof.Machine.execRedw d a p f o ss s
  | .fence k ss m => Sys2Proof.Machine.execFence k ss m s
  | .srset ss a f => Sys2Proof.Machine.execSrset ss a f s
  | .srget d ss f => Sys2Proof.Machine.execSrget d ss f s
  | .abfree a c => Sys2Proof.Machine.execAbfree a c s
  | .qpop d q => Sys2Proof.Machine.execQpop d q s
  | .qpush q a => Sys2Proof.Machine.execQpush q a s
  | .xmode m => Sys2Proof.Machine.execXmode m s
  | .csrr d c => Sys2Proof.Machine.execCsrr d c s
  | .csrw d a c => Sys2Proof.Machine.execCsrw d a c s
  | .csrs d a c => Sys2Proof.Machine.execCsrs d a c s
  | .csrc d a c => Sys2Proof.Machine.execCsrc d a c s
  | .trap c => Sys2Proof.Machine.execTrap c s
  | .utret t => Sys2Proof.Machine.execUtret t s
  | .sret => Sys2Proof.Machine.execSret s
  | .prio a g n => Sys2Proof.Machine.execPrio a g n s
  | .tspawn a => Sys2Proof.Machine.execTspawn a s
  | .fget d a => Sys2Proof.Machine.execFget d a s
  | .fput a b => Sys2Proof.Machine.execFput a b s
  | .cutpost a b => Sys2Proof.Machine.execCutpost a b s
  | .cutstop a => Sys2Proof.Machine.execCutstop a s
  | .cutget d a => Sys2Proof.Machine.execCutget d a s
  | .yield => Sys2Proof.Machine.execYield s
  | .tinv a b m => Sys2Proof.Machine.execTinv a b m s
  | .halt => Sys2Proof.Machine.execHalt s
  | .parampublish a => Sys2Proof.Machine.execParampublish a s
  | .br o c r f => Sys2Proof.Machine.execBr o c r f s
  | .jmp o f => Sys2Proof.Machine.execJmp o f s
  | .call o f => Sys2Proof.Machine.execCall o f s
  | .ret o => Sys2Proof.Machine.execRet o s
  | .loop o r l => Sys2Proof.Machine.execLoop o r l s
  | .brnone o f => Sys2Proof.Machine.execBrnone o f s
  | .bar o ss ii => Sys2Proof.Machine.execBar o ss ii s
  | .bara o ss ii => Sys2Proof.Machine.execBara o ss ii s
  | .barw o ss ii => Sys2Proof.Machine.execBarw o ss ii s
  | .barg o a c ss => Sys2Proof.Machine.execBarg o a c ss s
  | .waitv o a v m => Sys2Proof.Machine.execWaitv o a v m s
  | .abwait o c ii => Sys2Proof.Machine.execAbwait o c ii s
  | .endW o => Sys2Proof.Machine.execEndW o s
  | .waitc o c ii => Sys2Proof.Machine.execWaitc o c ii s
  | .hint n => Sys2Proof.Machine.execHint n s
  | .vshape tk x ss m t => Sys2Proof.Machine.execVshape tk x ss m t s
  | .vadd tk d a b v => Sys2Proof.Machine.execVadd tk d a b v s
  | .vsub tk d a b v => Sys2Proof.Machine.execVsub tk d a b v s
  | .vmul tk d a b v => Sys2Proof.Machine.execVmul tk d a b v s
  | .vfma tk d a b v => Sys2Proof.Machine.execVfma tk d a b v s
  | .vfms tk d a b v => Sys2Proof.Machine.execVfms tk d a b v s
  | .vmin tk d a b v => Sys2Proof.Machine.execVmin tk d a b v s
  | .vmax tk d a b v => Sys2Proof.Machine.execVmax tk d a b v s
  | .vabs tk d a v => Sys2Proof.Machine.execVabs tk d a v s
  | .vneg tk d a v => Sys2Proof.Machine.execVneg tk d a v s
  | .vdiv tk d a b v => Sys2Proof.Machine.execVdiv tk d a b v s
  | .vsqrt tk d a v => Sys2Proof.Machine.execVsqrt tk d a v s
  | .vrcp tk d a v => Sys2Proof.Machine.execVrcp tk d a v s
  | .vrsq tk d a v => Sys2Proof.Machine.execVrsq tk d a v s
  | .vexp2 tk d a v => Sys2Proof.Machine.execVexp2 tk d a v s
  | .vlog2 tk d a v => Sys2Proof.Machine.execVlog2 tk d a v s
  | .vand tk d a b v => Sys2Proof.Machine.execVand tk d a b v s
  | .vor tk d a b v => Sys2Proof.Machine.execVor tk d a b v s
  | .vxor tk d a b v => Sys2Proof.Machine.execVxor tk d a b v s
  | .vshl tk d a b v => Sys2Proof.Machine.execVshl tk d a b v s
  | .vshr tk d a b v => Sys2Proof.Machine.execVshr tk d a b v s
  | .vcmp tk c a b v => Sys2Proof.Machine.execVcmp tk c a b v s
  | .minv tk => Sys2Proof.Machine.execMinv tk s
  | .mpop tk => Sys2Proof.Machine.execMpop tk s
  | .mget tk d => Sys2Proof.Machine.execMget tk d s
  | .mset tk a => Sys2Proof.Machine.execMset tk a s
  | .vsel tk d a b v => Sys2Proof.Machine.execVsel tk d a b v s
  | .vrsum tk d a v => Sys2Proof.Machine.execVrsum tk d a v s
  | .vrmax tk d a v => Sys2Proof.Machine.execVrmax tk d a v s
  | .vrmin tk d a v => Sys2Proof.Machine.execVrmin tk d a v s
  | .vargmax tk d a v => Sys2Proof.Machine.execVargmax tk d a v s
  | .vscan tk d a v => Sys2Proof.Machine.execVscan tk d a v s
  | .vbcst tk d a v => Sys2Proof.Machine.execVbcst tk d a v s
  | .vmov tk d a v => Sys2Proof.Machine.execVmov tk d a v s
  | .vxtr tk d a b v => Sys2Proof.Machine.execVxtr tk d a b v s
  | .vins tk d a b v => Sys2Proof.Machine.execVins tk d a b v s
  | .vperm tk d a b v => Sys2Proof.Machine.execVperm tk d a b v s
  | .vslide tk d a b v => Sys2Proof.Machine.execVslide tk d a b v s
  | .vcvt tk d a t v => Sys2Proof.Machine.execVcvt tk d a t v s
  | .vqmx tk d a v => Sys2Proof.Machine.execVqmx tk d a v s
  | .vdqmx tk d a v => Sys2Proof.Machine.execVdqmx tk d a v s
  | .vpack tk d a b v => Sys2Proof.Machine.execVpack tk d a b v s
  | .vunpk tk d a h v => Sys2Proof.Machine.execVunpk tk d a h v s
  | .vqpop tk d q => Sys2Proof.Machine.execVqpop tk d q s
  | .vqpush tk q a => Sys2Proof.Machine.execVqpush tk q a s
  | .vaccr tk d c => Sys2Proof.Machine.execVaccr tk d c s
  | .vaccw tk a c => Sys2Proof.Machine.execVaccw tk a c s
  | .viota tk d a v => Sys2Proof.Machine.execViota tk d a v s
  | .mlease tk m => Sys2Proof.Machine.execMlease tk m s
  | .mfree tk m => Sys2Proof.Machine.execMfree tk m s
  | .mplane tk ss a => Sys2Proof.Machine.execMplane tk ss a s
  | .mswap tk f c a => Sys2Proof.Machine.execMswap tk f c a s
  | .mstep tk ss a c => Sys2Proof.Machine.execMstep tk ss a c s
  | .mcommit tk ss o => Sys2Proof.Machine.execMcommit tk ss o s
  | .mwaitb tk k => Sys2Proof.Machine.execMwaitb tk k s
  | .mdrain tk ss a c => Sys2Proof.Machine.execMdrain tk ss a c s
  | .mzero tk n c => Sys2Proof.Machine.execMzero tk n c s
  | .mstat tk d c => Sys2Proof.Machine.execMstat tk d c s
  | .copy tk ss a d g t c => Sys2Proof.Machine.execCopy tk ss a d g t c s
  | .gath tk ss m a t c => Sys2Proof.Machine.execGath tk ss m a t c s
  | .scat tk ss m a t c => Sys2Proof.Machine.execScat tk ss m a t c s
  | .halo tk ss a ii c => Sys2Proof.Machine.execHalo tk ss a ii c s
  | .glkick tk a b t c => Sys2Proof.Machine.execGlkick tk a b t c s
  | .gllink tk b l c => Sys2Proof.Machine.execGllink tk b l c s
  | .attn tk a t c => Sys2Proof.Machine.execAttn tk a t c s
  | .pimld tk a t c => Sys2Proof.Machine.execPimld tk a t c s
  | .pimrun tk a t c => Sys2Proof.Machine.execPimrun tk a t c s
  | .reduce tk a t c => Sys2Proof.Machine.execReduce tk a t c s
  | .sample tk a t c => Sys2Proof.Machine.execSample tk a t c s
  | .wnstep tk a t c => Sys2Proof.Machine.execWnstep tk a t c s
  | .hspawn tk a b d => Sys2Proof.Machine.execHspawn tk a b d s
  | .nadd d a b => Sys2Proof.Machine.execNadd d a b s
  | .naddi d a ii => Sys2Proof.Machine.execNaddi d a ii s
  | .nsub d a b => Sys2Proof.Machine.execNsub d a b s
  | .nand d a b => Sys2Proof.Machine.execNand d a b s
  | .nor d a b => Sys2Proof.Machine.execNor d a b s
  | .nshl d a b => Sys2Proof.Machine.execNshl d a b s
  | .nshr d a b => Sys2Proof.Machine.execNshr d a b s
  | .nli d h ii => Sys2Proof.Machine.execNli d h ii s
  | .nmul d a b => Sys2Proof.Machine.execNmul d a b s
  | .nbnz a f => Sys2Proof.Machine.execNbnz a f s
  | .njmp f => Sys2Proof.Machine.execNjmp f s
  | .nloop r a l => Sys2Proof.Machine.execNloop r a l s
  | .nact b a => Sys2Proof.Machine.execNact b a s
  | .npre b g => Sys2Proof.Machine.execNpre b g s
  | .nrdw b w a ii => Sys2Proof.Machine.execNrdw b w a ii s
  | .ndot q w g f ss o => Sys2Proof.Machine.execNdot q w g f ss o s
  | .ndotb q p a l f o e => Sys2Proof.Machine.execNdotb q p a l f o e s
  | .nwrq b a ss w c => Sys2Proof.Machine.execNwrq b a ss w c s
  | .nlda w o => Sys2Proof.Machine.execNlda w o s
  | .nsync => Sys2Proof.Machine.execNsync s
  | .ndone => Sys2Proof.Machine.execNdone s
  | .gnest p l ext c cx => Sys2Proof.Machine.execGnest p l ext c cx s
  | .gstrd p l ext ss ii sx => Sys2Proof.Machine.execGstrd p l ext ss ii sx s
  | .gbase p w ext => Sys2Proof.Machine.execGbase p w ext s
  | .gbaseAdd p w ii => Sys2Proof.Machine.execGbaseAdd p w ii s
  | .gbaseInd p w ext => Sys2Proof.Machine.execGbaseInd p w ext s
  | .gfmt p t ss d => Sys2Proof.Machine.execGfmt p t ss d s
  | .gwaitDrain => Sys2Proof.Machine.execGwaitDrain s
  | .gwaitGen ii ext => Sys2Proof.Machine.execGwaitGen ii ext s
  | .gpush p l => Sys2Proof.Machine.execGpush p l s
  | .gpostWord ext => Sys2Proof.Machine.execGpostWord ext s
  | .gpostTgu c => Sys2Proof.Machine.execGpostTgu c s
  | .glink ext => Sys2Proof.Machine.execGlink ext s
  | .glinkInd ext => Sys2Proof.Machine.execGlinkInd ext s
  | .gloop l c => Sys2Proof.Machine.execGloop l c s
  | .gflag ii ext => Sys2Proof.Machine.execGflag ii ext s
  | .gend => Sys2Proof.Machine.execGend s
  | .pload ch => Sys2Proof.Machine.execPload ch s
  | .pactb ch => Sys2Proof.Machine.execPactb ch s
  | .pstart ch => Sys2Proof.Machine.execPstart ch s
  | .pgrant ch => Sys2Proof.Machine.execPgrant ch s
  | .prevoke ch => Sys2Proof.Machine.execPrevoke ch s
  | .pstat ch => Sys2Proof.Machine.execPstat ch s
  | .gram => Sys2Proof.Machine.execGram s
  | .initW => Sys2Proof.Machine.execInitW s
  | .stepW => Sys2Proof.Machine.execStepW s
  | .steprW => Sys2Proof.Machine.execSteprW s
  | .launchWrite rec => Sys2Proof.Machine.execLaunchWrite rec s
  | .launchActivate g => Sys2Proof.Machine.execLaunchActivate g s
  | .replayStart g => Sys2Proof.Machine.execReplayStart g s
  | .replaySettle g n => Sys2Proof.Machine.execReplaySettle g n s
  | .tguDispatch pick => Sys2Proof.Machine.execTguDispatch pick s
  | .checkpoint slot => Sys2Proof.Machine.execCheckpoint slot s
  | .taskRestore task pick => Sys2Proof.Machine.execTaskRestore task pick s
  | .coreWakeComplete core => Sys2Proof.Machine.execCoreWakeComplete core s
  | .taskRetire slot => Sys2Proof.Machine.execTaskRetire slot s
  | .tguCounterSignal => Sys2Proof.Machine.execTguCounterSignal s
  | .engineQueueIssue slot queue => Sys2Proof.Machine.execEngineQueueIssue slot queue s
  | .waitConditionMet slot => Sys2Proof.Machine.execWaitConditionMet slot s
  | .waitvReread slot => Sys2Proof.Machine.execWaitvReread slot s
  | .barrierRelease key => Sys2Proof.Machine.execBarrierRelease key s
  | .helperEnd slot => Sys2Proof.Machine.execHelperEnd slot s
  | .userTrapDeliver slot => Sys2Proof.Machine.execUserTrapDeliver slot s
  | .watchdogExpire slot => Sys2Proof.Machine.execWatchdogExpire slot s
  | .pageWalk space va => Sys2Proof.Machine.execPageWalk space va s
  | .tlbEvict tier idx => Sys2Proof.Machine.execTlbEvict tier idx s
  | .tinvComplete => Sys2Proof.Machine.execTinvComplete s
  | .homeSliceAtomic slot id => Sys2Proof.Machine.execHomeSliceAtomic slot id s
  | .deliveredCopyOffer idx => Sys2Proof.Machine.execDeliveredCopyOffer idx s
  | .leaseGrant cluster idx => Sys2Proof.Machine.execLeaseGrant cluster idx s
  | .sectionRearbitrate cluster sec => Sys2Proof.Machine.execSectionRearbitrate cluster sec s
  | .recalibrationStart cluster sec => Sys2Proof.Machine.execRecalibrationStart cluster sec s
  | .recalibrationEnd cluster sec ok bad => Sys2Proof.Machine.execRecalibrationEnd cluster sec ok bad s
  | .matrixOpRetire slot id => Sys2Proof.Machine.execMatrixOpRetire slot id s
  | .transferOpRetire core id => Sys2Proof.Machine.execTransferOpRetire core id s
  | .ringClaim filler => Sys2Proof.Machine.execRingClaim filler s
  | .gleanerPushRetire ctx id => Sys2Proof.Machine.execGleanerPushRetire ctx id s
  | .cocfgWrite slot => Sys2Proof.Machine.execCocfgWrite slot s
  | .shapeCsrWrite slot => Sys2Proof.Machine.execShapeCsrWrite slot s
  | .attnComplete id parity => Sys2Proof.Machine.execAttnComplete id parity s
  | .attnAbsentRetry id => Sys2Proof.Machine.execAttnAbsentRetry id s
  | .attnAbsentTimeout id => Sys2Proof.Machine.execAttnAbsentTimeout id s
  | .sampleComplete => Sys2Proof.Machine.execSampleComplete s
  | .reduceComplete engine parity => Sys2Proof.Machine.execReduceComplete engine parity s
  | .pimldApply ch => Sys2Proof.Machine.execPimldApply ch s
  | .pimRunStart ch => Sys2Proof.Machine.execPimRunStart ch s
  | .pimRunComplete id => Sys2Proof.Machine.execPimRunComplete id s
  | .nbuDatapathLand nbu thread => Sys2Proof.Machine.execNbuDatapathLand nbu thread s
  | .mcsLatencyCut ch nbu banks => Sys2Proof.Machine.execMcsLatencyCut ch nbu banks s
  | .mcsBankRegrant ch nbu => Sys2Proof.Machine.execMcsBankRegrant ch nbu s
  | .mcsRefresh ch => Sys2Proof.Machine.execMcsRefresh ch s
  | .nbuRevokeTimeout nbu => Sys2Proof.Machine.execNbuRevokeTimeout nbu s
  | .nbuStallTimeout nbu => Sys2Proof.Machine.execNbuStallTimeout nbu s
  | .patrolScrub ch => Sys2Proof.Machine.execPatrolScrub ch s
  | .hostMemRead dec1 off len cached => Sys2Proof.Machine.execHostMemRead dec1 off len cached s
  | .hostMemWrite dec1 off data => Sys2Proof.Machine.execHostMemWrite dec1 off data s
  | .hostSnoop line => Sys2Proof.Machine.execHostSnoop line s
  | .bisnpResponse line data => Sys2Proof.Machine.execBisnpResponse line data s
  | .persistentRequest line core => Sys2Proof.Machine.execPersistentRequest line core s
  | .directorySilentDrop cluster key => Sys2Proof.Machine.execDirectorySilentDrop cluster key s
  | .discoveryStormHold slice => Sys2Proof.Machine.execDiscoveryStormHold slice s
  | .discoveryStormEnd => Sys2Proof.Machine.execDiscoveryStormEnd s
  | .dlvqWindowStart core => Sys2Proof.Machine.execDlvqWindowStart core s
  | .powerStateEnter => Sys2Proof.Machine.execPowerStateEnter s
  | .powerStateExit => Sys2Proof.Machine.execPowerStateExit s
  | .powerExitComplete => Sys2Proof.Machine.execPowerExitComplete s
  | .coreGate core => Sys2Proof.Machine.execCoreGate core s
  | .powerLimitWindow avg => Sys2Proof.Machine.execPowerLimitWindow avg s
  | .supplySag => Sys2Proof.Machine.execSupplySag s
  | .sagEnd => Sys2Proof.Machine.execSagEnd s
  | .supplyCritical => Sys2Proof.Machine.execSupplyCritical s
  | .clockRestart => Sys2Proof.Machine.execClockRestart s
  | .supplyRetentionLoss pmdHeld => Sys2Proof.Machine.execSupplyRetentionLoss pmdHeld s
  | .powerOnBoot flash => Sys2Proof.Machine.execPowerOnBoot flash s
  | .firmwareReady trained digest => Sys2Proof.Machine.execFirmwareReady trained digest s
  | .getVersion => Sys2Proof.Machine.execGetVersion s
  | .getCapabilities => Sys2Proof.Machine.execGetCapabilities s
  | .negotiateAlgorithms => Sys2Proof.Machine.execNegotiateAlgorithms s
  | .getDigests => Sys2Proof.Machine.execGetDigests s
  | .getCertificate => Sys2Proof.Machine.execGetCertificate s
  | .challenge nonce => Sys2Proof.Machine.execChallenge nonce s
  | .getMeasurements nonce => Sys2Proof.Machine.execGetMeasurements nonce s
  | .leaseProbe line => Sys2Proof.Machine.execLeaseProbe line s
  | .leaseExpire line agent => Sys2Proof.Machine.execLeaseExpire line agent s
  | .heartbeatPoll answered => Sys2Proof.Machine.execHeartbeatPoll answered s
  | .flitError => Sys2Proof.Machine.execFlitError s
  | .linkDown => Sys2Proof.Machine.execLinkDown s
  | .linkRetrained => Sys2Proof.Machine.execLinkRetrained s
  | .linkDownTimeout => Sys2Proof.Machine.execLinkDownTimeout s
  | .cxlCacheTimeout line => Sys2Proof.Machine.execCxlCacheTimeout line s
  | .hotReset => Sys2Proof.Machine.execHotReset s
  | .fwload readOk => Sys2Proof.Machine.execFwload readOk s
  | .mrextend readOk => Sys2Proof.Machine.execMrextend readOk s
  | .nopM => Sys2Proof.Machine.execNopM s
  | .mailboxCommandDone => Sys2Proof.Machine.execMailboxCommandDone s
  | .loadG => Sys2Proof.Machine.execLoadG s
  | .unloadG => Sys2Proof.Machine.execUnloadG s
  | .publishG => Sys2Proof.Machine.execPublishG s
  | .stripe => Sys2Proof.Machine.execStripe s
  | .unstripe => Sys2Proof.Machine.execUnstripe s
  | .restripe => Sys2Proof.Machine.execRestripe s
  | .requant => Sys2Proof.Machine.execRequant s
  | .tinvcmdWrite value => Sys2Proof.Machine.execTinvcmdWrite value s
  | .resumeA record => Sys2Proof.Machine.execResumeA record s
  | .requeueA record => Sys2Proof.Machine.execRequeueA record s
  | .abortA record => Sys2Proof.Machine.execAbortA record s
  | .fqheadWrite value => Sys2Proof.Machine.execFqheadWrite value s
  | .deadackWrite value => Sys2Proof.Machine.execDeadackWrite value s
  | .arrdisWrite cluster value => Sys2Proof.Machine.execArrdisWrite cluster value s
  | .savepoolWrite value => Sys2Proof.Machine.execSavepoolWrite value s
  | .registerWrite bar2 off len value => Sys2Proof.Machine.execRegisterWrite bar2 off len value s
  | .notAnInstruction reason => Sys2Proof.Machine.execNotAnInstruction reason s
  | .resultWriteBack slot => Sys2Proof.Machine.execResultWriteBack slot s
  | .accessPerformed slot id => Sys2Proof.Machine.execAccessPerformed slot id s

end Sys2Proof.Machine
end

