-- ==== Sys2Proof/Machine/Ahead.lean ====
section
/-! DEFINITION. Hit under miss (R104, R440): while the ASQ stands at a global access that waits for its walk, global reads among the
accesses that follow it in text are translated, and their reads of RC and UO pages performed early. The words themselves are
taken later, and what was read early is theirs then.
Readings and choices of the model: DEDUCED log entry 50. -/

namespace Sys2Proof.Machine

/-- The word at an address of the slot's text, where its translation is at hand and its line can be read. -/
def State.textAt (s : State) (k : Nat) (pc : Word) : Option W32 :=
  match s.xlSlot k pc.toNat 4 .fetch with
  | .hit t =>
    let ls := linesOf (t.pa pc.toNat) 4
    if ls.any (fun l => (s.lineCo l).hostMod) || s.linkWaits ls then none else some (BitVec.ofNat 32 (s.physLe (t.pa pc.toNat) 4))
  | _ => none

/-- A global load or store, as an event without its parts, from registers that are at hand. -/
def Slot.globalAcc (sl : Slot) (q : Seq) (w : W32) : Option Acc :=
  let p : Acc := { pc := q.pc, word := w, walk := q.walk }
  let free := fun (rs : List (BitVec 5)) => rs.all fun r => !sl.busyA r
  match decodeCore w with
  | .ok (.ldg d a z o) => if free [a, d] then some { p with kind := .load, va := (sl.ra a + simm o).toNat, len := szBytes z } else none
  | .ok (.qldg _ a o) => if free [a] then some { p with kind := .queueLoad, va := (sl.ra a + simm o).toNat, len := 256 } else none
  | .ok (.stg d a z o) => if free [a, d] then some { p with kind := .store, va := (sl.ra a + simm o).toNat, len := szBytes z } else none
  | .ok (.stdl d a b z) => if free [a, d, b] then some { p with kind := .store, va := (sl.ra a).toNat, len := szBytes z } else none
  | _ => none

/-- The global access j words after one at which the ASQ stands, if all words between are global accesses; ws are the registers that
the loads before it write, which its address may not rest on. -/
def State.aheadAcc (s : State) (k : Nat) : Nat → Seq → List (BitVec 5) → Option Acc
  | 0, q, ws => (s.textAt k q.pc).bind fun w => match decodeCore w with
    | .ok (.ldg _ a _ _) | .ok (.qldg _ a _) => if ws.contains a then none else (s.slot k).globalAcc q w
    | _ => none
  | j + 1, q, ws => (s.textAt k q.pc).bind fun w => match decodeCore w with
    | .ok (.ldg d _ _ _) => s.aheadAcc k j q.step (d :: ws)
    | .ok (.qldg _ _ _) | .ok (.stg _ _ _ _) | .ok (.stdl _ _ _ _) => s.aheadAcc k j q.step ws
    | _ => none

/-- Unit i of the read p is performed early (R440): nothing earlier in program order must be performed before it, and its word
could be performed now. -/
def readEarly (k : Nat) (p : Acc) (i : Nat) (s : State) : State :=
  match p.units[i]? with
  | none => s
  | some (o, n) =>
    let ps := cutParts p.parts o n
    let ls := partLines ps
    if p.isSO || ps.any (fun x => s.inView x.1 || (s.hostErr x.1 x.2.1).isSome) || ((s.slot k).earlyRead p i).isSome
      || (s.slot k).pend.any (·.before p) then s
    else if s.readWaits k ps then s
    else if !s.canAccess (coreOf k) ls then sendData ls s
    else match readParts ps s with
      | (some _, _) => s
      | (none, s) =>
        let e : Early := { acc := p, unit := i, bits := BitVec.ofNat 2048 (leNat (s.accBytes k p.va p.len ps)) }
        coReads (coreOf k) ls (s.modSlot k fun sl => { sl with early := e :: sl.early })

/-- The turn in which the slot looks at the word j places after its ASQ's, which waits for a walk: a miss of it is registered, else
unit i of its read is performed (R104, R440). -/
def lookAhead (k j i : Nat) (s : State) : State :=
  let sl := s.slot k
  let q := sl.asq
  let xl := fun (p : Acc) => s.xlAccess k (if p.isRead then .read else .write) (pageParts p.va p.len)
  match (s.textAt k q.pc).bind (sl.globalAcc q) with
  | none => s
  | some p0 =>
    match xl p0 with
    | .miss a =>
      if j = 0 ∨ !sl.canFetch .asq ∨ (sl.missOn sl.space (a / 4096)).isNone then s
      else match s.aheadAcc k j q [] with
        | none => s
        | some p =>
          if p.len = 0 ∨ (addrBad p.va (if p.kind = .queueLoad then 16 else 1)).isSome
            ∨ (!sl.esq.ended ∧ (sl.slipw.toNat : Int) < p.walk - sl.esq.walk) then s
          else match xl p with
            | .miss a => addMiss k a s
            | .bad _ => s
            | .ok parts _ _ => readEarly k { p with parts := parts } i s
    | _ => s

end Sys2Proof.Machine
end

