-- ==== Sys2Proof/Machine/Turn.lean ====
section
/-! DEFINITION. Whose turn it is, and what the turn of each agent comes to (log entry 3).
Readings and choices of the model: DESIGN CHOICE log entries 3, 9, 61; DEDUCED log entry 58. -/

namespace Sys2Proof.Machine

/-- The next turn: the head of the schedule, or the free choice. -/
def State.popTurn (s : State) : Turn × State :=
  match s.sched with
  | t :: ts => (t, { s with sched := ts })
  | [] => (Config.nextTurn s.choice, { s with choice := s.choice + 1 })

/-- An event or command may come as a turn of its own: all but words, and the taking of a word that is none; while the
logic-die clocks are stopped only what ends that (R500). -/
def State.eventTurn (s : State) (i : Instr) : Bool :=
  (encode i).isEmpty &&
  match i with
  | .notAnInstruction _ => false
  | .clockRestart | .supplyRetentionLoss _ | .hotReset => true
  | _ => !s.pkg.stopped

/-- What a turn comes to. -/
def resolve (t : Turn) (s : State) : Fetched :=
  match t with
  | .seq k p => if p = .esq then chooseExposed k (fetchSeq k p s) s else fetchSeq k p s
  | .issue k => fetchIssue k s
  | .event i => if s.eventTurn i then .run { s with sel := {} } i else hold s
  | .xfer c id act k =>
    if 16 ≤ c then .whole (.fault .noSuchUnit)
    else if s.coreRuns c then .whole (putOff s (.next (xTurn (.core c) id act k s))) else hold s
  | .mrow k id bad =>
    if 64 ≤ k then .whole (.fault .noSuchUnit)
    else if s.coreRuns (coreOf k) then .whole (.next (mrow k id bad s)) else hold s
  | .push n id act k =>
    if 256 ≤ n then .whole (.fault .noSuchUnit)
    else if s.pkg.stopped then hold s else .whole (putOff s (.next (xTurn (.ctx n) id act k s)))
  | .glean n => fetchGlean n s
  | .nbu n => fetchNbu n s
  | .mgmt => fetchMgmt s
  | .clk n => if s.pkg.stopped then hold s else .whole (.next (retryLate { s with clk := s.clk + n }))
  | .evict c l => if s.pkg.stopped ∨ 16 ≤ c then hold s else .whole (.next (coEvict c l s))
  | .flip col pos => if col < s.cap / 32 ∧ pos < 266 then
      .whole (.next { s with flips := mset [] s.flips col (flipPos (mget [] s.flips col) pos) }) else hold s
  | .mute c => if c < 16 ∧ !s.pkg.stopped then .whole (.next (s.modCore c fun v => { v with mute := true })) else hold s
  | .retry c l => if s.pkg.stopped then hold s else .whole (.next (retryLine c l s))
  | .mgmtIrq => if s.pkg.stopped then hold s else .whole (.next (modMgmt (fun m => { m with halted := false }) s))
  | .mgmtCsr k n v => if s.pkg.boot = 0 ∨ s.pkg.stopped then hold s else .whole (.next (mgmtCsrWrite k n v s))
  | .regRead b off n => if s.pkg.stopped then hold s else .whole (.next (readRegister b off n s))
  | .aspm b => if s.pkg.stopped then hold s else .whole (.next (modPkg (fun p => { p with l12 := b }) s))
  | .ahead k j i => if 64 ≤ k then .whole (.fault .noSuchUnit) else if s.coreRuns (coreOf k) then .whole (.next (lookAhead k j i s)) else hold s
  | .hostErr l => if s.pkg.stopped then hold s else .whole (.next (failHost l 2 s))

/-- The party that takes a word placed by withFetchWord. -/
def partyOf (w : W32) : Party :=
  if takesWord .asq w && wordTag w != 6 && !followsWord .asq w then .asq
  else if takesWord .esq w then .esq
  else .asq

/-- Address of the word that withFetchWord places, and the physical page behind it. -/
def placeVa : Nat := 0x1000
def placePa : Nat := pmdBase

/-- Slot 0 of core 0 runs a task whose text holds word w at placeVa, on a readable, writable and executable page that
its TLB holds; both sequencers stand at the word, and the next turn is that of the party that takes it (log entry 9). -/
def State.placeWord (s : State) (w : W32) : State :=
  let s := { s with mem := writeLe s.mem placePa 4 w.toNat, sched := [.seq 0 (partyOf w)],
                    pkg := { s.pkg with gated := s.pkg.gated &&& ~~~1 },
                    tlbs := mset [] s.tlbs (tierSlot 0)
                      [{ space := 0, base := placeVa, size := 4096, pte := BitVec.ofNat 64 (placePa + 0x41D) }] }
  let s := s.setInst 0 { st := .running, slots := [0] }
  s.modSlot 0 fun sl =>
    { sl with task := some 0, st := 1, space := 0,
              asq := { sl.asq with pc := BitVec.ofNat 64 placeVa, ended := false },
              esq := { sl.esq with pc := BitVec.ofNat 64 placeVa, ended := false } }

end Sys2Proof.Machine
end

