-- ==== Sys2Proof/Machine/Race.lean ====
section
/-! DEFINITION. What a turn comes to, and which of several causes that parties of one slot meet in one clk is reported (R408).
Readings and choices of the model: DEDUCED log entry 41. -/

namespace Sys2Proof.Machine

/-- The turn is taken, and the instruction it comes to is executed. -/
def takeTurn (t : Turn) (s : State) : Host.Outcome State Fault Refusal :=
  match resolve t s with
  | .whole o => o
  | .run s i => exec i s

/-- The slot stops with a fault. -/
def stopsSlot (k : Nat) (s : State) (o : Host.Outcome State Fault Refusal) : Bool :=
  match o with
  | .next t => (s.slot k).st != 5 && (t.slot k).st == 5
  | _ => false

/-- A cause of party p is reported before one of party q: the helper's comes first, then that of the lower walk index (R408). -/
def Slot.ranksBefore (sl : Slot) (p q : Party) : Bool :=
  q != .helper && (p == .helper || decide ((sl.seqOf p).walk < (sl.seqOf q).walk))

/-- Party q also stands at a word whose turn would stop the slot, and its cause comes first: its outcome replaces that of party p. -/
def firstCause (k : Nat) (s : State) (r : Party × Host.Outcome State Fault Refusal) (q : Party) :
    Party × Host.Outcome State Fault Refusal :=
  if (s.slot k).ranksBefore q r.1 && stopsSlot k s (takeTurn (.seq k q) s) then (q, takeTurn (.seq k q) s) else r

/-- An asynchronous cause of slot k has been recorded in this clk. -/
def State.asyncNow (s : State) (k : Nat) : Bool := s.fq.asyncs.any fun x => x.1 == whereOf k && x.2 == s.clk

/-- The turn of an agent; where it stops a slot with a fault, that of the party whose cause is reported (R408). Once an
asynchronous cause of the slot has been recorded, synchronous ones wait for another clk (R409). -/
def resolveTurn (t : Turn) (s : State) : Host.Outcome State Fault Refusal :=
  match t with
  | .seq k p =>
    let o := takeTurn t s
    if stopsSlot k s o then if s.asyncNow k then ok s else ([.asq, .esq, .helper].foldl (firstCause k s) (p, o)).2 else o
  | _ => takeTurn t s

end Sys2Proof.Machine
end

