-- ==== Sys2Proof/Machine/Step.lean ====
section
/-! DEFINITION. One step of the machine, and the placing of one word where the next step fetches it.
Readings and choices of the model: DESIGN CHOICE log entries 3, 9. -/

namespace Sys2Proof.Machine

/-- One step: the next turn is taken, and the instruction it comes to is executed. -/
def step (s : State) : Host.Outcome State Fault Refusal := resolveTurn s.popTurn.1 s.popTurn.2

/-- The machine with slot 0 of core 0 at work on a one-word text, which the next turn fetches (log entry 9). -/
def State.withFetchWord (s : State) (_nbits w : Nat) : State := s.placeWord (BitVec.ofNat 32 w)

end Sys2Proof.Machine
end

