-- ==== Sys2Proof/Laws/PerInstr.lean ====
section
/-! SUPPORT. Per-instruction statements: the decoder of an instruction's own text reads from its words the instruction
they were made from, with every field at every value that is well formed. -/

namespace Sys2Proof

theorem ext_hi {n m : Nat} (x : BitVec n) (y : BitVec m) (s l : Nat) (h : m ≤ s) :
    (x ++ y).extractLsb' s l = x.extractLsb' (s - m) l := by
  apply BitVec.eq_of_getLsbD_eq; intro i hi
  have h2 : ¬ (s + i < m) := by omega
  simp only [BitVec.getLsbD_extractLsb', BitVec.getLsbD_append, h2, if_false]
  rw [show s + i - m = s - m + i by omega]

theorem ext_lo {n m : Nat} (x : BitVec n) (y : BitVec m) (s l : Nat) (h : s + l ≤ m) :
    (x ++ y).extractLsb' s l = y.extractLsb' s l := by
  apply BitVec.eq_of_getLsbD_eq; intro i hi
  have h2 : s + i < m := by omega
  simp only [BitVec.getLsbD_extractLsb', BitVec.getLsbD_append, h2, if_true]

theorem ext_self {n : Nat} (x : BitVec n) : x.extractLsb' 0 n = x := by
  apply BitVec.eq_of_getLsbD_eq; intro i hi
  simp [hi]

theorem ext64_halves (e : Word) : ext64 (e.extractLsb' 0 32) (e.extractLsb' 32 32) = e := by
  apply BitVec.eq_of_getLsbD_eq; intro i hi
  simp only [ext64, BitVec.getLsbD_append, BitVec.getLsbD_extractLsb']
  by_cases h : i < 32
  · simp [h]
  · simp [h, show i - 32 < 32 by omega, show 32 + (i - 32) = i by omega]

/-- The words of a well-formed instruction, read by the decoder of its own text, give it back; an event has none. -/
def Laws.Encode.Statement (i : Instr) : Prop :=
  i.wf = true →
  match encodeCore i with
  | some w => decodeCore w = .ok i
  | none =>
    match encodeNbu i with
    | some w => decodeNbu w = .ok i
    | none => encodeGlean i = [] ∨ ∀ rest, decodeGlean (encodeGlean i ++ rest) = (.ok i, (encodeGlean i).length)

namespace Laws.Encode

set_option Elab.async false
set_option linter.unusedSimpArgs false

theorem addA (d : BitVec 5) (a : BitVec 5) (b : BitVec 5) : Statement (.addA d a b) := by
  intro h
  show decodeCore _ = _
  simp (disch := decide) only [decodeCore, decodeA, decodeAFunc, wordTag, ext_hi, ext_lo, ext_self, Nat.reduceSub,
    BitVec.extractLsb'_toNat, BitVec.ofNat_eq_ofNat, BitVec.toNat_ofNat, Nat.reducePow, Nat.reduceMod, Nat.reduceShiftRight,
    Nat.zero_shiftRight, Nat.zero_mod]

theorem subA (d : BitVec 5) (a : BitVec 5) (b : BitVec 5) : Statement (.subA d a b) := by
  intro h
  show decodeCore _ = _
  simp (disch := decide) only [decodeCore, decodeA, decodeAFunc, wordTag, ext_hi, ext_lo, ext_self, Nat.reduceSub,
    BitVec.extractLsb'_toNat, BitVec.ofNat_eq_ofNat, BitVec.toNat_ofNat, Nat.reducePow, Nat.reduceMod, Nat.reduceShiftRight,
    Nat.zero_shiftRight, Nat.zero_mod]

theorem andA (d : BitVec 5) (a : BitVec 5) (b : BitVec 5) : Statement (.andA d a b) := by
  intro h
  show decodeCore _ = _
  simp (disch := decide) only [decodeCore, decodeA, decodeAFunc, wordTag, ext_hi, ext_lo, ext_self, Nat.reduceSub,
    BitVec.extractLsb'_toNat, BitVec.ofNat_eq_ofNat, BitVec.toNat_ofNat, Nat.reducePow, Nat.reduceMod, Nat.reduceShiftRight,
    Nat.zero_shiftRight, Nat.zero_mod]

theorem orA (d : BitVec 5) (a : BitVec 5) (b : BitVec 5) : Statement (.orA d a b) := by
  intro h
  show decodeCore _ = _
  simp (disch := decide) only [decodeCore, decodeA, decodeAFunc, wordTag, ext_hi, ext_lo, ext_self, Nat.reduceSub,
    BitVec.extractLsb'_toNat, BitVec.ofNat_eq_ofNat, BitVec.toNat_ofNat, Nat.reducePow, Nat.reduceMod, Nat.reduceShiftRight,
    Nat.zero_shiftRight, Nat.zero_mod]

theorem xorA (d : BitVec 5) (a : BitVec 5) (b : BitVec 5) : Statement (.xorA d a b) := by
  intro h
  show decodeCore _ = _
  simp (disch := decide) only [decodeCore, decodeA, decodeAFunc, wordTag, ext_hi, ext_lo, ext_self, Nat.reduceSub,
    BitVec.extractLsb'_toNat, BitVec.ofNat_eq_ofNat, BitVec.toNat_ofNat, Nat.reducePow, Nat.reduceMod, Nat.reduceShiftRight,
    Nat.zero_shiftRight, Nat.zero_mod]

theorem sllA (d : BitVec 5) (a : BitVec 5) (b : BitVec 5) : Statement (.sllA d a b) := by
  intro h
  show decodeCore _ = _
  simp (disch := decide) only [decodeCore, decodeA, decodeAFunc, wordTag, ext_hi, ext_lo, ext_self, Nat.reduceSub,
    BitVec.extractLsb'_toNat, BitVec.ofNat_eq_ofNat, BitVec.toNat_ofNat, Nat.reducePow, Nat.reduceMod, Nat.reduceShiftRight,
    Nat.zero_shiftRight, Nat.zero_mod]

theorem srlA (d : BitVec 5) (a : BitVec 5) (b : BitVec 5) : Statement (.srlA d a b) := by
  intro h
  show decodeCore _ = _
  simp (disch := decide) only [decodeCore, decodeA, decodeAFunc, wordTag, ext_hi, ext_lo, ext_self, Nat.reduceSub,
    BitVec.extractLsb'_toNat, BitVec.ofNat_eq_ofNat, BitVec.toNat_ofNat, Nat.reducePow, Nat.reduceMod, Nat.reduceShiftRight,
    Nat.zero_shiftRight, Nat.zero_mod]

theorem sraA (d : BitVec 5) (a : BitVec 5) (b : BitVec 5) : Statement (.sraA d a b) := by
  intro h
  show decodeCore _ = _
  simp (disch := decide) only [decodeCore, decodeA, decodeAFunc, wordTag, ext_hi, ext_lo, ext_self, Nat.reduceSub,
    BitVec.extractLsb'_toNat, BitVec.ofNat_eq_ofNat, BitVec.toNat_ofNat, Nat.reducePow, Nat.reduceMod, Nat.reduceShiftRight,
    Nat.zero_shiftRight, Nat.zero_mod]

theorem sltA (d : BitVec 5) (a : BitVec 5) (b : BitVec 5) : Statement (.sltA d a b) := by
  intro h
  show decodeCore _ = _
  simp (disch := decide) only [decodeCore, decodeA, decodeAFunc, wordTag, ext_hi, ext_lo, ext_self, Nat.reduceSub,
    BitVec.extractLsb'_toNat, BitVec.ofNat_eq_ofNat, BitVec.toNat_ofNat, Nat.reducePow, Nat.reduceMod, Nat.reduceShiftRight,
    Nat.zero_shiftRight, Nat.zero_mod]

theorem sltnA (d : BitVec 5) (a : BitVec 5) (b : BitVec 5) : Statement (.sltnA d a b) := by
  intro h
  show decodeCore _ = _
  simp (disch := decide) only [decodeCore, decodeA, decodeAFunc, wordTag, ext_hi, ext_lo, ext_self, Nat.reduceSub,
    BitVec.extractLsb'_toNat, BitVec.ofNat_eq_ofNat, BitVec.toNat_ofNat, Nat.reducePow, Nat.reduceMod, Nat.reduceShiftRight,
    Nat.zero_shiftRight, Nat.zero_mod]

theorem minA (d : BitVec 5) (a : BitVec 5) (b : BitVec 5) : Statement (.minA d a b) := by
  intro h
  show decodeCore _ = _
  simp (disch := decide) only [decodeCore, decodeA, decodeAFunc, wordTag, ext_hi, ext_lo, ext_self, Nat.reduceSub,
    BitVec.extractLsb'_toNat, BitVec.ofNat_eq_ofNat, BitVec.toNat_ofNat, Nat.reducePow, Nat.reduceMod, Nat.reduceShiftRight,
    Nat.zero_shiftRight, Nat.zero_mod]

theorem maxA (d : BitVec 5) (a : BitVec 5) (b : BitVec 5) : Statement (.maxA d a b) := by
  intro h
  show decodeCore _ = _
  simp (disch := decide) only [decodeCore, decodeA, decodeAFunc, wordTag, ext_hi, ext_lo, ext_self, Nat.reduceSub,
    BitVec.extractLsb'_toNat, BitVec.ofNat_eq_ofNat, BitVec.toNat_ofNat, Nat.reducePow, Nat.reduceMod, Nat.reduceShiftRight,
    Nat.zero_shiftRight, Nat.zero_mod]

theorem minnA (d : BitVec 5) (a : BitVec 5) (b : BitVec 5) : Statement (.minnA d a b) := by
  intro h
  show decodeCore _ = _
  simp (disch := decide) only [decodeCore, decodeA, decodeAFunc, wordTag, ext_hi, ext_lo, ext_self, Nat.reduceSub,
    BitVec.extractLsb'_toNat, BitVec.ofNat_eq_ofNat, BitVec.toNat_ofNat, Nat.reducePow, Nat.reduceMod, Nat.reduceShiftRight,
    Nat.zero_shiftRight, Nat.zero_mod]

theorem maxnA (d : BitVec 5) (a : BitVec 5) (b : BitVec 5) : Statement (.maxnA d a b) := by
  intro h
  show decodeCore _ = _
  simp (disch := decide) only [decodeCore, decodeA, decodeAFunc, wordTag, ext_hi, ext_lo, ext_self, Nat.reduceSub,
    BitVec.extractLsb'_toNat, BitVec.ofNat_eq_ofNat, BitVec.toNat_ofNat, Nat.reducePow, Nat.reduceMod, Nat.reduceShiftRight,
    Nat.zero_shiftRight, Nat.zero_mod]

theorem mulA (d : BitVec 5) (a : BitVec 5) (b : BitVec 5) : Statement (.mulA d a b) := by
  intro h
  show decodeCore _ = _
  simp (disch := decide) only [decodeCore, decodeA, decodeAFunc, wordTag, ext_hi, ext_lo, ext_self, Nat.reduceSub,
    BitVec.extractLsb'_toNat, BitVec.ofNat_eq_ofNat, BitVec.toNat_ofNat, Nat.reducePow, Nat.reduceMod, Nat.reduceShiftRight,
    Nat.zero_shiftRight, Nat.zero_mod]

theorem mulhA (d : BitVec 5) (a : BitVec 5) (b : BitVec 5) : Statement (.mulhA d a b) := by
  intro h
  show decodeCore _ = _
  simp (disch := decide) only [decodeCore, decodeA, decodeAFunc, wordTag, ext_hi, ext_lo, ext_self, Nat.reduceSub,
    BitVec.extractLsb'_toNat, BitVec.ofNat_eq_ofNat, BitVec.toNat_ofNat, Nat.reducePow, Nat.reduceMod, Nat.reduceShiftRight,
    Nat.zero_shiftRight, Nat.zero_mod]

theorem mulhnA (d : BitVec 5) (a : BitVec 5) (b : BitVec 5) : Statement (.mulhnA d a b) := by
  intro h
  show decodeCore _ = _
  simp (disch := decide) only [decodeCore, decodeA, decodeAFunc, wordTag, ext_hi, ext_lo, ext_self, Nat.reduceSub,
    BitVec.extractLsb'_toNat, BitVec.ofNat_eq_ofNat, BitVec.toNat_ofNat, Nat.reducePow, Nat.reduceMod, Nat.reduceShiftRight,
    Nat.zero_shiftRight, Nat.zero_mod]

theorem divA (d : BitVec 5) (a : BitVec 5) (b : BitVec 5) : Statement (.divA d a b) := by
  intro h
  show decodeCore _ = _
  simp (disch := decide) only [decodeCore, decodeA, decodeAFunc, wordTag, ext_hi, ext_lo, ext_self, Nat.reduceSub,
    BitVec.extractLsb'_toNat, BitVec.ofNat_eq_ofNat, BitVec.toNat_ofNat, Nat.reducePow, Nat.reduceMod, Nat.reduceShiftRight,
    Nat.zero_shiftRight, Nat.zero_mod]

theorem divnA (d : BitVec 5) (a : BitVec 5) (b : BitVec 5) : Statement (.divnA d a b) := by
  intro h
  show decodeCore _ = _
  simp (disch := decide) only [decodeCore, decodeA, decodeAFunc, wordTag, ext_hi, ext_lo, ext_self, Nat.reduceSub,
    BitVec.extractLsb'_toNat, BitVec.ofNat_eq_ofNat, BitVec.toNat_ofNat, Nat.reducePow, Nat.reduceMod, Nat.reduceShiftRight,
    Nat.zero_shiftRight, Nat.zero_mod]

theorem remA (d : BitVec 5) (a : BitVec 5) (b : BitVec 5) : Statement (.remA d a b) := by
  intro h
  show decodeCore _ = _
  simp (disch := decide) only [decodeCore, decodeA, decodeAFunc, wordTag, ext_hi, ext_lo, ext_self, Nat.reduceSub,
    BitVec.extractLsb'_toNat, BitVec.ofNat_eq_ofNat, BitVec.toNat_ofNat, Nat.reducePow, Nat.reduceMod, Nat.reduceShiftRight,
    Nat.zero_shiftRight, Nat.zero_mod]

theorem remnA (d : BitVec 5) (a : BitVec 5) (b : BitVec 5) : Statement (.remnA d a b) := by
  intro h
  show decodeCore _ = _
  simp (disch := decide) only [decodeCore, decodeA, decodeAFunc, wordTag, ext_hi, ext_lo, ext_self, Nat.reduceSub,
    BitVec.extractLsb'_toNat, BitVec.ofNat_eq_ofNat, BitVec.toNat_ofNat, Nat.reducePow, Nat.reduceMod, Nat.reduceShiftRight,
    Nat.zero_shiftRight, Nat.zero_mod]

theorem clzA (d : BitVec 5) (a : BitVec 5) : Statement (.clzA d a) := by
  intro h
  show decodeCore _ = _
  simp (disch := decide) only [decodeCore, decodeA, decodeAFunc, wordTag, ext_hi, ext_lo, ext_self, Nat.reduceSub,
    BitVec.extractLsb'_toNat, BitVec.ofNat_eq_ofNat, BitVec.toNat_ofNat, Nat.reducePow, Nat.reduceMod, Nat.reduceShiftRight,
    Nat.zero_shiftRight, Nat.zero_mod]

theorem popcA (d : BitVec 5) (a : BitVec 5) : Statement (.popcA d a) := by
  intro h
  show decodeCore _ = _
  simp (disch := decide) only [decodeCore, decodeA, decodeAFunc, wordTag, ext_hi, ext_lo, ext_self, Nat.reduceSub,
    BitVec.extractLsb'_toNat, BitVec.ofNat_eq_ofNat, BitVec.toNat_ofNat, Nat.reducePow, Nat.reduceMod, Nat.reduceShiftRight,
    Nat.zero_shiftRight, Nat.zero_mod]

theorem cselA (d : BitVec 5) (a : BitVec 5) (b : BitVec 5) : Statement (.cselA d a b) := by
  intro h
  show decodeCore _ = _
  simp (disch := decide) only [decodeCore, decodeA, decodeAFunc, wordTag, ext_hi, ext_lo, ext_self, Nat.reduceSub,
    BitVec.extractLsb'_toNat, BitVec.ofNat_eq_ofNat, BitVec.toNat_ofNat, Nat.reducePow, Nat.reduceMod, Nat.reduceShiftRight,
    Nat.zero_shiftRight, Nat.zero_mod]

theorem addiA (d : BitVec 5) (a : BitVec 5) (i : BitVec 13) : Statement (.addiA d a i) := by
  intro h
  show decodeCore _ = _
  simp (disch := decide) only [decodeCore, decodeA, wordTag, ext_hi, ext_lo, ext_self, Nat.reduceSub,
    BitVec.extractLsb'_toNat, BitVec.ofNat_eq_ofNat, BitVec.toNat_ofNat, Nat.reducePow, Nat.reduceMod, Nat.reduceShiftRight,
    Nat.zero_shiftRight, Nat.zero_mod]

theorem andiA (d : BitVec 5) (a : BitVec 5) (i : BitVec 13) : Statement (.andiA d a i) := by
  intro h
  show decodeCore _ = _
  simp (disch := decide) only [decodeCore, decodeA, wordTag, ext_hi, ext_lo, ext_self, Nat.reduceSub,
    BitVec.extractLsb'_toNat, BitVec.ofNat_eq_ofNat, BitVec.toNat_ofNat, Nat.reducePow, Nat.reduceMod, Nat.reduceShiftRight,
    Nat.zero_shiftRight, Nat.zero_mod]

theorem oriA (d : BitVec 5) (a : BitVec 5) (i : BitVec 13) : Statement (.oriA d a i) := by
  intro h
  show decodeCore _ = _
  simp (disch := decide) only [decodeCore, decodeA, wordTag, ext_hi, ext_lo, ext_self, Nat.reduceSub,
    BitVec.extractLsb'_toNat, BitVec.ofNat_eq_ofNat, BitVec.toNat_ofNat, Nat.reducePow, Nat.reduceMod, Nat.reduceShiftRight,
    Nat.zero_shiftRight, Nat.zero_mod]

theorem xoriA (d : BitVec 5) (a : BitVec 5) (i : BitVec 13) : Statement (.xoriA d a i) := by
  intro h
  show decodeCore _ = _
  simp (disch := decide) only [decodeCore, decodeA, wordTag, ext_hi, ext_lo, ext_self, Nat.reduceSub,
    BitVec.extractLsb'_toNat, BitVec.ofNat_eq_ofNat, BitVec.toNat_ofNat, Nat.reducePow, Nat.reduceMod, Nat.reduceShiftRight,
    Nat.zero_shiftRight, Nat.zero_mod]

theorem slliA (d : BitVec 5) (a : BitVec 5) (c : BitVec 6) : Statement (.slliA d a c) := by
  intro h
  show decodeCore _ = _
  simp (disch := decide) only [decodeCore, decodeA, wordTag, ext_hi, ext_lo, ext_self, Nat.reduceSub,
    BitVec.extractLsb'_toNat, BitVec.ofNat_eq_ofNat, BitVec.toNat_ofNat, Nat.reducePow, Nat.reduceMod, Nat.reduceShiftRight,
    Nat.zero_shiftRight, Nat.zero_mod]

theorem srliA (d : BitVec 5) (a : BitVec 5) (c : BitVec 6) : Statement (.srliA d a c) := by
  intro h
  show decodeCore _ = _
  simp (disch := decide) only [decodeCore, decodeA, wordTag, ext_hi, ext_lo, ext_self, Nat.reduceSub,
    BitVec.extractLsb'_toNat, BitVec.ofNat_eq_ofNat, BitVec.toNat_ofNat, Nat.reducePow, Nat.reduceMod, Nat.reduceShiftRight,
    Nat.zero_shiftRight, Nat.zero_mod]

theorem sraiA (d : BitVec 5) (a : BitVec 5) (c : BitVec 6) : Statement (.sraiA d a c) := by
  intro h
  show decodeCore _ = _
  simp (disch := decide) only [decodeCore, decodeA, wordTag, ext_hi, ext_lo, ext_self, Nat.reduceSub,
    BitVec.extractLsb'_toNat, BitVec.ofNat_eq_ofNat, BitVec.toNat_ofNat, Nat.reducePow, Nat.reduceMod, Nat.reduceShiftRight,
    Nat.zero_shiftRight, Nat.zero_mod]

theorem sltiA (d : BitVec 5) (a : BitVec 5) (i : BitVec 13) : Statement (.sltiA d a i) := by
  intro h
  show decodeCore _ = _
  simp (disch := decide) only [decodeCore, decodeA, wordTag, ext_hi, ext_lo, ext_self, Nat.reduceSub,
    BitVec.extractLsb'_toNat, BitVec.ofNat_eq_ofNat, BitVec.toNat_ofNat, Nat.reducePow, Nat.reduceMod, Nat.reduceShiftRight,
    Nat.zero_shiftRight, Nat.zero_mod]

theorem liA (d : BitVec 5) (i : BitVec 18) : Statement (.liA d i) := by
  intro h
  show decodeCore _ = _
  simp (disch := decide) only [decodeCore, decodeA, wordTag, ext_hi, ext_lo, ext_self, Nat.reduceSub,
    BitVec.extractLsb'_toNat, BitVec.ofNat_eq_ofNat, BitVec.toNat_ofNat, Nat.reducePow, Nat.reduceMod, Nat.reduceShiftRight,
    Nat.zero_shiftRight, Nat.zero_mod]

theorem lixA (d : BitVec 5) (i : BitVec 18) : Statement (.lixA d i) := by
  intro h
  show decodeCore _ = _
  simp (disch := decide) only [decodeCore, decodeA, wordTag, ext_hi, ext_lo, ext_self, Nat.reduceSub,
    BitVec.extractLsb'_toNat, BitVec.ofNat_eq_ofNat, BitVec.toNat_ofNat, Nat.reducePow, Nat.reduceMod, Nat.reduceShiftRight,
    Nat.zero_shiftRight, Nat.zero_mod]

theorem addX (d : BitVec 5) (a : BitVec 5) (b : BitVec 5) : Statement (.addX d a b) := by
  intro h
  show decodeCore _ = _
  simp (disch := decide) only [decodeCore, decodeX, decodeXFunc, wordTag, ext_hi, ext_lo, ext_self, Nat.reduceSub,
    BitVec.extractLsb'_toNat, BitVec.ofNat_eq_ofNat, BitVec.toNat_ofNat, Nat.reducePow, Nat.reduceMod, Nat.reduceShiftRight,
    Nat.zero_shiftRight, Nat.zero_mod]

theorem subX (d : BitVec 5) (a : BitVec 5) (b : BitVec 5) : Statement (.subX d a b) := by
  intro h
  show decodeCore _ = _
  simp (disch := decide) only [decodeCore, decodeX, decodeXFunc, wordTag, ext_hi, ext_lo, ext_self, Nat.reduceSub,
    BitVec.extractLsb'_toNat, BitVec.ofNat_eq_ofNat, BitVec.toNat_ofNat, Nat.reducePow, Nat.reduceMod, Nat.reduceShiftRight,
    Nat.zero_shiftRight, Nat.zero_mod]

theorem andX (d : BitVec 5) (a : BitVec 5) (b : BitVec 5) : Statement (.andX d a b) := by
  intro h
  show decodeCore _ = _
  simp (disch := decide) only [decodeCore, decodeX, decodeXFunc, wordTag, ext_hi, ext_lo, ext_self, Nat.reduceSub,
    BitVec.extractLsb'_toNat, BitVec.ofNat_eq_ofNat, BitVec.toNat_ofNat, Nat.reducePow, Nat.reduceMod, Nat.reduceShiftRight,
    Nat.zero_shiftRight, Nat.zero_mod]

theorem orX (d : BitVec 5) (a : BitVec 5) (b : BitVec 5) : Statement (.orX d a b) := by
  intro h
  show decodeCore _ = _
  simp (disch := decide) only [decodeCore, decodeX, decodeXFunc, wordTag, ext_hi, ext_lo, ext_self, Nat.reduceSub,
    BitVec.extractLsb'_toNat, BitVec.ofNat_eq_ofNat, BitVec.toNat_ofNat, Nat.reducePow, Nat.reduceMod, Nat.reduceShiftRight,
    Nat.zero_shiftRight, Nat.zero_mod]

theorem xorX (d : BitVec 5) (a : BitVec 5) (b : BitVec 5) : Statement (.xorX d a b) := by
  intro h
  show decodeCore _ = _
  simp (disch := decide) only [decodeCore, decodeX, decodeXFunc, wordTag, ext_hi, ext_lo, ext_self, Nat.reduceSub,
    BitVec.extractLsb'_toNat, BitVec.ofNat_eq_ofNat, BitVec.toNat_ofNat, Nat.reducePow, Nat.reduceMod, Nat.reduceShiftRight,
    Nat.zero_shiftRight, Nat.zero_mod]

theorem sllX (d : BitVec 5) (a : BitVec 5) (b : BitVec 5) : Statement (.sllX d a b) := by
  intro h
  show decodeCore _ = _
  simp (disch := decide) only [decodeCore, decodeX, decodeXFunc, wordTag, ext_hi, ext_lo, ext_self, Nat.reduceSub,
    BitVec.extractLsb'_toNat, BitVec.ofNat_eq_ofNat, BitVec.toNat_ofNat, Nat.reducePow, Nat.reduceMod, Nat.reduceShiftRight,
    Nat.zero_shiftRight, Nat.zero_mod]

theorem srlX (d : BitVec 5) (a : BitVec 5) (b : BitVec 5) : Statement (.srlX d a b) := by
  intro h
  show decodeCore _ = _
  simp (disch := decide) only [decodeCore, decodeX, decodeXFunc, wordTag, ext_hi, ext_lo, ext_self, Nat.reduceSub,
    BitVec.extractLsb'_toNat, BitVec.ofNat_eq_ofNat, BitVec.toNat_ofNat, Nat.reducePow, Nat.reduceMod, Nat.reduceShiftRight,
    Nat.zero_shiftRight, Nat.zero_mod]

theorem sraX (d : BitVec 5) (a : BitVec 5) (b : BitVec 5) : Statement (.sraX d a b) := by
  intro h
  show decodeCore _ = _
  simp (disch := decide) only [decodeCore, decodeX, decodeXFunc, wordTag, ext_hi, ext_lo, ext_self, Nat.reduceSub,
    BitVec.extractLsb'_toNat, BitVec.ofNat_eq_ofNat, BitVec.toNat_ofNat, Nat.reducePow, Nat.reduceMod, Nat.reduceShiftRight,
    Nat.zero_shiftRight, Nat.zero_mod]

theorem sltX (d : BitVec 5) (a : BitVec 5) (b : BitVec 5) : Statement (.sltX d a b) := by
  intro h
  show decodeCore _ = _
  simp (disch := decide) only [decodeCore, decodeX, decodeXFunc, wordTag, ext_hi, ext_lo, ext_self, Nat.reduceSub,
    BitVec.extractLsb'_toNat, BitVec.ofNat_eq_ofNat, BitVec.toNat_ofNat, Nat.reducePow, Nat.reduceMod, Nat.reduceShiftRight,
    Nat.zero_shiftRight, Nat.zero_mod]

theorem sltnX (d : BitVec 5) (a : BitVec 5) (b : BitVec 5) : Statement (.sltnX d a b) := by
  intro h
  show decodeCore _ = _
  simp (disch := decide) only [decodeCore, decodeX, decodeXFunc, wordTag, ext_hi, ext_lo, ext_self, Nat.reduceSub,
    BitVec.extractLsb'_toNat, BitVec.ofNat_eq_ofNat, BitVec.toNat_ofNat, Nat.reducePow, Nat.reduceMod, Nat.reduceShiftRight,
    Nat.zero_shiftRight, Nat.zero_mod]

theorem minX (d : BitVec 5) (a : BitVec 5) (b : BitVec 5) : Statement (.minX d a b) := by
  intro h
  show decodeCore _ = _
  simp (disch := decide) only [decodeCore, decodeX, decodeXFunc, wordTag, ext_hi, ext_lo, ext_self, Nat.reduceSub,
    BitVec.extractLsb'_toNat, BitVec.ofNat_eq_ofNat, BitVec.toNat_ofNat, Nat.reducePow, Nat.reduceMod, Nat.reduceShiftRight,
    Nat.zero_shiftRight, Nat.zero_mod]

theorem maxX (d : BitVec 5) (a : BitVec 5) (b : BitVec 5) : Statement (.maxX d a b) := by
  intro h
  show decodeCore _ = _
  simp (disch := decide) only [decodeCore, decodeX, decodeXFunc, wordTag, ext_hi, ext_lo, ext_self, Nat.reduceSub,
    BitVec.extractLsb'_toNat, BitVec.ofNat_eq_ofNat, BitVec.toNat_ofNat, Nat.reducePow, Nat.reduceMod, Nat.reduceShiftRight,
    Nat.zero_shiftRight, Nat.zero_mod]

theorem minnX (d : BitVec 5) (a : BitVec 5) (b : BitVec 5) : Statement (.minnX d a b) := by
  intro h
  show decodeCore _ = _
  simp (disch := decide) only [decodeCore, decodeX, decodeXFunc, wordTag, ext_hi, ext_lo, ext_self, Nat.reduceSub,
    BitVec.extractLsb'_toNat, BitVec.ofNat_eq_ofNat, BitVec.toNat_ofNat, Nat.reducePow, Nat.reduceMod, Nat.reduceShiftRight,
    Nat.zero_shiftRight, Nat.zero_mod]

theorem maxnX (d : BitVec 5) (a : BitVec 5) (b : BitVec 5) : Statement (.maxnX d a b) := by
  intro h
  show decodeCore _ = _
  simp (disch := decide) only [decodeCore, decodeX, decodeXFunc, wordTag, ext_hi, ext_lo, ext_self, Nat.reduceSub,
    BitVec.extractLsb'_toNat, BitVec.ofNat_eq_ofNat, BitVec.toNat_ofNat, Nat.reducePow, Nat.reduceMod, Nat.reduceShiftRight,
    Nat.zero_shiftRight, Nat.zero_mod]

theorem mulX (d : BitVec 5) (a : BitVec 5) (b : BitVec 5) : Statement (.mulX d a b) := by
  intro h
  show decodeCore _ = _
  simp (disch := decide) only [decodeCore, decodeX, decodeXFunc, wordTag, ext_hi, ext_lo, ext_self, Nat.reduceSub,
    BitVec.extractLsb'_toNat, BitVec.ofNat_eq_ofNat, BitVec.toNat_ofNat, Nat.reducePow, Nat.reduceMod, Nat.reduceShiftRight,
    Nat.zero_shiftRight, Nat.zero_mod]

theorem mulhX (d : BitVec 5) (a : BitVec 5) (b : BitVec 5) : Statement (.mulhX d a b) := by
  intro h
  show decodeCore _ = _
  simp (disch := decide) only [decodeCore, decodeX, decodeXFunc, wordTag, ext_hi, ext_lo, ext_self, Nat.reduceSub,
    BitVec.extractLsb'_toNat, BitVec.ofNat_eq_ofNat, BitVec.toNat_ofNat, Nat.reducePow, Nat.reduceMod, Nat.reduceShiftRight,
    Nat.zero_shiftRight, Nat.zero_mod]

theorem mulhnX (d : BitVec 5) (a : BitVec 5) (b : BitVec 5) : Statement (.mulhnX d a b) := by
  intro h
  show decodeCore _ = _
  simp (disch := decide) only [decodeCore, decodeX, decodeXFunc, wordTag, ext_hi, ext_lo, ext_self, Nat.reduceSub,
    BitVec.extractLsb'_toNat, BitVec.ofNat_eq_ofNat, BitVec.toNat_ofNat, Nat.reducePow, Nat.reduceMod, Nat.reduceShiftRight,
    Nat.zero_shiftRight, Nat.zero_mod]

theorem divX (d : BitVec 5) (a : BitVec 5) (b : BitVec 5) : Statement (.divX d a b) := by
  intro h
  show decodeCore _ = _
  simp (disch := decide) only [decodeCore, decodeX, decodeXFunc, wordTag, ext_hi, ext_lo, ext_self, Nat.reduceSub,
    BitVec.extractLsb'_toNat, BitVec.ofNat_eq_ofNat, BitVec.toNat_ofNat, Nat.reducePow, Nat.reduceMod, Nat.reduceShiftRight,
    Nat.zero_shiftRight, Nat.zero_mod]

theorem divnX (d : BitVec 5) (a : BitVec 5) (b : BitVec 5) : Statement (.divnX d a b) := by
  intro h
  show decodeCore _ = _
  simp (disch := decide) only [decodeCore, decodeX, decodeXFunc, wordTag, ext_hi, ext_lo, ext_self, Nat.reduceSub,
    BitVec.extractLsb'_toNat, BitVec.ofNat_eq_ofNat, BitVec.toNat_ofNat, Nat.reducePow, Nat.reduceMod, Nat.reduceShiftRight,
    Nat.zero_shiftRight, Nat.zero_mod]

theorem remX (d : BitVec 5) (a : BitVec 5) (b : BitVec 5) : Statement (.remX d a b) := by
  intro h
  show decodeCore _ = _
  simp (disch := decide) only [decodeCore, decodeX, decodeXFunc, wordTag, ext_hi, ext_lo, ext_self, Nat.reduceSub,
    BitVec.extractLsb'_toNat, BitVec.ofNat_eq_ofNat, BitVec.toNat_ofNat, Nat.reducePow, Nat.reduceMod, Nat.reduceShiftRight,
    Nat.zero_shiftRight, Nat.zero_mod]

theorem remnX (d : BitVec 5) (a : BitVec 5) (b : BitVec 5) : Statement (.remnX d a b) := by
  intro h
  show decodeCore _ = _
  simp (disch := decide) only [decodeCore, decodeX, decodeXFunc, wordTag, ext_hi, ext_lo, ext_self, Nat.reduceSub,
    BitVec.extractLsb'_toNat, BitVec.ofNat_eq_ofNat, BitVec.toNat_ofNat, Nat.reducePow, Nat.reduceMod, Nat.reduceShiftRight,
    Nat.zero_shiftRight, Nat.zero_mod]

theorem clzX (d : BitVec 5) (a : BitVec 5) : Statement (.clzX d a) := by
  intro h
  show decodeCore _ = _
  simp (disch := decide) only [decodeCore, decodeX, decodeXFunc, wordTag, ext_hi, ext_lo, ext_self, Nat.reduceSub,
    BitVec.extractLsb'_toNat, BitVec.ofNat_eq_ofNat, BitVec.toNat_ofNat, Nat.reducePow, Nat.reduceMod, Nat.reduceShiftRight,
    Nat.zero_shiftRight, Nat.zero_mod]

theorem popcX (d : BitVec 5) (a : BitVec 5) : Statement (.popcX d a) := by
  intro h
  show decodeCore _ = _
  simp (disch := decide) only [decodeCore, decodeX, decodeXFunc, wordTag, ext_hi, ext_lo, ext_self, Nat.reduceSub,
    BitVec.extractLsb'_toNat, BitVec.ofNat_eq_ofNat, BitVec.toNat_ofNat, Nat.reducePow, Nat.reduceMod, Nat.reduceShiftRight,
    Nat.zero_shiftRight, Nat.zero_mod]

theorem cselX (d : BitVec 5) (a : BitVec 5) (b : BitVec 5) : Statement (.cselX d a b) := by
  intro h
  show decodeCore _ = _
  simp (disch := decide) only [decodeCore, decodeX, decodeXFunc, wordTag, ext_hi, ext_lo, ext_self, Nat.reduceSub,
    BitVec.extractLsb'_toNat, BitVec.ofNat_eq_ofNat, BitVec.toNat_ofNat, Nat.reducePow, Nat.reduceMod, Nat.reduceShiftRight,
    Nat.zero_shiftRight, Nat.zero_mod]

theorem addiX (d : BitVec 5) (a : BitVec 5) (i : BitVec 13) : Statement (.addiX d a i) := by
  intro h
  show decodeCore _ = _
  simp (disch := decide) only [decodeCore, decodeX, wordTag, ext_hi, ext_lo, ext_self, Nat.reduceSub,
    BitVec.extractLsb'_toNat, BitVec.ofNat_eq_ofNat, BitVec.toNat_ofNat, Nat.reducePow, Nat.reduceMod, Nat.reduceShiftRight,
    Nat.zero_shiftRight, Nat.zero_mod]

theorem andiX (d : BitVec 5) (a : BitVec 5) (i : BitVec 13) : Statement (.andiX d a i) := by
  intro h
  show decodeCore _ = _
  simp (disch := decide) only [decodeCore, decodeX, wordTag, ext_hi, ext_lo, ext_self, Nat.reduceSub,
    BitVec.extractLsb'_toNat, BitVec.ofNat_eq_ofNat, BitVec.toNat_ofNat, Nat.reducePow, Nat.reduceMod, Nat.reduceShiftRight,
    Nat.zero_shiftRight, Nat.zero_mod]

theorem oriX (d : BitVec 5) (a : BitVec 5) (i : BitVec 13) : Statement (.oriX d a i) := by
  intro h
  show decodeCore _ = _
  simp (disch := decide) only [decodeCore, decodeX, wordTag, ext_hi, ext_lo, ext_self, Nat.reduceSub,
    BitVec.extractLsb'_toNat, BitVec.ofNat_eq_ofNat, BitVec.toNat_ofNat, Nat.reducePow, Nat.reduceMod, Nat.reduceShiftRight,
    Nat.zero_shiftRight, Nat.zero_mod]

theorem xoriX (d : BitVec 5) (a : BitVec 5) (i : BitVec 13) : Statement (.xoriX d a i) := by
  intro h
  show decodeCore _ = _
  simp (disch := decide) only [decodeCore, decodeX, wordTag, ext_hi, ext_lo, ext_self, Nat.reduceSub,
    BitVec.extractLsb'_toNat, BitVec.ofNat_eq_ofNat, BitVec.toNat_ofNat, Nat.reducePow, Nat.reduceMod, Nat.reduceShiftRight,
    Nat.zero_shiftRight, Nat.zero_mod]

theorem slliX (d : BitVec 5) (a : BitVec 5) (c : BitVec 6) : Statement (.slliX d a c) := by
  intro h
  show decodeCore _ = _
  simp (disch := decide) only [decodeCore, decodeX, wordTag, ext_hi, ext_lo, ext_self, Nat.reduceSub,
    BitVec.extractLsb'_toNat, BitVec.ofNat_eq_ofNat, BitVec.toNat_ofNat, Nat.reducePow, Nat.reduceMod, Nat.reduceShiftRight,
    Nat.zero_shiftRight, Nat.zero_mod]

theorem srliX (d : BitVec 5) (a : BitVec 5) (c : BitVec 6) : Statement (.srliX d a c) := by
  intro h
  show decodeCore _ = _
  simp (disch := decide) only [decodeCore, decodeX, wordTag, ext_hi, ext_lo, ext_self, Nat.reduceSub,
    BitVec.extractLsb'_toNat, BitVec.ofNat_eq_ofNat, BitVec.toNat_ofNat, Nat.reducePow, Nat.reduceMod, Nat.reduceShiftRight,
    Nat.zero_shiftRight, Nat.zero_mod]

theorem sraiX (d : BitVec 5) (a : BitVec 5) (c : BitVec 6) : Statement (.sraiX d a c) := by
  intro h
  show decodeCore _ = _
  simp (disch := decide) only [decodeCore, decodeX, wordTag, ext_hi, ext_lo, ext_self, Nat.reduceSub,
    BitVec.extractLsb'_toNat, BitVec.ofNat_eq_ofNat, BitVec.toNat_ofNat, Nat.reducePow, Nat.reduceMod, Nat.reduceShiftRight,
    Nat.zero_shiftRight, Nat.zero_mod]

theorem sltiX (d : BitVec 5) (a : BitVec 5) (i : BitVec 13) : Statement (.sltiX d a i) := by
  intro h
  show decodeCore _ = _
  simp (disch := decide) only [decodeCore, decodeX, wordTag, ext_hi, ext_lo, ext_self, Nat.reduceSub,
    BitVec.extractLsb'_toNat, BitVec.ofNat_eq_ofNat, BitVec.toNat_ofNat, Nat.reducePow, Nat.reduceMod, Nat.reduceShiftRight,
    Nat.zero_shiftRight, Nat.zero_mod]

theorem liX (d : BitVec 5) (i : BitVec 18) : Statement (.liX d i) := by
  intro h
  show decodeCore _ = _
  simp (disch := decide) only [decodeCore, decodeX, wordTag, ext_hi, ext_lo, ext_self, Nat.reduceSub,
    BitVec.extractLsb'_toNat, BitVec.ofNat_eq_ofNat, BitVec.toNat_ofNat, Nat.reducePow, Nat.reduceMod, Nat.reduceShiftRight,
    Nat.zero_shiftRight, Nat.zero_mod]

theorem lixX (d : BitVec 5) (i : BitVec 18) : Statement (.lixX d i) := by
  intro h
  show decodeCore _ = _
  simp (disch := decide) only [decodeCore, decodeX, wordTag, ext_hi, ext_lo, ext_self, Nat.reduceSub,
    BitVec.extractLsb'_toNat, BitVec.ofNat_eq_ofNat, BitVec.toNat_ofNat, Nat.reducePow, Nat.reduceMod, Nat.reduceShiftRight,
    Nat.zero_shiftRight, Nat.zero_mod]

theorem lds (d : BitVec 5) (a : BitVec 5) (s : BitVec 3) (o : BitVec 10) : Statement (.lds d a s o) := by
  intro h
  show decodeCore _ = _
  simp (disch := decide) only [decodeCore, decodeA, wordTag, ext_hi, ext_lo, ext_self, Nat.reduceSub,
    BitVec.extractLsb'_toNat, BitVec.ofNat_eq_ofNat, BitVec.toNat_ofNat, Nat.reducePow, Nat.reduceMod, Nat.reduceShiftRight,
    Nat.zero_shiftRight, Nat.zero_mod]

theorem sts (d : BitVec 5) (a : BitVec 5) (s : BitVec 3) (o : BitVec 10) : Statement (.sts d a s o) := by
  intro h
  show decodeCore _ = _
  simp (disch := decide) only [decodeCore, decodeA, wordTag, ext_hi, ext_lo, ext_self, Nat.reduceSub,
    BitVec.extractLsb'_toNat, BitVec.ofNat_eq_ofNat, BitVec.toNat_ofNat, Nat.reducePow, Nat.reduceMod, Nat.reduceShiftRight,
    Nat.zero_shiftRight, Nat.zero_mod]

theorem ldg (d : BitVec 5) (a : BitVec 5) (s : BitVec 3) (o : BitVec 10) : Statement (.ldg d a s o) := by
  intro h
  show decodeCore _ = _
  simp (disch := decide) only [decodeCore, decodeA, wordTag, ext_hi, ext_lo, ext_self, Nat.reduceSub,
    BitVec.extractLsb'_toNat, BitVec.ofNat_eq_ofNat, BitVec.toNat_ofNat, Nat.reducePow, Nat.reduceMod, Nat.reduceShiftRight,
    Nat.zero_shiftRight, Nat.zero_mod]

theorem stg (d : BitVec 5) (a : BitVec 5) (s : BitVec 3) (o : BitVec 10) : Statement (.stg d a s o) := by
  intro h
  show decodeCore _ = _
  simp (disch := decide) only [decodeCore, decodeA, wordTag, ext_hi, ext_lo, ext_self, Nat.reduceSub,
    BitVec.extractLsb'_toNat, BitVec.ofNat_eq_ofNat, BitVec.toNat_ofNat, Nat.reducePow, Nat.reduceMod, Nat.reduceShiftRight,
    Nat.zero_shiftRight, Nat.zero_mod]

theorem stdl (d : BitVec 5) (a : BitVec 5) (b : BitVec 5) (s : BitVec 3) : Statement (.stdl d a b s) := by
  intro h
  show decodeCore _ = _
  simp (disch := decide) only [decodeCore, decodeA, wordTag, ext_hi, ext_lo, ext_self, Nat.reduceSub,
    BitVec.extractLsb'_toNat, BitVec.ofNat_eq_ofNat, BitVec.toNat_ofNat, Nat.reducePow, Nat.reduceMod, Nat.reduceShiftRight,
    Nat.zero_shiftRight, Nat.zero_mod]

theorem qld (q : BitVec 5) (a : BitVec 5) (o : BitVec 13) : Statement (.qld q a o) := by
  intro h
  show decodeCore _ = _
  simp (disch := decide) only [decodeCore, decodeA, wordTag, ext_hi, ext_lo, ext_self, Nat.reduceSub,
    BitVec.extractLsb'_toNat, BitVec.ofNat_eq_ofNat, BitVec.toNat_ofNat, Nat.reducePow, Nat.reduceMod, Nat.reduceShiftRight,
    Nat.zero_shiftRight, Nat.zero_mod]

theorem qldg (q : BitVec 5) (a : BitVec 5) (o : BitVec 13) : Statement (.qldg q a o) := by
  intro h
  show decodeCore _ = _
  simp (disch := decide) only [decodeCore, decodeA, wordTag, ext_hi, ext_lo, ext_self, Nat.reduceSub,
    BitVec.extractLsb'_toNat, BitVec.ofNat_eq_ofNat, BitVec.toNat_ofNat, Nat.reducePow, Nat.reduceMod, Nat.reduceShiftRight,
    Nat.zero_shiftRight, Nat.zero_mod]

theorem qst (q : BitVec 5) (a : BitVec 5) (o : BitVec 13) : Statement (.qst q a o) := by
  intro h
  show decodeCore _ = _
  simp (disch := decide) only [decodeCore, decodeA, wordTag, ext_hi, ext_lo, ext_self, Nat.reduceSub,
    BitVec.extractLsb'_toNat, BitVec.ofNat_eq_ofNat, BitVec.toNat_ofNat, Nat.reducePow, Nat.reduceMod, Nat.reduceShiftRight,
    Nat.zero_shiftRight, Nat.zero_mod]

theorem amo (d : BitVec 5) (a : BitVec 5) (p : BitVec 4) (f : BitVec 2) (o : BitVec 2) (s : BitVec 3) : Statement (.amo d a p f o s) := by
  intro h
  show decodeCore _ = _
  simp (disch := decide) only [decodeCore, decodeA, wordTag, ext_hi, ext_lo, ext_self, Nat.reduceSub,
    BitVec.extractLsb'_toNat, BitVec.ofNat_eq_ofNat, BitVec.toNat_ofNat, Nat.reducePow, Nat.reduceMod, Nat.reduceShiftRight,
    Nat.zero_shiftRight, Nat.zero_mod]

theorem cas (d : BitVec 5) (a : BitVec 5) (b : BitVec 5) (w : BitVec 1) (o : BitVec 2) (s : BitVec 3) : Statement (.cas d a b w o s) := by
  intro h
  show decodeCore _ = _
  simp (disch := decide) only [decodeCore, decodeA, wordTag, ext_hi, ext_lo, ext_self, Nat.reduceSub,
    BitVec.extractLsb'_toNat, BitVec.ofNat_eq_ofNat, BitVec.toNat_ofNat, Nat.reducePow, Nat.reduceMod, Nat.reduceShiftRight,
    Nat.zero_shiftRight, Nat.zero_mod]

theorem redw (d : BitVec 5) (a : BitVec 5) (p : BitVec 4) (f : BitVec 2) (o : BitVec 2) (s : BitVec 3) : Statement (.redw d a p f o s) := by
  intro h
  show decodeCore _ = _
  simp (disch := decide) only [decodeCore, decodeA, wordTag, ext_hi, ext_lo, ext_self, Nat.reduceSub,
    BitVec.extractLsb'_toNat, BitVec.ofNat_eq_ofNat, BitVec.toNat_ofNat, Nat.reducePow, Nat.reduceMod, Nat.reduceShiftRight,
    Nat.zero_shiftRight, Nat.zero_mod]

theorem fence (k : BitVec 2) (s : BitVec 3) (m : BitVec 3) : Statement (.fence k s m) := by
  intro h
  show decodeCore _ = _
  simp (disch := decide) only [decodeCore, decodeA, wordTag, ext_hi, ext_lo, ext_self, Nat.reduceSub,
    BitVec.extractLsb'_toNat, BitVec.ofNat_eq_ofNat, BitVec.toNat_ofNat, Nat.reducePow, Nat.reduceMod, Nat.reduceShiftRight,
    Nat.zero_shiftRight, Nat.zero_mod]

theorem srset (s : BitVec 5) (a : BitVec 5) (f : BitVec 6) : Statement (.srset s a f) := by
  intro h
  show decodeCore _ = _
  simp (disch := decide) only [decodeCore, decodeA, wordTag, ext_hi, ext_lo, ext_self, Nat.reduceSub,
    BitVec.extractLsb'_toNat, BitVec.ofNat_eq_ofNat, BitVec.toNat_ofNat, Nat.reducePow, Nat.reduceMod, Nat.reduceShiftRight,
    Nat.zero_shiftRight, Nat.zero_mod]

theorem srget (d : BitVec 5) (s : BitVec 5) (f : BitVec 6) : Statement (.srget d s f) := by
  intro h
  show decodeCore _ = _
  simp (disch := decide) only [decodeCore, decodeA, wordTag, ext_hi, ext_lo, ext_self, Nat.reduceSub,
    BitVec.extractLsb'_toNat, BitVec.ofNat_eq_ofNat, BitVec.toNat_ofNat, Nat.reducePow, Nat.reduceMod, Nat.reduceShiftRight,
    Nat.zero_shiftRight, Nat.zero_mod]

theorem abfree (a : BitVec 5) (c : BitVec 6) : Statement (.abfree a c) := by
  intro h
  show decodeCore _ = _
  simp (disch := decide) only [decodeCore, decodeA, wordTag, ext_hi, ext_lo, ext_self, Nat.reduceSub,
    BitVec.extractLsb'_toNat, BitVec.ofNat_eq_ofNat, BitVec.toNat_ofNat, Nat.reducePow, Nat.reduceMod, Nat.reduceShiftRight,
    Nat.zero_shiftRight, Nat.zero_mod]

theorem qpop (d : BitVec 5) (q : BitVec 5) : Statement (.qpop d q) := by
  intro h
  show decodeCore _ = _
  simp (disch := decide) only [decodeCore, decodeX, wordTag, ext_hi, ext_lo, ext_self, Nat.reduceSub,
    BitVec.extractLsb'_toNat, BitVec.ofNat_eq_ofNat, BitVec.toNat_ofNat, Nat.reducePow, Nat.reduceMod, Nat.reduceShiftRight,
    Nat.zero_shiftRight, Nat.zero_mod]

theorem qpush (q : BitVec 5) (a : BitVec 5) : Statement (.qpush q a) := by
  intro h
  show decodeCore _ = _
  simp (disch := decide) only [decodeCore, decodeX, wordTag, ext_hi, ext_lo, ext_self, Nat.reduceSub,
    BitVec.extractLsb'_toNat, BitVec.ofNat_eq_ofNat, BitVec.toNat_ofNat, Nat.reducePow, Nat.reduceMod, Nat.reduceShiftRight,
    Nat.zero_shiftRight, Nat.zero_mod]

theorem xmode (m : BitVec 1) : Statement (.xmode m) := by
  intro h
  show decodeCore _ = _
  simp (disch := decide) only [decodeCore, decodeX, wordTag, ext_hi, ext_lo, ext_self, Nat.reduceSub,
    BitVec.extractLsb'_toNat, BitVec.ofNat_eq_ofNat, BitVec.toNat_ofNat, Nat.reducePow, Nat.reduceMod, Nat.reduceShiftRight,
    Nat.zero_shiftRight, Nat.zero_mod]

theorem csrr (d : BitVec 5) (c : BitVec 12) : Statement (.csrr d c) := by
  intro h
  show decodeCore _ = _
  simp (disch := decide) only [decodeCore, decodeY, wordTag, ext_hi, ext_lo, ext_self, Nat.reduceSub,
    BitVec.extractLsb'_toNat, BitVec.ofNat_eq_ofNat, BitVec.toNat_ofNat, Nat.reducePow, Nat.reduceMod, Nat.reduceShiftRight,
    Nat.zero_shiftRight, Nat.zero_mod]

theorem csrw (d : BitVec 5) (a : BitVec 5) (c : BitVec 12) : Statement (.csrw d a c) := by
  intro h
  show decodeCore _ = _
  simp (disch := decide) only [decodeCore, decodeY, wordTag, ext_hi, ext_lo, ext_self, Nat.reduceSub,
    BitVec.extractLsb'_toNat, BitVec.ofNat_eq_ofNat, BitVec.toNat_ofNat, Nat.reducePow, Nat.reduceMod, Nat.reduceShiftRight,
    Nat.zero_shiftRight, Nat.zero_mod]

theorem csrs (d : BitVec 5) (a : BitVec 5) (c : BitVec 12) : Statement (.csrs d a c) := by
  intro h
  show decodeCore _ = _
  simp (disch := decide) only [decodeCore, decodeY, wordTag, ext_hi, ext_lo, ext_self, Nat.reduceSub,
    BitVec.extractLsb'_toNat, BitVec.ofNat_eq_ofNat, BitVec.toNat_ofNat, Nat.reducePow, Nat.reduceMod, Nat.reduceShiftRight,
    Nat.zero_shiftRight, Nat.zero_mod]

theorem csrc (d : BitVec 5) (a : BitVec 5) (c : BitVec 12) : Statement (.csrc d a c) := by
  intro h
  show decodeCore _ = _
  simp (disch := decide) only [decodeCore, decodeY, wordTag, ext_hi, ext_lo, ext_self, Nat.reduceSub,
    BitVec.extractLsb'_toNat, BitVec.ofNat_eq_ofNat, BitVec.toNat_ofNat, Nat.reducePow, Nat.reduceMod, Nat.reduceShiftRight,
    Nat.zero_shiftRight, Nat.zero_mod]

theorem trap (c : BitVec 13) : Statement (.trap c) := by
  intro h
  show decodeCore _ = _
  simp (disch := decide) only [decodeCore, decodeY, wordTag, ext_hi, ext_lo, ext_self, Nat.reduceSub,
    BitVec.extractLsb'_toNat, BitVec.ofNat_eq_ofNat, BitVec.toNat_ofNat, Nat.reducePow, Nat.reduceMod, Nat.reduceShiftRight,
    Nat.zero_shiftRight, Nat.zero_mod]

theorem utret (t : BitVec 1) : Statement (.utret t) := by
  intro h
  show decodeCore _ = _
  simp (disch := decide) only [decodeCore, decodeY, wordTag, ext_hi, ext_lo, ext_self, Nat.reduceSub,
    BitVec.extractLsb'_toNat, BitVec.ofNat_eq_ofNat, BitVec.toNat_ofNat, Nat.reducePow, Nat.reduceMod, Nat.reduceShiftRight,
    Nat.zero_shiftRight, Nat.zero_mod]

theorem sret : Statement .sret := by
  intro h
  show decodeCore _ = _
  simp (disch := decide) only [decodeCore, decodeY, wordTag, ext_hi, ext_lo, ext_self, Nat.reduceSub,
    BitVec.extractLsb'_toNat, BitVec.ofNat_eq_ofNat, BitVec.toNat_ofNat, Nat.reducePow, Nat.reduceMod, Nat.reduceShiftRight,
    Nat.zero_shiftRight, Nat.zero_mod]

theorem prio (a : BitVec 5) (g : BitVec 1) (n : BitVec 2) : Statement (.prio a g n) := by
  intro h
  show decodeCore _ = _
  simp (disch := decide) only [decodeCore, decodeY, wordTag, ext_hi, ext_lo, ext_self, Nat.reduceSub,
    BitVec.extractLsb'_toNat, BitVec.ofNat_eq_ofNat, BitVec.toNat_ofNat, Nat.reducePow, Nat.reduceMod, Nat.reduceShiftRight,
    Nat.zero_shiftRight, Nat.zero_mod]

theorem tspawn (a : BitVec 5) : Statement (.tspawn a) := by
  intro h
  show decodeCore _ = _
  simp (disch := decide) only [decodeCore, decodeY, wordTag, ext_hi, ext_lo, ext_self, Nat.reduceSub,
    BitVec.extractLsb'_toNat, BitVec.ofNat_eq_ofNat, BitVec.toNat_ofNat, Nat.reducePow, Nat.reduceMod, Nat.reduceShiftRight,
    Nat.zero_shiftRight, Nat.zero_mod]

theorem fget (d : BitVec 5) (a : BitVec 5) : Statement (.fget d a) := by
  intro h
  show decodeCore _ = _
  simp (disch := decide) only [decodeCore, decodeY, wordTag, ext_hi, ext_lo, ext_self, Nat.reduceSub,
    BitVec.extractLsb'_toNat, BitVec.ofNat_eq_ofNat, BitVec.toNat_ofNat, Nat.reducePow, Nat.reduceMod, Nat.reduceShiftRight,
    Nat.zero_shiftRight, Nat.zero_mod]

theorem fput (a : BitVec 5) (b : BitVec 5) : Statement (.fput a b) := by
  intro h
  show decodeCore _ = _
  simp (disch := decide) only [decodeCore, decodeY, wordTag, ext_hi, ext_lo, ext_self, Nat.reduceSub,
    BitVec.extractLsb'_toNat, BitVec.ofNat_eq_ofNat, BitVec.toNat_ofNat, Nat.reducePow, Nat.reduceMod, Nat.reduceShiftRight,
    Nat.zero_shiftRight, Nat.zero_mod]

theorem cutpost (a : BitVec 5) (b : BitVec 5) : Statement (.cutpost a b) := by
  intro h
  show decodeCore _ = _
  simp (disch := decide) only [decodeCore, decodeY, wordTag, ext_hi, ext_lo, ext_self, Nat.reduceSub,
    BitVec.extractLsb'_toNat, BitVec.ofNat_eq_ofNat, BitVec.toNat_ofNat, Nat.reducePow, Nat.reduceMod, Nat.reduceShiftRight,
    Nat.zero_shiftRight, Nat.zero_mod]

theorem cutstop (a : BitVec 5) : Statement (.cutstop a) := by
  intro h
  show decodeCore _ = _
  simp (disch := decide) only [decodeCore, decodeY, wordTag, ext_hi, ext_lo, ext_self, Nat.reduceSub,
    BitVec.extractLsb'_toNat, BitVec.ofNat_eq_ofNat, BitVec.toNat_ofNat, Nat.reducePow, Nat.reduceMod, Nat.reduceShiftRight,
    Nat.zero_shiftRight, Nat.zero_mod]

theorem cutget (d : BitVec 5) (a : BitVec 5) : Statement (.cutget d a) := by
  intro h
  show decodeCore _ = _
  simp (disch := decide) only [decodeCore, decodeY, wordTag, ext_hi, ext_lo, ext_self, Nat.reduceSub,
    BitVec.extractLsb'_toNat, BitVec.ofNat_eq_ofNat, BitVec.toNat_ofNat, Nat.reducePow, Nat.reduceMod, Nat.reduceShiftRight,
    Nat.zero_shiftRight, Nat.zero_mod]

theorem yield : Statement .yield := by
  intro h
  show decodeCore _ = _
  simp (disch := decide) only [decodeCore, decodeY, wordTag, ext_hi, ext_lo, ext_self, Nat.reduceSub,
    BitVec.extractLsb'_toNat, BitVec.ofNat_eq_ofNat, BitVec.toNat_ofNat, Nat.reducePow, Nat.reduceMod, Nat.reduceShiftRight,
    Nat.zero_shiftRight, Nat.zero_mod]

theorem tinv (a : BitVec 5) (b : BitVec 5) (m : BitVec 2) : Statement (.tinv a b m) := by
  intro h
  show decodeCore _ = _
  simp (disch := decide) only [decodeCore, decodeY, wordTag, ext_hi, ext_lo, ext_self, Nat.reduceSub,
    BitVec.extractLsb'_toNat, BitVec.ofNat_eq_ofNat, BitVec.toNat_ofNat, Nat.reducePow, Nat.reduceMod, Nat.reduceShiftRight,
    Nat.zero_shiftRight, Nat.zero_mod]

theorem halt : Statement .halt := by
  intro h
  show decodeCore _ = _
  simp (disch := decide) only [decodeCore, decodeY, wordTag, ext_hi, ext_lo, ext_self, Nat.reduceSub,
    BitVec.extractLsb'_toNat, BitVec.ofNat_eq_ofNat, BitVec.toNat_ofNat, Nat.reducePow, Nat.reduceMod, Nat.reduceShiftRight,
    Nat.zero_shiftRight, Nat.zero_mod]

theorem parampublish (a : BitVec 5) : Statement (.parampublish a) := by
  intro h
  show decodeCore _ = _
  simp (disch := decide) only [decodeCore, decodeY, wordTag, ext_hi, ext_lo, ext_self, Nat.reduceSub,
    BitVec.extractLsb'_toNat, BitVec.ofNat_eq_ofNat, BitVec.toNat_ofNat, Nat.reducePow, Nat.reduceMod, Nat.reduceShiftRight,
    Nat.zero_shiftRight, Nat.zero_mod]

theorem br (o : BitVec 2) (c : BitVec 3) (r : BitVec 5) (f : BitVec 14) : Statement (.br o c r f) := by
  intro h
  show decodeCore _ = _
  simp (disch := decide) only [decodeCore, decodeC, wordTag, ext_hi, ext_lo, ext_self, Nat.reduceSub,
    BitVec.extractLsb'_toNat, BitVec.ofNat_eq_ofNat, BitVec.toNat_ofNat, Nat.reducePow, Nat.reduceMod, Nat.reduceShiftRight,
    Nat.zero_shiftRight, Nat.zero_mod]
  exact if_pos (of_decide_eq_true h)

theorem jmp (o : BitVec 2) (f : BitVec 22) : Statement (.jmp o f) := by
  intro h
  show decodeCore _ = _
  simp (disch := decide) only [decodeCore, decodeC, wordTag, ext_hi, ext_lo, ext_self, Nat.reduceSub,
    BitVec.extractLsb'_toNat, BitVec.ofNat_eq_ofNat, BitVec.toNat_ofNat, Nat.reducePow, Nat.reduceMod, Nat.reduceShiftRight,
    Nat.zero_shiftRight, Nat.zero_mod]

theorem call (o : BitVec 2) (f : BitVec 22) : Statement (.call o f) := by
  intro h
  show decodeCore _ = _
  simp (disch := decide) only [decodeCore, decodeC, wordTag, ext_hi, ext_lo, ext_self, Nat.reduceSub,
    BitVec.extractLsb'_toNat, BitVec.ofNat_eq_ofNat, BitVec.toNat_ofNat, Nat.reducePow, Nat.reduceMod, Nat.reduceShiftRight,
    Nat.zero_shiftRight, Nat.zero_mod]

theorem ret (o : BitVec 2) : Statement (.ret o) := by
  intro h
  show decodeCore _ = _
  simp (disch := decide) only [decodeCore, decodeC, wordTag, ext_hi, ext_lo, ext_self, Nat.reduceSub,
    BitVec.extractLsb'_toNat, BitVec.ofNat_eq_ofNat, BitVec.toNat_ofNat, Nat.reducePow, Nat.reduceMod, Nat.reduceShiftRight,
    Nat.zero_shiftRight, Nat.zero_mod]

theorem loop (o : BitVec 2) (r : BitVec 5) (l : BitVec 17) : Statement (.loop o r l) := by
  intro h
  show decodeCore _ = _
  simp (disch := decide) only [decodeCore, decodeC, wordTag, ext_hi, ext_lo, ext_self, Nat.reduceSub,
    BitVec.extractLsb'_toNat, BitVec.ofNat_eq_ofNat, BitVec.toNat_ofNat, Nat.reducePow, Nat.reduceMod, Nat.reduceShiftRight,
    Nat.zero_shiftRight, Nat.zero_mod]

theorem brnone (o : BitVec 2) (f : BitVec 22) : Statement (.brnone o f) := by
  intro h
  show decodeCore _ = _
  simp (disch := decide) only [decodeCore, decodeC, wordTag, ext_hi, ext_lo, ext_self, Nat.reduceSub,
    BitVec.extractLsb'_toNat, BitVec.ofNat_eq_ofNat, BitVec.toNat_ofNat, Nat.reducePow, Nat.reduceMod, Nat.reduceShiftRight,
    Nat.zero_shiftRight, Nat.zero_mod]
  exact if_pos ((by decide : ∀ o : BitVec 2, (o == 1 || o == 3) = true → o.extractLsb' 0 1 = 1#1) o h)

theorem bar (o : BitVec 2) (s : BitVec 2) (i : BitVec 5) : Statement (.bar o s i) := by
  intro h
  show decodeCore _ = _
  simp (disch := decide) only [decodeCore, decodeC, wordTag, ext_hi, ext_lo, ext_self, Nat.reduceSub,
    BitVec.extractLsb'_toNat, BitVec.ofNat_eq_ofNat, BitVec.toNat_ofNat, Nat.reducePow, Nat.reduceMod, Nat.reduceShiftRight,
    Nat.zero_shiftRight, Nat.zero_mod]

theorem bara (o : BitVec 2) (s : BitVec 2) (i : BitVec 5) : Statement (.bara o s i) := by
  intro h
  show decodeCore _ = _
  simp (disch := decide) only [decodeCore, decodeC, wordTag, ext_hi, ext_lo, ext_self, Nat.reduceSub,
    BitVec.extractLsb'_toNat, BitVec.ofNat_eq_ofNat, BitVec.toNat_ofNat, Nat.reducePow, Nat.reduceMod, Nat.reduceShiftRight,
    Nat.zero_shiftRight, Nat.zero_mod]

theorem barw (o : BitVec 2) (s : BitVec 2) (i : BitVec 5) : Statement (.barw o s i) := by
  intro h
  show decodeCore _ = _
  simp (disch := decide) only [decodeCore, decodeC, wordTag, ext_hi, ext_lo, ext_self, Nat.reduceSub,
    BitVec.extractLsb'_toNat, BitVec.ofNat_eq_ofNat, BitVec.toNat_ofNat, Nat.reducePow, Nat.reduceMod, Nat.reduceShiftRight,
    Nat.zero_shiftRight, Nat.zero_mod]

theorem barg (o : BitVec 2) (a : BitVec 5) (c : BitVec 5) (s : BitVec 3) : Statement (.barg o a c s) := by
  intro h
  show decodeCore _ = _
  simp (disch := decide) only [decodeCore, decodeC, wordTag, ext_hi, ext_lo, ext_self, Nat.reduceSub,
    BitVec.extractLsb'_toNat, BitVec.ofNat_eq_ofNat, BitVec.toNat_ofNat, Nat.reducePow, Nat.reduceMod, Nat.reduceShiftRight,
    Nat.zero_shiftRight, Nat.zero_mod]

theorem waitv (o : BitVec 2) (a : BitVec 5) (v : BitVec 5) (m : BitVec 3) : Statement (.waitv o a v m) := by
  intro h
  show decodeCore _ = _
  simp (disch := decide) only [decodeCore, decodeC, wordTag, ext_hi, ext_lo, ext_self, Nat.reduceSub,
    BitVec.extractLsb'_toNat, BitVec.ofNat_eq_ofNat, BitVec.toNat_ofNat, Nat.reducePow, Nat.reduceMod, Nat.reduceShiftRight,
    Nat.zero_shiftRight, Nat.zero_mod]
  exact if_pos (of_decide_eq_true h)

theorem abwait (o : BitVec 2) (c : BitVec 6) (i : BitVec 16) : Statement (.abwait o c i) := by
  intro h
  show decodeCore _ = _
  simp (disch := decide) only [decodeCore, decodeC, wordTag, ext_hi, ext_lo, ext_self, Nat.reduceSub,
    BitVec.extractLsb'_toNat, BitVec.ofNat_eq_ofNat, BitVec.toNat_ofNat, Nat.reducePow, Nat.reduceMod, Nat.reduceShiftRight,
    Nat.zero_shiftRight, Nat.zero_mod]

theorem endW (o : BitVec 2) : Statement (.endW o) := by
  intro h
  show decodeCore _ = _
  simp (disch := decide) only [decodeCore, decodeC, wordTag, ext_hi, ext_lo, ext_self, Nat.reduceSub,
    BitVec.extractLsb'_toNat, BitVec.ofNat_eq_ofNat, BitVec.toNat_ofNat, Nat.reducePow, Nat.reduceMod, Nat.reduceShiftRight,
    Nat.zero_shiftRight, Nat.zero_mod]

theorem waitc (o : BitVec 2) (c : BitVec 6) (i : BitVec 16) : Statement (.waitc o c i) := by
  intro h
  show decodeCore _ = _
  simp (disch := decide) only [decodeCore, decodeC, wordTag, ext_hi, ext_lo, ext_self, Nat.reduceSub,
    BitVec.extractLsb'_toNat, BitVec.ofNat_eq_ofNat, BitVec.toNat_ofNat, Nat.reducePow, Nat.reduceMod, Nat.reduceShiftRight,
    Nat.zero_shiftRight, Nat.zero_mod]

theorem hint (n : BitVec 29) : Statement (.hint n) := by
  intro h
  show decodeCore _ = _
  simp (disch := decide) only [decodeCore, wordTag, ext_hi, ext_lo, ext_self, Nat.reduceSub,
    BitVec.extractLsb'_toNat, BitVec.ofNat_eq_ofNat, BitVec.toNat_ofNat, Nat.reducePow, Nat.reduceMod, Nat.reduceShiftRight,
    Nat.zero_shiftRight, Nat.zero_mod]

theorem vshape (tk : BitVec 4) (x : BitVec 2) (s : BitVec 1) (m : BitVec 2) (t : BitVec 4) : Statement (.vshape tk x s m t) := by
  intro h
  show decodeCore _ = _
  simp (disch := decide) only [decodeCore, decodeV, wordTag, ext_hi, ext_lo, ext_self, Nat.reduceSub,
    BitVec.extractLsb'_toNat, BitVec.ofNat_eq_ofNat, BitVec.toNat_ofNat, Nat.reducePow, Nat.reduceMod, Nat.reduceShiftRight,
    Nat.zero_shiftRight, Nat.zero_mod]

theorem vadd (tk : BitVec 4) (d : BitVec 5) (a : BitVec 5) (b : BitVec 5) (v : BitVec 4) : Statement (.vadd tk d a b v) := by
  intro h
  show decodeCore _ = _
  simp (disch := decide) only [decodeCore, decodeV, wordTag, ext_hi, ext_lo, ext_self, Nat.reduceSub,
    BitVec.extractLsb'_toNat, BitVec.ofNat_eq_ofNat, BitVec.toNat_ofNat, Nat.reducePow, Nat.reduceMod, Nat.reduceShiftRight,
    Nat.zero_shiftRight, Nat.zero_mod]

theorem vsub (tk : BitVec 4) (d : BitVec 5) (a : BitVec 5) (b : BitVec 5) (v : BitVec 4) : Statement (.vsub tk d a b v) := by
  intro h
  show decodeCore _ = _
  simp (disch := decide) only [decodeCore, decodeV, wordTag, ext_hi, ext_lo, ext_self, Nat.reduceSub,
    BitVec.extractLsb'_toNat, BitVec.ofNat_eq_ofNat, BitVec.toNat_ofNat, Nat.reducePow, Nat.reduceMod, Nat.reduceShiftRight,
    Nat.zero_shiftRight, Nat.zero_mod]

theorem vmul (tk : BitVec 4) (d : BitVec 5) (a : BitVec 5) (b : BitVec 5) (v : BitVec 4) : Statement (.vmul tk d a b v) := by
  intro h
  show decodeCore _ = _
  simp (disch := decide) only [decodeCore, decodeV, wordTag, ext_hi, ext_lo, ext_self, Nat.reduceSub,
    BitVec.extractLsb'_toNat, BitVec.ofNat_eq_ofNat, BitVec.toNat_ofNat, Nat.reducePow, Nat.reduceMod, Nat.reduceShiftRight,
    Nat.zero_shiftRight, Nat.zero_mod]

theorem vfma (tk : BitVec 4) (d : BitVec 5) (a : BitVec 5) (b : BitVec 5) (v : BitVec 4) : Statement (.vfma tk d a b v) := by
  intro h
  show decodeCore _ = _
  simp (disch := decide) only [decodeCore, decodeV, wordTag, ext_hi, ext_lo, ext_self, Nat.reduceSub,
    BitVec.extractLsb'_toNat, BitVec.ofNat_eq_ofNat, BitVec.toNat_ofNat, Nat.reducePow, Nat.reduceMod, Nat.reduceShiftRight,
    Nat.zero_shiftRight, Nat.zero_mod]

theorem vfms (tk : BitVec 4) (d : BitVec 5) (a : BitVec 5) (b : BitVec 5) (v : BitVec 4) : Statement (.vfms tk d a b v) := by
  intro h
  show decodeCore _ = _
  simp (disch := decide) only [decodeCore, decodeV, wordTag, ext_hi, ext_lo, ext_self, Nat.reduceSub,
    BitVec.extractLsb'_toNat, BitVec.ofNat_eq_ofNat, BitVec.toNat_ofNat, Nat.reducePow, Nat.reduceMod, Nat.reduceShiftRight,
    Nat.zero_shiftRight, Nat.zero_mod]

theorem vmin (tk : BitVec 4) (d : BitVec 5) (a : BitVec 5) (b : BitVec 5) (v : BitVec 4) : Statement (.vmin tk d a b v) := by
  intro h
  show decodeCore _ = _
  simp (disch := decide) only [decodeCore, decodeV, wordTag, ext_hi, ext_lo, ext_self, Nat.reduceSub,
    BitVec.extractLsb'_toNat, BitVec.ofNat_eq_ofNat, BitVec.toNat_ofNat, Nat.reducePow, Nat.reduceMod, Nat.reduceShiftRight,
    Nat.zero_shiftRight, Nat.zero_mod]

theorem vmax (tk : BitVec 4) (d : BitVec 5) (a : BitVec 5) (b : BitVec 5) (v : BitVec 4) : Statement (.vmax tk d a b v) := by
  intro h
  show decodeCore _ = _
  simp (disch := decide) only [decodeCore, decodeV, wordTag, ext_hi, ext_lo, ext_self, Nat.reduceSub,
    BitVec.extractLsb'_toNat, BitVec.ofNat_eq_ofNat, BitVec.toNat_ofNat, Nat.reducePow, Nat.reduceMod, Nat.reduceShiftRight,
    Nat.zero_shiftRight, Nat.zero_mod]

theorem vabs (tk : BitVec 4) (d : BitVec 5) (a : BitVec 5) (v : BitVec 4) : Statement (.vabs tk d a v) := by
  intro h
  show decodeCore _ = _
  simp (disch := decide) only [decodeCore, decodeV, wordTag, ext_hi, ext_lo, ext_self, Nat.reduceSub,
    BitVec.extractLsb'_toNat, BitVec.ofNat_eq_ofNat, BitVec.toNat_ofNat, Nat.reducePow, Nat.reduceMod, Nat.reduceShiftRight,
    Nat.zero_shiftRight, Nat.zero_mod]

theorem vneg (tk : BitVec 4) (d : BitVec 5) (a : BitVec 5) (v : BitVec 4) : Statement (.vneg tk d a v) := by
  intro h
  show decodeCore _ = _
  simp (disch := decide) only [decodeCore, decodeV, wordTag, ext_hi, ext_lo, ext_self, Nat.reduceSub,
    BitVec.extractLsb'_toNat, BitVec.ofNat_eq_ofNat, BitVec.toNat_ofNat, Nat.reducePow, Nat.reduceMod, Nat.reduceShiftRight,
    Nat.zero_shiftRight, Nat.zero_mod]

theorem vdiv (tk : BitVec 4) (d : BitVec 5) (a : BitVec 5) (b : BitVec 5) (v : BitVec 4) : Statement (.vdiv tk d a b v) := by
  intro h
  show decodeCore _ = _
  simp (disch := decide) only [decodeCore, decodeV, wordTag, ext_hi, ext_lo, ext_self, Nat.reduceSub,
    BitVec.extractLsb'_toNat, BitVec.ofNat_eq_ofNat, BitVec.toNat_ofNat, Nat.reducePow, Nat.reduceMod, Nat.reduceShiftRight,
    Nat.zero_shiftRight, Nat.zero_mod]

theorem vsqrt (tk : BitVec 4) (d : BitVec 5) (a : BitVec 5) (v : BitVec 4) : Statement (.vsqrt tk d a v) := by
  intro h
  show decodeCore _ = _
  simp (disch := decide) only [decodeCore, decodeV, wordTag, ext_hi, ext_lo, ext_self, Nat.reduceSub,
    BitVec.extractLsb'_toNat, BitVec.ofNat_eq_ofNat, BitVec.toNat_ofNat, Nat.reducePow, Nat.reduceMod, Nat.reduceShiftRight,
    Nat.zero_shiftRight, Nat.zero_mod]

theorem vrcp (tk : BitVec 4) (d : BitVec 5) (a : BitVec 5) (v : BitVec 4) : Statement (.vrcp tk d a v) := by
  intro h
  show decodeCore _ = _
  simp (disch := decide) only [decodeCore, decodeV, wordTag, ext_hi, ext_lo, ext_self, Nat.reduceSub,
    BitVec.extractLsb'_toNat, BitVec.ofNat_eq_ofNat, BitVec.toNat_ofNat, Nat.reducePow, Nat.reduceMod, Nat.reduceShiftRight,
    Nat.zero_shiftRight, Nat.zero_mod]

theorem vrsq (tk : BitVec 4) (d : BitVec 5) (a : BitVec 5) (v : BitVec 4) : Statement (.vrsq tk d a v) := by
  intro h
  show decodeCore _ = _
  simp (disch := decide) only [decodeCore, decodeV, wordTag, ext_hi, ext_lo, ext_self, Nat.reduceSub,
    BitVec.extractLsb'_toNat, BitVec.ofNat_eq_ofNat, BitVec.toNat_ofNat, Nat.reducePow, Nat.reduceMod, Nat.reduceShiftRight,
    Nat.zero_shiftRight, Nat.zero_mod]

theorem vexp2 (tk : BitVec 4) (d : BitVec 5) (a : BitVec 5) (v : BitVec 4) : Statement (.vexp2 tk d a v) := by
  intro h
  show decodeCore _ = _
  simp (disch := decide) only [decodeCore, decodeV, wordTag, ext_hi, ext_lo, ext_self, Nat.reduceSub,
    BitVec.extractLsb'_toNat, BitVec.ofNat_eq_ofNat, BitVec.toNat_ofNat, Nat.reducePow, Nat.reduceMod, Nat.reduceShiftRight,
    Nat.zero_shiftRight, Nat.zero_mod]

theorem vlog2 (tk : BitVec 4) (d : BitVec 5) (a : BitVec 5) (v : BitVec 4) : Statement (.vlog2 tk d a v) := by
  intro h
  show decodeCore _ = _
  simp (disch := decide) only [decodeCore, decodeV, wordTag, ext_hi, ext_lo, ext_self, Nat.reduceSub,
    BitVec.extractLsb'_toNat, BitVec.ofNat_eq_ofNat, BitVec.toNat_ofNat, Nat.reducePow, Nat.reduceMod, Nat.reduceShiftRight,
    Nat.zero_shiftRight, Nat.zero_mod]

theorem vand (tk : BitVec 4) (d : BitVec 5) (a : BitVec 5) (b : BitVec 5) (v : BitVec 4) : Statement (.vand tk d a b v) := by
  intro h
  show decodeCore _ = _
  simp (disch := decide) only [decodeCore, decodeV, wordTag, ext_hi, ext_lo, ext_self, Nat.reduceSub,
    BitVec.extractLsb'_toNat, BitVec.ofNat_eq_ofNat, BitVec.toNat_ofNat, Nat.reducePow, Nat.reduceMod, Nat.reduceShiftRight,
    Nat.zero_shiftRight, Nat.zero_mod]

theorem vor (tk : BitVec 4) (d : BitVec 5) (a : BitVec 5) (b : BitVec 5) (v : BitVec 4) : Statement (.vor tk d a b v) := by
  intro h
  show decodeCore _ = _
  simp (disch := decide) only [decodeCore, decodeV, wordTag, ext_hi, ext_lo, ext_self, Nat.reduceSub,
    BitVec.extractLsb'_toNat, BitVec.ofNat_eq_ofNat, BitVec.toNat_ofNat, Nat.reducePow, Nat.reduceMod, Nat.reduceShiftRight,
    Nat.zero_shiftRight, Nat.zero_mod]

theorem vxor (tk : BitVec 4) (d : BitVec 5) (a : BitVec 5) (b : BitVec 5) (v : BitVec 4) : Statement (.vxor tk d a b v) := by
  intro h
  show decodeCore _ = _
  simp (disch := decide) only [decodeCore, decodeV, wordTag, ext_hi, ext_lo, ext_self, Nat.reduceSub,
    BitVec.extractLsb'_toNat, BitVec.ofNat_eq_ofNat, BitVec.toNat_ofNat, Nat.reducePow, Nat.reduceMod, Nat.reduceShiftRight,
    Nat.zero_shiftRight, Nat.zero_mod]

theorem vshl (tk : BitVec 4) (d : BitVec 5) (a : BitVec 5) (b : BitVec 5) (v : BitVec 4) : Statement (.vshl tk d a b v) := by
  intro h
  show decodeCore _ = _
  simp (disch := decide) only [decodeCore, decodeV, wordTag, ext_hi, ext_lo, ext_self, Nat.reduceSub,
    BitVec.extractLsb'_toNat, BitVec.ofNat_eq_ofNat, BitVec.toNat_ofNat, Nat.reducePow, Nat.reduceMod, Nat.reduceShiftRight,
    Nat.zero_shiftRight, Nat.zero_mod]

theorem vshr (tk : BitVec 4) (d : BitVec 5) (a : BitVec 5) (b : BitVec 5) (v : BitVec 4) : Statement (.vshr tk d a b v) := by
  intro h
  show decodeCore _ = _
  simp (disch := decide) only [decodeCore, decodeV, wordTag, ext_hi, ext_lo, ext_self, Nat.reduceSub,
    BitVec.extractLsb'_toNat, BitVec.ofNat_eq_ofNat, BitVec.toNat_ofNat, Nat.reducePow, Nat.reduceMod, Nat.reduceShiftRight,
    Nat.zero_shiftRight, Nat.zero_mod]

theorem vcmp (tk : BitVec 4) (c : BitVec 5) (a : BitVec 5) (b : BitVec 5) (v : BitVec 4) : Statement (.vcmp tk c a b v) := by
  intro h
  show decodeCore _ = _
  simp (disch := decide) only [decodeCore, decodeV, wordTag, ext_hi, ext_lo, ext_self, Nat.reduceSub,
    BitVec.extractLsb'_toNat, BitVec.ofNat_eq_ofNat, BitVec.toNat_ofNat, Nat.reducePow, Nat.reduceMod, Nat.reduceShiftRight,
    Nat.zero_shiftRight, Nat.zero_mod]
  exact if_pos (of_decide_eq_true (Bool.and_eq_true _ _ ▸ h).1)

theorem minv (tk : BitVec 4) : Statement (.minv tk) := by
  intro h
  show decodeCore _ = _
  simp (disch := decide) only [decodeCore, decodeV, wordTag, ext_hi, ext_lo, ext_self, Nat.reduceSub,
    BitVec.extractLsb'_toNat, BitVec.ofNat_eq_ofNat, BitVec.toNat_ofNat, Nat.reducePow, Nat.reduceMod, Nat.reduceShiftRight,
    Nat.zero_shiftRight, Nat.zero_mod]

theorem mpop (tk : BitVec 4) : Statement (.mpop tk) := by
  intro h
  show decodeCore _ = _
  simp (disch := decide) only [decodeCore, decodeV, wordTag, ext_hi, ext_lo, ext_self, Nat.reduceSub,
    BitVec.extractLsb'_toNat, BitVec.ofNat_eq_ofNat, BitVec.toNat_ofNat, Nat.reducePow, Nat.reduceMod, Nat.reduceShiftRight,
    Nat.zero_shiftRight, Nat.zero_mod]

theorem mget (tk : BitVec 4) (d : BitVec 5) : Statement (.mget tk d) := by
  intro h
  show decodeCore _ = _
  simp (disch := decide) only [decodeCore, decodeV, wordTag, ext_hi, ext_lo, ext_self, Nat.reduceSub,
    BitVec.extractLsb'_toNat, BitVec.ofNat_eq_ofNat, BitVec.toNat_ofNat, Nat.reducePow, Nat.reduceMod, Nat.reduceShiftRight,
    Nat.zero_shiftRight, Nat.zero_mod]

theorem mset (tk : BitVec 4) (a : BitVec 5) : Statement (.mset tk a) := by
  intro h
  show decodeCore _ = _
  simp (disch := decide) only [decodeCore, decodeV, wordTag, ext_hi, ext_lo, ext_self, Nat.reduceSub,
    BitVec.extractLsb'_toNat, BitVec.ofNat_eq_ofNat, BitVec.toNat_ofNat, Nat.reducePow, Nat.reduceMod, Nat.reduceShiftRight,
    Nat.zero_shiftRight, Nat.zero_mod]

theorem vsel (tk : BitVec 4) (d : BitVec 5) (a : BitVec 5) (b : BitVec 5) (v : BitVec 4) : Statement (.vsel tk d a b v) := by
  intro h
  show decodeCore _ = _
  simp (disch := decide) only [decodeCore, decodeV, wordTag, ext_hi, ext_lo, ext_self, Nat.reduceSub,
    BitVec.extractLsb'_toNat, BitVec.ofNat_eq_ofNat, BitVec.toNat_ofNat, Nat.reducePow, Nat.reduceMod, Nat.reduceShiftRight,
    Nat.zero_shiftRight, Nat.zero_mod]

theorem vrsum (tk : BitVec 4) (d : BitVec 5) (a : BitVec 5) (v : BitVec 4) : Statement (.vrsum tk d a v) := by
  intro h
  show decodeCore _ = _
  simp (disch := decide) only [decodeCore, decodeV, wordTag, ext_hi, ext_lo, ext_self, Nat.reduceSub,
    BitVec.extractLsb'_toNat, BitVec.ofNat_eq_ofNat, BitVec.toNat_ofNat, Nat.reducePow, Nat.reduceMod, Nat.reduceShiftRight,
    Nat.zero_shiftRight, Nat.zero_mod]

theorem vrmax (tk : BitVec 4) (d : BitVec 5) (a : BitVec 5) (v : BitVec 4) : Statement (.vrmax tk d a v) := by
  intro h
  show decodeCore _ = _
  simp (disch := decide) only [decodeCore, decodeV, wordTag, ext_hi, ext_lo, ext_self, Nat.reduceSub,
    BitVec.extractLsb'_toNat, BitVec.ofNat_eq_ofNat, BitVec.toNat_ofNat, Nat.reducePow, Nat.reduceMod, Nat.reduceShiftRight,
    Nat.zero_shiftRight, Nat.zero_mod]

theorem vrmin (tk : BitVec 4) (d : BitVec 5) (a : BitVec 5) (v : BitVec 4) : Statement (.vrmin tk d a v) := by
  intro h
  show decodeCore _ = _
  simp (disch := decide) only [decodeCore, decodeV, wordTag, ext_hi, ext_lo, ext_self, Nat.reduceSub,
    BitVec.extractLsb'_toNat, BitVec.ofNat_eq_ofNat, BitVec.toNat_ofNat, Nat.reducePow, Nat.reduceMod, Nat.reduceShiftRight,
    Nat.zero_shiftRight, Nat.zero_mod]

theorem vargmax (tk : BitVec 4) (d : BitVec 5) (a : BitVec 5) (v : BitVec 4) : Statement (.vargmax tk d a v) := by
  intro h
  show decodeCore _ = _
  simp (disch := decide) only [decodeCore, decodeV, wordTag, ext_hi, ext_lo, ext_self, Nat.reduceSub,
    BitVec.extractLsb'_toNat, BitVec.ofNat_eq_ofNat, BitVec.toNat_ofNat, Nat.reducePow, Nat.reduceMod, Nat.reduceShiftRight,
    Nat.zero_shiftRight, Nat.zero_mod]

theorem vscan (tk : BitVec 4) (d : BitVec 5) (a : BitVec 5) (v : BitVec 4) : Statement (.vscan tk d a v) := by
  intro h
  show decodeCore _ = _
  simp (disch := decide) only [decodeCore, decodeV, wordTag, ext_hi, ext_lo, ext_self, Nat.reduceSub,
    BitVec.extractLsb'_toNat, BitVec.ofNat_eq_ofNat, BitVec.toNat_ofNat, Nat.reducePow, Nat.reduceMod, Nat.reduceShiftRight,
    Nat.zero_shiftRight, Nat.zero_mod]

theorem vbcst (tk : BitVec 4) (d : BitVec 5) (a : BitVec 5) (v : BitVec 4) : Statement (.vbcst tk d a v) := by
  intro h
  show decodeCore _ = _
  simp (disch := decide) only [decodeCore, decodeV, wordTag, ext_hi, ext_lo, ext_self, Nat.reduceSub,
    BitVec.extractLsb'_toNat, BitVec.ofNat_eq_ofNat, BitVec.toNat_ofNat, Nat.reducePow, Nat.reduceMod, Nat.reduceShiftRight,
    Nat.zero_shiftRight, Nat.zero_mod]

theorem vmov (tk : BitVec 4) (d : BitVec 5) (a : BitVec 5) (v : BitVec 4) : Statement (.vmov tk d a v) := by
  intro h
  show decodeCore _ = _
  simp (disch := decide) only [decodeCore, decodeV, wordTag, ext_hi, ext_lo, ext_self, Nat.reduceSub,
    BitVec.extractLsb'_toNat, BitVec.ofNat_eq_ofNat, BitVec.toNat_ofNat, Nat.reducePow, Nat.reduceMod, Nat.reduceShiftRight,
    Nat.zero_shiftRight, Nat.zero_mod]

theorem vxtr (tk : BitVec 4) (d : BitVec 5) (a : BitVec 5) (b : BitVec 5) (v : BitVec 4) : Statement (.vxtr tk d a b v) := by
  intro h
  show decodeCore _ = _
  simp (disch := decide) only [decodeCore, decodeV, wordTag, ext_hi, ext_lo, ext_self, Nat.reduceSub,
    BitVec.extractLsb'_toNat, BitVec.ofNat_eq_ofNat, BitVec.toNat_ofNat, Nat.reducePow, Nat.reduceMod, Nat.reduceShiftRight,
    Nat.zero_shiftRight, Nat.zero_mod]

theorem vins (tk : BitVec 4) (d : BitVec 5) (a : BitVec 5) (b : BitVec 5) (v : BitVec 4) : Statement (.vins tk d a b v) := by
  intro h
  show decodeCore _ = _
  simp (disch := decide) only [decodeCore, decodeV, wordTag, ext_hi, ext_lo, ext_self, Nat.reduceSub,
    BitVec.extractLsb'_toNat, BitVec.ofNat_eq_ofNat, BitVec.toNat_ofNat, Nat.reducePow, Nat.reduceMod, Nat.reduceShiftRight,
    Nat.zero_shiftRight, Nat.zero_mod]

theorem vperm (tk : BitVec 4) (d : BitVec 5) (a : BitVec 5) (b : BitVec 5) (v : BitVec 4) : Statement (.vperm tk d a b v) := by
  intro h
  show decodeCore _ = _
  simp (disch := decide) only [decodeCore, decodeV, wordTag, ext_hi, ext_lo, ext_self, Nat.reduceSub,
    BitVec.extractLsb'_toNat, BitVec.ofNat_eq_ofNat, BitVec.toNat_ofNat, Nat.reducePow, Nat.reduceMod, Nat.reduceShiftRight,
    Nat.zero_shiftRight, Nat.zero_mod]

theorem vslide (tk : BitVec 4) (d : BitVec 5) (a : BitVec 5) (b : BitVec 5) (v : BitVec 4) : Statement (.vslide tk d a b v) := by
  intro h
  show decodeCore _ = _
  simp (disch := decide) only [decodeCore, decodeV, wordTag, ext_hi, ext_lo, ext_self, Nat.reduceSub,
    BitVec.extractLsb'_toNat, BitVec.ofNat_eq_ofNat, BitVec.toNat_ofNat, Nat.reducePow, Nat.reduceMod, Nat.reduceShiftRight,
    Nat.zero_shiftRight, Nat.zero_mod]

theorem vcvt (tk : BitVec 4) (d : BitVec 5) (a : BitVec 5) (t : BitVec 4) (v : BitVec 4) : Statement (.vcvt tk d a t v) := by
  intro h
  show decodeCore _ = _
  simp (disch := decide) only [decodeCore, decodeV, wordTag, ext_hi, ext_lo, ext_self, Nat.reduceSub,
    BitVec.extractLsb'_toNat, BitVec.ofNat_eq_ofNat, BitVec.toNat_ofNat, Nat.reducePow, Nat.reduceMod, Nat.reduceShiftRight,
    Nat.zero_shiftRight, Nat.zero_mod]

theorem vqmx (tk : BitVec 4) (d : BitVec 5) (a : BitVec 5) (v : BitVec 4) : Statement (.vqmx tk d a v) := by
  intro h
  show decodeCore _ = _
  simp (disch := decide) only [decodeCore, decodeV, wordTag, ext_hi, ext_lo, ext_self, Nat.reduceSub,
    BitVec.extractLsb'_toNat, BitVec.ofNat_eq_ofNat, BitVec.toNat_ofNat, Nat.reducePow, Nat.reduceMod, Nat.reduceShiftRight,
    Nat.zero_shiftRight, Nat.zero_mod]

theorem vdqmx (tk : BitVec 4) (d : BitVec 5) (a : BitVec 5) (v : BitVec 4) : Statement (.vdqmx tk d a v) := by
  intro h
  show decodeCore _ = _
  simp (disch := decide) only [decodeCore, decodeV, wordTag, ext_hi, ext_lo, ext_self, Nat.reduceSub,
    BitVec.extractLsb'_toNat, BitVec.ofNat_eq_ofNat, BitVec.toNat_ofNat, Nat.reducePow, Nat.reduceMod, Nat.reduceShiftRight,
    Nat.zero_shiftRight, Nat.zero_mod]

theorem vpack (tk : BitVec 4) (d : BitVec 5) (a : BitVec 5) (b : BitVec 5) (v : BitVec 4) : Statement (.vpack tk d a b v) := by
  intro h
  show decodeCore _ = _
  simp (disch := decide) only [decodeCore, decodeV, wordTag, ext_hi, ext_lo, ext_self, Nat.reduceSub,
    BitVec.extractLsb'_toNat, BitVec.ofNat_eq_ofNat, BitVec.toNat_ofNat, Nat.reducePow, Nat.reduceMod, Nat.reduceShiftRight,
    Nat.zero_shiftRight, Nat.zero_mod]

theorem vunpk (tk : BitVec 4) (d : BitVec 5) (a : BitVec 5) (h : BitVec 1) (v : BitVec 4) : Statement (.vunpk tk d a h v) := by
  intro h
  show decodeCore _ = _
  simp (disch := decide) only [decodeCore, decodeV, wordTag, ext_hi, ext_lo, ext_self, Nat.reduceSub,
    BitVec.extractLsb'_toNat, BitVec.ofNat_eq_ofNat, BitVec.toNat_ofNat, Nat.reducePow, Nat.reduceMod, Nat.reduceShiftRight,
    Nat.zero_shiftRight, Nat.zero_mod]

theorem vqpop (tk : BitVec 4) (d : BitVec 5) (q : BitVec 2) : Statement (.vqpop tk d q) := by
  intro h
  show decodeCore _ = _
  simp (disch := decide) only [decodeCore, decodeV, wordTag, ext_hi, ext_lo, ext_self, Nat.reduceSub,
    BitVec.extractLsb'_toNat, BitVec.ofNat_eq_ofNat, BitVec.toNat_ofNat, Nat.reducePow, Nat.reduceMod, Nat.reduceShiftRight,
    Nat.zero_shiftRight, Nat.zero_mod]

theorem vqpush (tk : BitVec 4) (q : BitVec 1) (a : BitVec 5) : Statement (.vqpush tk q a) := by
  intro h
  show decodeCore _ = _
  simp (disch := decide) only [decodeCore, decodeV, wordTag, ext_hi, ext_lo, ext_self, Nat.reduceSub,
    BitVec.extractLsb'_toNat, BitVec.ofNat_eq_ofNat, BitVec.toNat_ofNat, Nat.reducePow, Nat.reduceMod, Nat.reduceShiftRight,
    Nat.zero_shiftRight, Nat.zero_mod]

theorem vaccr (tk : BitVec 4) (d : BitVec 5) (c : BitVec 11) : Statement (.vaccr tk d c) := by
  intro h
  show decodeCore _ = _
  simp (disch := decide) only [decodeCore, decodeV, wordTag, ext_hi, ext_lo, ext_self, Nat.reduceSub,
    BitVec.extractLsb'_toNat, BitVec.ofNat_eq_ofNat, BitVec.toNat_ofNat, Nat.reducePow, Nat.reduceMod, Nat.reduceShiftRight,
    Nat.zero_shiftRight, Nat.zero_mod]

theorem vaccw (tk : BitVec 4) (a : BitVec 5) (c : BitVec 11) : Statement (.vaccw tk a c) := by
  intro h
  show decodeCore _ = _
  simp (disch := decide) only [decodeCore, decodeV, wordTag, ext_hi, ext_lo, ext_self, Nat.reduceSub,
    BitVec.extractLsb'_toNat, BitVec.ofNat_eq_ofNat, BitVec.toNat_ofNat, Nat.reducePow, Nat.reduceMod, Nat.reduceShiftRight,
    Nat.zero_shiftRight, Nat.zero_mod]

theorem viota (tk : BitVec 4) (d : BitVec 5) (a : BitVec 5) (v : BitVec 4) : Statement (.viota tk d a v) := by
  intro h
  show decodeCore _ = _
  simp (disch := decide) only [decodeCore, decodeV, wordTag, ext_hi, ext_lo, ext_self, Nat.reduceSub,
    BitVec.extractLsb'_toNat, BitVec.ofNat_eq_ofNat, BitVec.toNat_ofNat, Nat.reducePow, Nat.reduceMod, Nat.reduceShiftRight,
    Nat.zero_shiftRight, Nat.zero_mod]

theorem mlease (tk : BitVec 4) (m : BitVec 4) : Statement (.mlease tk m) := by
  intro h
  show decodeCore _ = _
  simp (disch := decide) only [decodeCore, decodeM, wordTag, ext_hi, ext_lo, ext_self, Nat.reduceSub,
    BitVec.extractLsb'_toNat, BitVec.ofNat_eq_ofNat, BitVec.toNat_ofNat, Nat.reducePow, Nat.reduceMod, Nat.reduceShiftRight,
    Nat.zero_shiftRight, Nat.zero_mod]

theorem mfree (tk : BitVec 4) (m : BitVec 4) : Statement (.mfree tk m) := by
  intro h
  show decodeCore _ = _
  simp (disch := decide) only [decodeCore, decodeM, wordTag, ext_hi, ext_lo, ext_self, Nat.reduceSub,
    BitVec.extractLsb'_toNat, BitVec.ofNat_eq_ofNat, BitVec.toNat_ofNat, Nat.reducePow, Nat.reduceMod, Nat.reduceShiftRight,
    Nat.zero_shiftRight, Nat.zero_mod]

theorem mplane (tk : BitVec 4) (s : BitVec 4) (a : BitVec 5) : Statement (.mplane tk s a) := by
  intro h
  show decodeCore _ = _
  simp (disch := decide) only [decodeCore, decodeM, wordTag, ext_hi, ext_lo, ext_self, Nat.reduceSub,
    BitVec.extractLsb'_toNat, BitVec.ofNat_eq_ofNat, BitVec.toNat_ofNat, Nat.reducePow, Nat.reduceMod, Nat.reduceShiftRight,
    Nat.zero_shiftRight, Nat.zero_mod]

theorem mswap (tk : BitVec 4) (f : BitVec 6) (c : BitVec 6) (a : BitVec 5) : Statement (.mswap tk f c a) := by
  intro h
  show decodeCore _ = _
  simp (disch := decide) only [decodeCore, decodeM, wordTag, ext_hi, ext_lo, ext_self, Nat.reduceSub,
    BitVec.extractLsb'_toNat, BitVec.ofNat_eq_ofNat, BitVec.toNat_ofNat, Nat.reducePow, Nat.reduceMod, Nat.reduceShiftRight,
    Nat.zero_shiftRight, Nat.zero_mod]

theorem mstep (tk : BitVec 4) (s : BitVec 4) (a : BitVec 5) (c : BitVec 11) : Statement (.mstep tk s a c) := by
  intro h
  show decodeCore _ = _
  simp (disch := decide) only [decodeCore, decodeM, wordTag, ext_hi, ext_lo, ext_self, Nat.reduceSub,
    BitVec.extractLsb'_toNat, BitVec.ofNat_eq_ofNat, BitVec.toNat_ofNat, Nat.reducePow, Nat.reduceMod, Nat.reduceShiftRight,
    Nat.zero_shiftRight, Nat.zero_mod]

theorem mcommit (tk : BitVec 4) (s : BitVec 1) (o : BitVec 6) : Statement (.mcommit tk s o) := by
  intro h
  show decodeCore _ = _
  simp (disch := decide) only [decodeCore, decodeM, wordTag, ext_hi, ext_lo, ext_self, Nat.reduceSub,
    BitVec.extractLsb'_toNat, BitVec.ofNat_eq_ofNat, BitVec.toNat_ofNat, Nat.reducePow, Nat.reduceMod, Nat.reduceShiftRight,
    Nat.zero_shiftRight, Nat.zero_mod]

theorem mwaitb (tk : BitVec 4) (k : BitVec 4) : Statement (.mwaitb tk k) := by
  intro h
  show decodeCore _ = _
  simp (disch := decide) only [decodeCore, decodeM, wordTag, ext_hi, ext_lo, ext_self, Nat.reduceSub,
    BitVec.extractLsb'_toNat, BitVec.ofNat_eq_ofNat, BitVec.toNat_ofNat, Nat.reducePow, Nat.reduceMod, Nat.reduceShiftRight,
    Nat.zero_shiftRight, Nat.zero_mod]

theorem mdrain (tk : BitVec 4) (s : BitVec 4) (a : BitVec 5) (c : BitVec 11) : Statement (.mdrain tk s a c) := by
  intro h
  show decodeCore _ = _
  simp (disch := decide) only [decodeCore, decodeM, wordTag, ext_hi, ext_lo, ext_self, Nat.reduceSub,
    BitVec.extractLsb'_toNat, BitVec.ofNat_eq_ofNat, BitVec.toNat_ofNat, Nat.reducePow, Nat.reduceMod, Nat.reduceShiftRight,
    Nat.zero_shiftRight, Nat.zero_mod]

theorem mzero (tk : BitVec 4) (n : BitVec 9) (c : BitVec 11) : Statement (.mzero tk n c) := by
  intro h
  show decodeCore _ = _
  simp (disch := decide) only [decodeCore, decodeM, wordTag, ext_hi, ext_lo, ext_self, Nat.reduceSub,
    BitVec.extractLsb'_toNat, BitVec.ofNat_eq_ofNat, BitVec.toNat_ofNat, Nat.reducePow, Nat.reduceMod, Nat.reduceShiftRight,
    Nat.zero_shiftRight, Nat.zero_mod]

theorem mstat (tk : BitVec 4) (d : BitVec 5) (c : BitVec 1) : Statement (.mstat tk d c) := by
  intro h
  show decodeCore _ = _
  simp (disch := decide) only [decodeCore, decodeM, wordTag, ext_hi, ext_lo, ext_self, Nat.reduceSub,
    BitVec.extractLsb'_toNat, BitVec.ofNat_eq_ofNat, BitVec.toNat_ofNat, Nat.reducePow, Nat.reduceMod, Nat.reduceShiftRight,
    Nat.zero_shiftRight, Nat.zero_mod]

theorem copy (tk : BitVec 4) (s : BitVec 4) (a : BitVec 5) (d : BitVec 2) (g : BitVec 1) (t : BitVec 1) (c : BitVec 6) : Statement (.copy tk s a d g t c) := by
  intro h
  show decodeCore _ = _
  simp (disch := decide) only [decodeCore, decodeT, wordTag, ext_hi, ext_lo, ext_self, Nat.reduceSub,
    BitVec.extractLsb'_toNat, BitVec.ofNat_eq_ofNat, BitVec.toNat_ofNat, Nat.reducePow, Nat.reduceMod, Nat.reduceShiftRight,
    Nat.zero_shiftRight, Nat.zero_mod]

theorem gath (tk : BitVec 4) (s : BitVec 4) (m : BitVec 4) (a : BitVec 5) (t : BitVec 1) (c : BitVec 6) : Statement (.gath tk s m a t c) := by
  intro h
  show decodeCore _ = _
  simp (disch := decide) only [decodeCore, decodeT, wordTag, ext_hi, ext_lo, ext_self, Nat.reduceSub,
    BitVec.extractLsb'_toNat, BitVec.ofNat_eq_ofNat, BitVec.toNat_ofNat, Nat.reducePow, Nat.reduceMod, Nat.reduceShiftRight,
    Nat.zero_shiftRight, Nat.zero_mod]

theorem scat (tk : BitVec 4) (s : BitVec 4) (m : BitVec 4) (a : BitVec 5) (t : BitVec 1) (c : BitVec 6) : Statement (.scat tk s m a t c) := by
  intro h
  show decodeCore _ = _
  simp (disch := decide) only [decodeCore, decodeT, wordTag, ext_hi, ext_lo, ext_self, Nat.reduceSub,
    BitVec.extractLsb'_toNat, BitVec.ofNat_eq_ofNat, BitVec.toNat_ofNat, Nat.reducePow, Nat.reduceMod, Nat.reduceShiftRight,
    Nat.zero_shiftRight, Nat.zero_mod]

theorem halo (tk : BitVec 4) (s : BitVec 4) (a : BitVec 5) (i : BitVec 5) (c : BitVec 6) : Statement (.halo tk s a i c) := by
  intro h
  show decodeCore _ = _
  simp (disch := decide) only [decodeCore, decodeT, wordTag, ext_hi, ext_lo, ext_self, Nat.reduceSub,
    BitVec.extractLsb'_toNat, BitVec.ofNat_eq_ofNat, BitVec.toNat_ofNat, Nat.reducePow, Nat.reduceMod, Nat.reduceShiftRight,
    Nat.zero_shiftRight, Nat.zero_mod]

theorem glkick (tk : BitVec 4) (a : BitVec 5) (b : BitVec 5) (t : BitVec 1) (c : BitVec 6) : Statement (.glkick tk a b t c) := by
  intro h
  show decodeCore _ = _
  simp (disch := decide) only [decodeCore, decodeT, wordTag, ext_hi, ext_lo, ext_self, Nat.reduceSub,
    BitVec.extractLsb'_toNat, BitVec.ofNat_eq_ofNat, BitVec.toNat_ofNat, Nat.reducePow, Nat.reduceMod, Nat.reduceShiftRight,
    Nat.zero_shiftRight, Nat.zero_mod]

theorem gllink (tk : BitVec 4) (b : BitVec 5) (l : BitVec 3) (c : BitVec 6) : Statement (.gllink tk b l c) := by
  intro h
  show decodeCore _ = _
  simp (disch := decide) only [decodeCore, decodeT, wordTag, ext_hi, ext_lo, ext_self, Nat.reduceSub,
    BitVec.extractLsb'_toNat, BitVec.ofNat_eq_ofNat, BitVec.toNat_ofNat, Nat.reducePow, Nat.reduceMod, Nat.reduceShiftRight,
    Nat.zero_shiftRight, Nat.zero_mod]

theorem attn (tk : BitVec 4) (a : BitVec 5) (t : BitVec 1) (c : BitVec 6) : Statement (.attn tk a t c) := by
  intro h
  show decodeCore _ = _
  simp (disch := decide) only [decodeCore, decodeT, wordTag, ext_hi, ext_lo, ext_self, Nat.reduceSub,
    BitVec.extractLsb'_toNat, BitVec.ofNat_eq_ofNat, BitVec.toNat_ofNat, Nat.reducePow, Nat.reduceMod, Nat.reduceShiftRight,
    Nat.zero_shiftRight, Nat.zero_mod]

theorem pimld (tk : BitVec 4) (a : BitVec 5) (t : BitVec 1) (c : BitVec 6) : Statement (.pimld tk a t c) := by
  intro h
  show decodeCore _ = _
  simp (disch := decide) only [decodeCore, decodeT, wordTag, ext_hi, ext_lo, ext_self, Nat.reduceSub,
    BitVec.extractLsb'_toNat, BitVec.ofNat_eq_ofNat, BitVec.toNat_ofNat, Nat.reducePow, Nat.reduceMod, Nat.reduceShiftRight,
    Nat.zero_shiftRight, Nat.zero_mod]

theorem pimrun (tk : BitVec 4) (a : BitVec 5) (t : BitVec 1) (c : BitVec 6) : Statement (.pimrun tk a t c) := by
  intro h
  show decodeCore _ = _
  simp (disch := decide) only [decodeCore, decodeT, wordTag, ext_hi, ext_lo, ext_self, Nat.reduceSub,
    BitVec.extractLsb'_toNat, BitVec.ofNat_eq_ofNat, BitVec.toNat_ofNat, Nat.reducePow, Nat.reduceMod, Nat.reduceShiftRight,
    Nat.zero_shiftRight, Nat.zero_mod]

theorem reduce (tk : BitVec 4) (a : BitVec 5) (t : BitVec 1) (c : BitVec 6) : Statement (.reduce tk a t c) := by
  intro h
  show decodeCore _ = _
  simp (disch := decide) only [decodeCore, decodeT, wordTag, ext_hi, ext_lo, ext_self, Nat.reduceSub,
    BitVec.extractLsb'_toNat, BitVec.ofNat_eq_ofNat, BitVec.toNat_ofNat, Nat.reducePow, Nat.reduceMod, Nat.reduceShiftRight,
    Nat.zero_shiftRight, Nat.zero_mod]

theorem sample (tk : BitVec 4) (a : BitVec 5) (t : BitVec 1) (c : BitVec 6) : Statement (.sample tk a t c) := by
  intro h
  show decodeCore _ = _
  simp (disch := decide) only [decodeCore, decodeT, wordTag, ext_hi, ext_lo, ext_self, Nat.reduceSub,
    BitVec.extractLsb'_toNat, BitVec.ofNat_eq_ofNat, BitVec.toNat_ofNat, Nat.reducePow, Nat.reduceMod, Nat.reduceShiftRight,
    Nat.zero_shiftRight, Nat.zero_mod]

theorem wnstep (tk : BitVec 4) (a : BitVec 5) (t : BitVec 1) (c : BitVec 6) : Statement (.wnstep tk a t c) := by
  intro h
  show decodeCore _ = _
  simp (disch := decide) only [decodeCore, decodeT, wordTag, ext_hi, ext_lo, ext_self, Nat.reduceSub,
    BitVec.extractLsb'_toNat, BitVec.ofNat_eq_ofNat, BitVec.toNat_ofNat, Nat.reducePow, Nat.reduceMod, Nat.reduceShiftRight,
    Nat.zero_shiftRight, Nat.zero_mod]

theorem hspawn (tk : BitVec 4) (a : BitVec 5) (b : BitVec 5) (d : BitVec 5) : Statement (.hspawn tk a b d) := by
  intro h
  show decodeCore _ = _
  simp (disch := decide) only [decodeCore, decodeT, wordTag, ext_hi, ext_lo, ext_self, Nat.reduceSub,
    BitVec.extractLsb'_toNat, BitVec.ofNat_eq_ofNat, BitVec.toNat_ofNat, Nat.reducePow, Nat.reduceMod, Nat.reduceShiftRight,
    Nat.zero_shiftRight, Nat.zero_mod]

theorem nadd (d : BitVec 4) (a : BitVec 4) (b : BitVec 4) : Statement (.nadd d a b) := by
  intro h
  show decodeNbu _ = _
  simp (disch := decide) only [decodeNbu, ext_hi, ext_lo, ext_self, Nat.reduceSub,
    BitVec.extractLsb'_toNat, BitVec.ofNat_eq_ofNat, BitVec.toNat_ofNat, Nat.reducePow, Nat.reduceMod, Nat.reduceShiftRight,
    Nat.zero_shiftRight, Nat.zero_mod]

theorem naddi (d : BitVec 4) (a : BitVec 4) (i : BitVec 18) : Statement (.naddi d a i) := by
  intro h
  show decodeNbu _ = _
  simp (disch := decide) only [decodeNbu, ext_hi, ext_lo, ext_self, Nat.reduceSub,
    BitVec.extractLsb'_toNat, BitVec.ofNat_eq_ofNat, BitVec.toNat_ofNat, Nat.reducePow, Nat.reduceMod, Nat.reduceShiftRight,
    Nat.zero_shiftRight, Nat.zero_mod]

theorem nsub (d : BitVec 4) (a : BitVec 4) (b : BitVec 4) : Statement (.nsub d a b) := by
  intro h
  show decodeNbu _ = _
  simp (disch := decide) only [decodeNbu, ext_hi, ext_lo, ext_self, Nat.reduceSub,
    BitVec.extractLsb'_toNat, BitVec.ofNat_eq_ofNat, BitVec.toNat_ofNat, Nat.reducePow, Nat.reduceMod, Nat.reduceShiftRight,
    Nat.zero_shiftRight, Nat.zero_mod]

theorem nand (d : BitVec 4) (a : BitVec 4) (b : BitVec 4) : Statement (.nand d a b) := by
  intro h
  show decodeNbu _ = _
  simp (disch := decide) only [decodeNbu, ext_hi, ext_lo, ext_self, Nat.reduceSub,
    BitVec.extractLsb'_toNat, BitVec.ofNat_eq_ofNat, BitVec.toNat_ofNat, Nat.reducePow, Nat.reduceMod, Nat.reduceShiftRight,
    Nat.zero_shiftRight, Nat.zero_mod]

theorem nor (d : BitVec 4) (a : BitVec 4) (b : BitVec 4) : Statement (.nor d a b) := by
  intro h
  show decodeNbu _ = _
  simp (disch := decide) only [decodeNbu, ext_hi, ext_lo, ext_self, Nat.reduceSub,
    BitVec.extractLsb'_toNat, BitVec.ofNat_eq_ofNat, BitVec.toNat_ofNat, Nat.reducePow, Nat.reduceMod, Nat.reduceShiftRight,
    Nat.zero_shiftRight, Nat.zero_mod]

theorem nshl (d : BitVec 4) (a : BitVec 4) (b : BitVec 4) : Statement (.nshl d a b) := by
  intro h
  show decodeNbu _ = _
  simp (disch := decide) only [decodeNbu, ext_hi, ext_lo, ext_self, Nat.reduceSub,
    BitVec.extractLsb'_toNat, BitVec.ofNat_eq_ofNat, BitVec.toNat_ofNat, Nat.reducePow, Nat.reduceMod, Nat.reduceShiftRight,
    Nat.zero_shiftRight, Nat.zero_mod]

theorem nshr (d : BitVec 4) (a : BitVec 4) (b : BitVec 4) : Statement (.nshr d a b) := by
  intro h
  show decodeNbu _ = _
  simp (disch := decide) only [decodeNbu, ext_hi, ext_lo, ext_self, Nat.reduceSub,
    BitVec.extractLsb'_toNat, BitVec.ofNat_eq_ofNat, BitVec.toNat_ofNat, Nat.reducePow, Nat.reduceMod, Nat.reduceShiftRight,
    Nat.zero_shiftRight, Nat.zero_mod]

theorem nli (d : BitVec 4) (h : BitVec 1) (i : BitVec 21) : Statement (.nli d h i) := by
  intro h
  show decodeNbu _ = _
  simp (disch := decide) only [decodeNbu, ext_hi, ext_lo, ext_self, Nat.reduceSub,
    BitVec.extractLsb'_toNat, BitVec.ofNat_eq_ofNat, BitVec.toNat_ofNat, Nat.reducePow, Nat.reduceMod, Nat.reduceShiftRight,
    Nat.zero_shiftRight, Nat.zero_mod]

theorem nmul (d : BitVec 4) (a : BitVec 4) (b : BitVec 4) : Statement (.nmul d a b) := by
  intro h
  show decodeNbu _ = _
  simp (disch := decide) only [decodeNbu, ext_hi, ext_lo, ext_self, Nat.reduceSub,
    BitVec.extractLsb'_toNat, BitVec.ofNat_eq_ofNat, BitVec.toNat_ofNat, Nat.reducePow, Nat.reduceMod, Nat.reduceShiftRight,
    Nat.zero_shiftRight, Nat.zero_mod]

theorem nbnz (a : BitVec 4) (f : BitVec 18) : Statement (.nbnz a f) := by
  intro h
  show decodeNbu _ = _
  simp (disch := decide) only [decodeNbu, ext_hi, ext_lo, ext_self, Nat.reduceSub,
    BitVec.extractLsb'_toNat, BitVec.ofNat_eq_ofNat, BitVec.toNat_ofNat, Nat.reducePow, Nat.reduceMod, Nat.reduceShiftRight,
    Nat.zero_shiftRight, Nat.zero_mod]

theorem njmp (f : BitVec 18) : Statement (.njmp f) := by
  intro h
  show decodeNbu _ = _
  simp (disch := decide) only [decodeNbu, ext_hi, ext_lo, ext_self, Nat.reduceSub,
    BitVec.extractLsb'_toNat, BitVec.ofNat_eq_ofNat, BitVec.toNat_ofNat, Nat.reducePow, Nat.reduceMod, Nat.reduceShiftRight,
    Nat.zero_shiftRight, Nat.zero_mod]

theorem nloop (r : BitVec 4) (a : BitVec 4) (l : BitVec 10) : Statement (.nloop r a l) := by
  intro h
  show decodeNbu _ = _
  simp (disch := decide) only [decodeNbu, ext_hi, ext_lo, ext_self, Nat.reduceSub,
    BitVec.extractLsb'_toNat, BitVec.ofNat_eq_ofNat, BitVec.toNat_ofNat, Nat.reducePow, Nat.reduceMod, Nat.reduceShiftRight,
    Nat.zero_shiftRight, Nat.zero_mod]

theorem nact (b : BitVec 2) (a : BitVec 4) : Statement (.nact b a) := by
  intro h
  show decodeNbu _ = _
  simp (disch := decide) only [decodeNbu, ext_hi, ext_lo, ext_self, Nat.reduceSub,
    BitVec.extractLsb'_toNat, BitVec.ofNat_eq_ofNat, BitVec.toNat_ofNat, Nat.reducePow, Nat.reduceMod, Nat.reduceShiftRight,
    Nat.zero_shiftRight, Nat.zero_mod]

theorem npre (b : BitVec 2) (g : BitVec 1) : Statement (.npre b g) := by
  intro h
  show decodeNbu _ = _
  simp (disch := decide) only [decodeNbu, ext_hi, ext_lo, ext_self, Nat.reduceSub,
    BitVec.extractLsb'_toNat, BitVec.ofNat_eq_ofNat, BitVec.toNat_ofNat, Nat.reducePow, Nat.reduceMod, Nat.reduceShiftRight,
    Nat.zero_shiftRight, Nat.zero_mod]

theorem nrdw (b : BitVec 2) (w : BitVec 1) (a : BitVec 4) (i : BitVec 6) : Statement (.nrdw b w a i) := by
  intro h
  show decodeNbu _ = _
  simp (disch := decide) only [decodeNbu, ext_hi, ext_lo, ext_self, Nat.reduceSub,
    BitVec.extractLsb'_toNat, BitVec.ofNat_eq_ofNat, BitVec.toNat_ofNat, Nat.reducePow, Nat.reduceMod, Nat.reduceShiftRight,
    Nat.zero_shiftRight, Nat.zero_mod]

theorem ndot (q : BitVec 3) (w : BitVec 1) (g : BitVec 2) (f : BitVec 1) (s : BitVec 4) (o : BitVec 5) : Statement (.ndot q w g f s o) := by
  intro h
  show decodeNbu _ = _
  simp (disch := decide) only [decodeNbu, ext_hi, ext_lo, ext_self, Nat.reduceSub,
    BitVec.extractLsb'_toNat, BitVec.ofNat_eq_ofNat, BitVec.toNat_ofNat, Nat.reducePow, Nat.reduceMod, Nat.reduceShiftRight,
    Nat.zero_shiftRight, Nat.zero_mod]

theorem ndotb (q : BitVec 3) (p : BitVec 1) (a : BitVec 4) (l : BitVec 3) (f : BitVec 1) (o : BitVec 5) (e : BitVec 4) : Statement (.ndotb q p a l f o e) := by
  intro h
  show decodeNbu _ = _
  simp (disch := decide) only [decodeNbu, ext_hi, ext_lo, ext_self, Nat.reduceSub,
    BitVec.extractLsb'_toNat, BitVec.ofNat_eq_ofNat, BitVec.toNat_ofNat, Nat.reducePow, Nat.reduceMod, Nat.reduceShiftRight,
    Nat.zero_shiftRight, Nat.zero_mod]

theorem nwrq (b : BitVec 2) (a : BitVec 4) (s : BitVec 3) (w : BitVec 1) (c : BitVec 1) : Statement (.nwrq b a s w c) := by
  intro h
  show decodeNbu _ = _
  simp (disch := decide) only [decodeNbu, ext_hi, ext_lo, ext_self, Nat.reduceSub,
    BitVec.extractLsb'_toNat, BitVec.ofNat_eq_ofNat, BitVec.toNat_ofNat, Nat.reducePow, Nat.reduceMod, Nat.reduceShiftRight,
    Nat.zero_shiftRight, Nat.zero_mod]

theorem nlda (w : BitVec 1) (o : BitVec 5) : Statement (.nlda w o) := by
  intro h
  show decodeNbu _ = _
  simp (disch := decide) only [decodeNbu, ext_hi, ext_lo, ext_self, Nat.reduceSub,
    BitVec.extractLsb'_toNat, BitVec.ofNat_eq_ofNat, BitVec.toNat_ofNat, Nat.reducePow, Nat.reduceMod, Nat.reduceShiftRight,
    Nat.zero_shiftRight, Nat.zero_mod]

theorem nsync : Statement .nsync := by
  intro h
  show decodeNbu _ = _
  simp (disch := decide) only [decodeNbu, ext_hi, ext_lo, ext_self, Nat.reduceSub,
    BitVec.extractLsb'_toNat, BitVec.ofNat_eq_ofNat, BitVec.toNat_ofNat, Nat.reducePow, Nat.reduceMod, Nat.reduceShiftRight,
    Nat.zero_shiftRight, Nat.zero_mod]

theorem ndone : Statement .ndone := by
  intro h
  show decodeNbu _ = _
  simp (disch := decide) only [decodeNbu, ext_hi, ext_lo, ext_self, Nat.reduceSub,
    BitVec.extractLsb'_toNat, BitVec.ofNat_eq_ofNat, BitVec.toNat_ofNat, Nat.reducePow, Nat.reduceMod, Nat.reduceShiftRight,
    Nat.zero_shiftRight, Nat.zero_mod]

theorem gnest (p : BitVec 2) (l : BitVec 3) (ext : BitVec 1) (c : BitVec 21) (cx : BitVec 32) : Statement (.gnest p l ext c cx) := by
  intro h
  refine .inr fun rest => ?_
  rw [show encodeGlean (.gnest p l ext c cx) = ((0 : BitVec 5) ++ p ++ l ++ ext ++ c) :: (if ext = 1 then [cx] else []) from rfl]
  have h0 : (ext == 1 || cx == 0) = true := (Bool.and_eq_true _ _ ▸ h).2
  by_cases hx : ext = 1
  · subst hx
    simp (disch := decide) only [decodeGlean, List.cons_append, List.nil_append, List.getD_cons_zero, List.getD_cons_succ, List.length_cons, List.length_nil, ext64_halves, if_true, ext_hi, ext_lo, ext_self, Nat.reduceSub,
    BitVec.extractLsb'_toNat, BitVec.ofNat_eq_ofNat, BitVec.toNat_ofNat, Nat.reducePow, Nat.reduceMod, Nat.reduceShiftRight,
    Nat.zero_shiftRight, Nat.zero_mod]
  · have h1 : cx = 0 := ((Bool.or_eq_true _ _).mp h0).elim (fun e => absurd (eq_of_beq e) hx) eq_of_beq
    subst h1
    have hx : ¬ ext = 1#1 := hx
    simp (disch := decide) only [decodeGlean, List.cons_append, List.nil_append, List.getD_cons_zero, List.getD_cons_succ, List.length_cons, List.length_nil, ext64_halves, hx, if_false, ext_hi, ext_lo, ext_self, Nat.reduceSub,
    BitVec.extractLsb'_toNat, BitVec.ofNat_eq_ofNat, BitVec.toNat_ofNat, Nat.reducePow, Nat.reduceMod, Nat.reduceShiftRight,
    Nat.zero_shiftRight, Nat.zero_mod]

theorem gstrd (p : BitVec 2) (l : BitVec 3) (ext : BitVec 1) (s : BitVec 1) (i : BitVec 20) (sx : BitVec 64) : Statement (.gstrd p l ext s i sx) := by
  intro h
  refine .inr fun rest => ?_
  rw [show encodeGlean (.gstrd p l ext s i sx) = ((1 : BitVec 5) ++ p ++ l ++ ext ++ s ++ i) :: (if ext = 1 then [sx.extractLsb' 0 32, sx.extractLsb' 32 32] else []) from rfl]
  have h0 : (ext == 1 || sx == 0) = true := (Bool.and_eq_true _ _ ▸ h).2
  by_cases hx : ext = 1
  · subst hx
    simp (disch := decide) only [decodeGlean, List.cons_append, List.nil_append, List.getD_cons_zero, List.getD_cons_succ, List.length_cons, List.length_nil, ext64_halves, if_true, ext_hi, ext_lo, ext_self, Nat.reduceSub,
    BitVec.extractLsb'_toNat, BitVec.ofNat_eq_ofNat, BitVec.toNat_ofNat, Nat.reducePow, Nat.reduceMod, Nat.reduceShiftRight,
    Nat.zero_shiftRight, Nat.zero_mod]
  · have h1 : sx = 0 := ((Bool.or_eq_true _ _).mp h0).elim (fun e => absurd (eq_of_beq e) hx) eq_of_beq
    subst h1
    have hx : ¬ ext = 1#1 := hx
    simp (disch := decide) only [decodeGlean, List.cons_append, List.nil_append, List.getD_cons_zero, List.getD_cons_succ, List.length_cons, List.length_nil, ext64_halves, hx, if_false, ext_hi, ext_lo, ext_self, Nat.reduceSub,
    BitVec.extractLsb'_toNat, BitVec.ofNat_eq_ofNat, BitVec.toNat_ofNat, Nat.reducePow, Nat.reduceMod, Nat.reduceShiftRight,
    Nat.zero_shiftRight, Nat.zero_mod]

theorem gbase (p : BitVec 2) (w : BitVec 1) (ext : BitVec 64) : Statement (.gbase p w ext) := by
  intro h
  refine .inr fun rest => ?_
  rw [show encodeGlean (.gbase p w ext) = [(2 : BitVec 5) ++ p ++ w ++ (0 : BitVec 24), ext.extractLsb' 0 32, ext.extractLsb' 32 32] from rfl]
  simp (disch := decide) only [decodeGlean, List.cons_append, List.nil_append, List.getD_cons_zero, List.getD_cons_succ, List.length_cons, List.length_nil, ext64_halves, ext_hi, ext_lo, ext_self, Nat.reduceSub,
    BitVec.extractLsb'_toNat, BitVec.ofNat_eq_ofNat, BitVec.toNat_ofNat, Nat.reducePow, Nat.reduceMod, Nat.reduceShiftRight,
    Nat.zero_shiftRight, Nat.zero_mod]

theorem gbaseAdd (p : BitVec 2) (w : BitVec 1) (i : BitVec 22) : Statement (.gbaseAdd p w i) := by
  intro h
  refine .inr fun rest => ?_
  rw [show encodeGlean (.gbaseAdd p w i) = [(2 : BitVec 5) ++ p ++ w ++ (1 : BitVec 2) ++ i] from rfl]
  simp (disch := decide) only [decodeGlean, List.cons_append, List.nil_append, List.getD_cons_zero, List.getD_cons_succ, List.length_cons, List.length_nil, ext64_halves, ext_hi, ext_lo, ext_self, Nat.reduceSub,
    BitVec.extractLsb'_toNat, BitVec.ofNat_eq_ofNat, BitVec.toNat_ofNat, Nat.reducePow, Nat.reduceMod, Nat.reduceShiftRight,
    Nat.zero_shiftRight, Nat.zero_mod]

theorem gbaseInd (p : BitVec 2) (w : BitVec 1) (ext : BitVec 64) : Statement (.gbaseInd p w ext) := by
  intro h
  refine .inr fun rest => ?_
  rw [show encodeGlean (.gbaseInd p w ext) = [(2 : BitVec 5) ++ p ++ w ++ (2 : BitVec 2) ++ (0 : BitVec 22), ext.extractLsb' 0 32, ext.extractLsb' 32 32] from rfl]
  simp (disch := decide) only [decodeGlean, List.cons_append, List.nil_append, List.getD_cons_zero, List.getD_cons_succ, List.length_cons, List.length_nil, ext64_halves, ext_hi, ext_lo, ext_self, Nat.reduceSub,
    BitVec.extractLsb'_toNat, BitVec.ofNat_eq_ofNat, BitVec.toNat_ofNat, Nat.reducePow, Nat.reduceMod, Nat.reduceShiftRight,
    Nat.zero_shiftRight, Nat.zero_mod]

theorem gfmt (p : BitVec 2) (t : BitVec 4) (s : BitVec 1) (d : BitVec 20) : Statement (.gfmt p t s d) := by
  intro h
  refine .inr fun rest => ?_
  rw [show encodeGlean (.gfmt p t s d) = [(3 : BitVec 5) ++ p ++ t ++ s ++ d] from rfl]
  simp (disch := decide) only [decodeGlean, List.cons_append, List.nil_append, List.getD_cons_zero, List.getD_cons_succ, List.length_cons, List.length_nil, ext64_halves, ext_hi, ext_lo, ext_self, Nat.reduceSub,
    BitVec.extractLsb'_toNat, BitVec.ofNat_eq_ofNat, BitVec.toNat_ofNat, Nat.reducePow, Nat.reduceMod, Nat.reduceShiftRight,
    Nat.zero_shiftRight, Nat.zero_mod]

theorem gwaitDrain : Statement .gwaitDrain := by
  intro h
  refine .inr fun rest => ?_
  rw [show encodeGlean .gwaitDrain = [(4 : BitVec 5) ++ (0 : BitVec 27)] from rfl]
  simp (disch := decide) only [decodeGlean, List.cons_append, List.nil_append, List.getD_cons_zero, List.getD_cons_succ, List.length_cons, List.length_nil, ext64_halves, ext_hi, ext_lo, ext_self, Nat.reduceSub,
    BitVec.extractLsb'_toNat, BitVec.ofNat_eq_ofNat, BitVec.toNat_ofNat, Nat.reducePow, Nat.reduceMod, Nat.reduceShiftRight,
    Nat.zero_shiftRight, Nat.zero_mod]

theorem gwaitGen (i : BitVec 22) (ext : BitVec 64) : Statement (.gwaitGen i ext) := by
  intro h
  refine .inr fun rest => ?_
  rw [show encodeGlean (.gwaitGen i ext) = [(4 : BitVec 5) ++ (1 : BitVec 2) ++ (0 : BitVec 3) ++ i, ext.extractLsb' 0 32, ext.extractLsb' 32 32] from rfl]
  simp (disch := decide) only [decodeGlean, List.cons_append, List.nil_append, List.getD_cons_zero, List.getD_cons_succ, List.length_cons, List.length_nil, ext64_halves, ext_hi, ext_lo, ext_self, Nat.reduceSub,
    BitVec.extractLsb'_toNat, BitVec.ofNat_eq_ofNat, BitVec.toNat_ofNat, Nat.reducePow, Nat.reduceMod, Nat.reduceShiftRight,
    Nat.zero_shiftRight, Nat.zero_mod]

theorem gpush (p : BitVec 2) (l : BitVec 3) : Statement (.gpush p l) := by
  intro h
  refine .inr fun rest => ?_
  rw [show encodeGlean (.gpush p l) = [(5 : BitVec 5) ++ p ++ l ++ (0 : BitVec 22)] from rfl]
  simp (disch := decide) only [decodeGlean, List.cons_append, List.nil_append, List.getD_cons_zero, List.getD_cons_succ, List.length_cons, List.length_nil, ext64_halves, ext_hi, ext_lo, ext_self, Nat.reduceSub,
    BitVec.extractLsb'_toNat, BitVec.ofNat_eq_ofNat, BitVec.toNat_ofNat, Nat.reducePow, Nat.reduceMod, Nat.reduceShiftRight,
    Nat.zero_shiftRight, Nat.zero_mod]

theorem gpostWord (ext : BitVec 64) : Statement (.gpostWord ext) := by
  intro h
  refine .inr fun rest => ?_
  rw [show encodeGlean (.gpostWord ext) = [(6 : BitVec 5) ++ (0 : BitVec 27), ext.extractLsb' 0 32, ext.extractLsb' 32 32] from rfl]
  simp (disch := decide) only [decodeGlean, List.cons_append, List.nil_append, List.getD_cons_zero, List.getD_cons_succ, List.length_cons, List.length_nil, ext64_halves, ext_hi, ext_lo, ext_self, Nat.reduceSub,
    BitVec.extractLsb'_toNat, BitVec.ofNat_eq_ofNat, BitVec.toNat_ofNat, Nat.reducePow, Nat.reduceMod, Nat.reduceShiftRight,
    Nat.zero_shiftRight, Nat.zero_mod]

theorem gpostTgu (c : BitVec 16) : Statement (.gpostTgu c) := by
  intro h
  refine .inr fun rest => ?_
  rw [show encodeGlean (.gpostTgu c) = [(6 : BitVec 5) ++ (1 : BitVec 2) ++ (0 : BitVec 9) ++ c] from rfl]
  simp (disch := decide) only [decodeGlean, List.cons_append, List.nil_append, List.getD_cons_zero, List.getD_cons_succ, List.length_cons, List.length_nil, ext64_halves, ext_hi, ext_lo, ext_self, Nat.reduceSub,
    BitVec.extractLsb'_toNat, BitVec.ofNat_eq_ofNat, BitVec.toNat_ofNat, Nat.reducePow, Nat.reduceMod, Nat.reduceShiftRight,
    Nat.zero_shiftRight, Nat.zero_mod]

theorem glink (ext : BitVec 64) : Statement (.glink ext) := by
  intro h
  refine .inr fun rest => ?_
  rw [show encodeGlean (.glink ext) = [(7 : BitVec 5) ++ (0 : BitVec 27), ext.extractLsb' 0 32, ext.extractLsb' 32 32] from rfl]
  simp (disch := decide) only [decodeGlean, List.cons_append, List.nil_append, List.getD_cons_zero, List.getD_cons_succ, List.length_cons, List.length_nil, ext64_halves, ext_hi, ext_lo, ext_self, Nat.reduceSub,
    BitVec.extractLsb'_toNat, BitVec.ofNat_eq_ofNat, BitVec.toNat_ofNat, Nat.reducePow, Nat.reduceMod, Nat.reduceShiftRight,
    Nat.zero_shiftRight, Nat.zero_mod]
  rfl

theorem glinkInd (ext : BitVec 64) : Statement (.glinkInd ext) := by
  intro h
  refine .inr fun rest => ?_
  rw [show encodeGlean (.glinkInd ext) = [(7 : BitVec 5) ++ (1 : BitVec 1) ++ (0 : BitVec 26), ext.extractLsb' 0 32, ext.extractLsb' 32 32] from rfl]
  simp (disch := decide) only [decodeGlean, List.cons_append, List.nil_append, List.getD_cons_zero, List.getD_cons_succ, List.length_cons, List.length_nil, ext64_halves, ext_hi, ext_lo, ext_self, Nat.reduceSub,
    BitVec.extractLsb'_toNat, BitVec.ofNat_eq_ofNat, BitVec.toNat_ofNat, Nat.reducePow, Nat.reduceMod, Nat.reduceShiftRight,
    Nat.zero_shiftRight, Nat.zero_mod]
  rfl

theorem gloop (l : BitVec 10) (c : BitVec 17) : Statement (.gloop l c) := by
  intro h
  refine .inr fun rest => ?_
  rw [show encodeGlean (.gloop l c) = [(8 : BitVec 5) ++ l ++ c] from rfl]
  simp (disch := decide) only [decodeGlean, List.cons_append, List.nil_append, List.getD_cons_zero, List.getD_cons_succ, List.length_cons, List.length_nil, ext64_halves, ext_hi, ext_lo, ext_self, Nat.reduceSub,
    BitVec.extractLsb'_toNat, BitVec.ofNat_eq_ofNat, BitVec.toNat_ofNat, Nat.reducePow, Nat.reduceMod, Nat.reduceShiftRight,
    Nat.zero_shiftRight, Nat.zero_mod]

theorem gflag (i : BitVec 22) (ext : BitVec 64) : Statement (.gflag i ext) := by
  intro h
  refine .inr fun rest => ?_
  rw [show encodeGlean (.gflag i ext) = [(9 : BitVec 5) ++ (0 : BitVec 5) ++ i, ext.extractLsb' 0 32, ext.extractLsb' 32 32] from rfl]
  simp (disch := decide) only [decodeGlean, List.cons_append, List.nil_append, List.getD_cons_zero, List.getD_cons_succ, List.length_cons, List.length_nil, ext64_halves, ext_hi, ext_lo, ext_self, Nat.reduceSub,
    BitVec.extractLsb'_toNat, BitVec.ofNat_eq_ofNat, BitVec.toNat_ofNat, Nat.reducePow, Nat.reduceMod, Nat.reduceShiftRight,
    Nat.zero_shiftRight, Nat.zero_mod]

theorem gend : Statement .gend := by
  intro h
  refine .inr fun rest => ?_
  rw [show encodeGlean .gend = [(10 : BitVec 5) ++ (0 : BitVec 27)] from rfl]
  simp (disch := decide) only [decodeGlean, List.cons_append, List.nil_append, List.getD_cons_zero, List.getD_cons_succ, List.length_cons, List.length_nil, ext64_halves, ext_hi, ext_lo, ext_self, Nat.reduceSub,
    BitVec.extractLsb'_toNat, BitVec.ofNat_eq_ofNat, BitVec.toNat_ofNat, Nat.reducePow, Nat.reduceMod, Nat.reduceShiftRight,
    Nat.zero_shiftRight, Nat.zero_mod]

theorem notAnInstruction (reason : Nat) : Statement (.notAnInstruction reason) := fun _ => .inl rfl

theorem userTrapDeliver (slot : Nat) : Statement (.userTrapDeliver slot) := fun _ => .inl rfl

theorem engineQueueIssue (slot : Nat) (queue : Nat) : Statement (.engineQueueIssue slot queue) := fun _ => .inl rfl

theorem resultWriteBack (slot : Nat) : Statement (.resultWriteBack slot) := fun _ => .inl rfl

theorem accessPerformed (slot : Nat) (id : Nat) : Statement (.accessPerformed slot id) := fun _ => .inl rfl

theorem waitConditionMet (slot : Nat) : Statement (.waitConditionMet slot) := fun _ => .inl rfl

theorem homeSliceAtomic (slot : Nat) (id : Nat) : Statement (.homeSliceAtomic slot id) := fun _ => .inl rfl

theorem pageWalk (space : Nat) (va : Nat) : Statement (.pageWalk space va) := fun _ => .inl rfl

theorem taskRetire (slot : Nat) : Statement (.taskRetire slot) := fun _ => .inl rfl

theorem tguDispatch (pick : Nat) : Statement (.tguDispatch pick) := fun _ => .inl rfl

theorem transferOpRetire (core : Nat) (id : Nat) : Statement (.transferOpRetire core id) := fun _ => .inl rfl

theorem matrixOpRetire (slot : Nat) (id : Nat) : Statement (.matrixOpRetire slot id) := fun _ => .inl rfl

theorem helperEnd (slot : Nat) : Statement (.helperEnd slot) := fun _ => .inl rfl

theorem waitvReread (slot : Nat) : Statement (.waitvReread slot) := fun _ => .inl rfl

theorem checkpoint (slot : Nat) : Statement (.checkpoint slot) := fun _ => .inl rfl

theorem launchWrite (rec : BitVec 512) : Statement (.launchWrite rec) := fun _ => .inl rfl

theorem replayStart (g : Nat) : Statement (.replayStart g) := fun _ => .inl rfl

theorem pload (ch : Nat) : Statement (.pload ch) := fun _ => .inl rfl

theorem pactb (ch : Nat) : Statement (.pactb ch) := fun _ => .inl rfl

theorem pstart (ch : Nat) : Statement (.pstart ch) := fun _ => .inl rfl

theorem pgrant (ch : Nat) : Statement (.pgrant ch) := fun _ => .inl rfl

theorem prevoke (ch : Nat) : Statement (.prevoke ch) := fun _ => .inl rfl

theorem pstat (ch : Nat) : Statement (.pstat ch) := fun _ => .inl rfl

theorem gram : Statement .gram := fun _ => .inl rfl

theorem initW : Statement .initW := fun _ => .inl rfl

theorem stepW : Statement .stepW := fun _ => .inl rfl

theorem steprW : Statement .steprW := fun _ => .inl rfl

theorem launchActivate (g : Nat) : Statement (.launchActivate g) := fun _ => .inl rfl

theorem replaySettle (g : Nat) (n : Nat) : Statement (.replaySettle g n) := fun _ => .inl rfl

theorem taskRestore (task : Nat) (pick : Nat) : Statement (.taskRestore task pick) := fun _ => .inl rfl

theorem coreWakeComplete (core : Nat) : Statement (.coreWakeComplete core) := fun _ => .inl rfl

theorem tguCounterSignal : Statement .tguCounterSignal := fun _ => .inl rfl

theorem barrierRelease (key : Nat) : Statement (.barrierRelease key) := fun _ => .inl rfl

theorem watchdogExpire (slot : Nat) : Statement (.watchdogExpire slot) := fun _ => .inl rfl

theorem tlbEvict (tier : Nat) (idx : Nat) : Statement (.tlbEvict tier idx) := fun _ => .inl rfl

theorem tinvComplete : Statement .tinvComplete := fun _ => .inl rfl

theorem deliveredCopyOffer (idx : Nat) : Statement (.deliveredCopyOffer idx) := fun _ => .inl rfl

theorem leaseGrant (cluster : Nat) (idx : Nat) : Statement (.leaseGrant cluster idx) := fun _ => .inl rfl

theorem sectionRearbitrate (cluster : Nat) (sec : Nat) : Statement (.sectionRearbitrate cluster sec) := fun _ => .inl rfl

theorem recalibrationStart (cluster : Nat) (sec : Nat) : Statement (.recalibrationStart cluster sec) := fun _ => .inl rfl

theorem recalibrationEnd (cluster : Nat) (sec : Nat) (ok : Bool) (bad : List Nat) : Statement (.recalibrationEnd cluster sec ok bad) := fun _ => .inl rfl

theorem ringClaim (filler : Nat) : Statement (.ringClaim filler) := fun _ => .inl rfl

theorem gleanerPushRetire (ctx : Nat) (id : Nat) : Statement (.gleanerPushRetire ctx id) := fun _ => .inl rfl

theorem cocfgWrite (slot : Nat) : Statement (.cocfgWrite slot) := fun _ => .inl rfl

theorem shapeCsrWrite (slot : Nat) : Statement (.shapeCsrWrite slot) := fun _ => .inl rfl

theorem attnComplete (id : Nat) (parity : Bool) : Statement (.attnComplete id parity) := fun _ => .inl rfl

theorem attnAbsentRetry (id : Nat) : Statement (.attnAbsentRetry id) := fun _ => .inl rfl

theorem attnAbsentTimeout (id : Nat) : Statement (.attnAbsentTimeout id) := fun _ => .inl rfl

theorem sampleComplete : Statement .sampleComplete := fun _ => .inl rfl

theorem reduceComplete (engine : Nat) (parity : Bool) : Statement (.reduceComplete engine parity) := fun _ => .inl rfl

theorem pimldApply (ch : Nat) : Statement (.pimldApply ch) := fun _ => .inl rfl

theorem pimRunStart (ch : Nat) : Statement (.pimRunStart ch) := fun _ => .inl rfl

theorem pimRunComplete (id : Nat) : Statement (.pimRunComplete id) := fun _ => .inl rfl

theorem nbuDatapathLand (nbu : Nat) (thread : Nat) : Statement (.nbuDatapathLand nbu thread) := fun _ => .inl rfl

theorem mcsLatencyCut (ch : Nat) (nbu : Nat) (banks : BitVec 4) : Statement (.mcsLatencyCut ch nbu banks) := fun _ => .inl rfl

theorem mcsBankRegrant (ch : Nat) (nbu : Nat) : Statement (.mcsBankRegrant ch nbu) := fun _ => .inl rfl

theorem mcsRefresh (ch : Nat) : Statement (.mcsRefresh ch) := fun _ => .inl rfl

theorem nbuRevokeTimeout (nbu : Nat) : Statement (.nbuRevokeTimeout nbu) := fun _ => .inl rfl

theorem nbuStallTimeout (nbu : Nat) : Statement (.nbuStallTimeout nbu) := fun _ => .inl rfl

theorem patrolScrub (ch : Nat) : Statement (.patrolScrub ch) := fun _ => .inl rfl

theorem hostMemRead (dec1 : Bool) (off : Nat) (len : Nat) (cached : Option Bool) : Statement (.hostMemRead dec1 off len cached) := fun _ => .inl rfl

theorem hostMemWrite (dec1 : Bool) (off : Nat) (data : List (BitVec 8)) : Statement (.hostMemWrite dec1 off data) := fun _ => .inl rfl

theorem hostSnoop (line : Nat) : Statement (.hostSnoop line) := fun _ => .inl rfl

theorem bisnpResponse (line : Nat) (data : Option (List (BitVec 8))) : Statement (.bisnpResponse line data) := fun _ => .inl rfl

theorem persistentRequest (line : Nat) (core : Nat) : Statement (.persistentRequest line core) := fun _ => .inl rfl

theorem directorySilentDrop (cluster : Option Nat) (key : Nat) : Statement (.directorySilentDrop cluster key) := fun _ => .inl rfl

theorem discoveryStormHold (slice : Nat) : Statement (.discoveryStormHold slice) := fun _ => .inl rfl

theorem discoveryStormEnd : Statement .discoveryStormEnd := fun _ => .inl rfl

theorem dlvqWindowStart (core : Nat) : Statement (.dlvqWindowStart core) := fun _ => .inl rfl

theorem powerStateEnter : Statement .powerStateEnter := fun _ => .inl rfl

theorem powerStateExit : Statement .powerStateExit := fun _ => .inl rfl

theorem powerExitComplete : Statement .powerExitComplete := fun _ => .inl rfl

theorem coreGate (core : Nat) : Statement (.coreGate core) := fun _ => .inl rfl

theorem powerLimitWindow (avg : Nat) : Statement (.powerLimitWindow avg) := fun _ => .inl rfl

theorem supplySag : Statement .supplySag := fun _ => .inl rfl

theorem sagEnd : Statement .sagEnd := fun _ => .inl rfl

theorem supplyCritical : Statement .supplyCritical := fun _ => .inl rfl

theorem clockRestart : Statement .clockRestart := fun _ => .inl rfl

theorem supplyRetentionLoss (pmdHeld : Bool) : Statement (.supplyRetentionLoss pmdHeld) := fun _ => .inl rfl

theorem powerOnBoot (flash : List (BitVec 8)) : Statement (.powerOnBoot flash) := fun _ => .inl rfl

theorem firmwareReady (trained : Bool) (digest : BitVec 256) : Statement (.firmwareReady trained digest) := fun _ => .inl rfl

theorem getVersion : Statement .getVersion := fun _ => .inl rfl

theorem getCapabilities : Statement .getCapabilities := fun _ => .inl rfl

theorem negotiateAlgorithms : Statement .negotiateAlgorithms := fun _ => .inl rfl

theorem getDigests : Statement .getDigests := fun _ => .inl rfl

theorem getCertificate : Statement .getCertificate := fun _ => .inl rfl

theorem challenge (nonce : BitVec 256) : Statement (.challenge nonce) := fun _ => .inl rfl

theorem getMeasurements (nonce : BitVec 256) : Statement (.getMeasurements nonce) := fun _ => .inl rfl

theorem leaseProbe (line : Nat) : Statement (.leaseProbe line) := fun _ => .inl rfl

theorem leaseExpire (line : Nat) (agent : Nat) : Statement (.leaseExpire line agent) := fun _ => .inl rfl

theorem heartbeatPoll (answered : BitVec 17) : Statement (.heartbeatPoll answered) := fun _ => .inl rfl

theorem flitError : Statement .flitError := fun _ => .inl rfl

theorem linkDown : Statement .linkDown := fun _ => .inl rfl

theorem linkRetrained : Statement .linkRetrained := fun _ => .inl rfl

theorem linkDownTimeout : Statement .linkDownTimeout := fun _ => .inl rfl

theorem cxlCacheTimeout (line : Nat) : Statement (.cxlCacheTimeout line) := fun _ => .inl rfl

theorem hotReset : Statement .hotReset := fun _ => .inl rfl

theorem fwload (readOk : Bool) : Statement (.fwload readOk) := fun _ => .inl rfl

theorem mrextend (readOk : Bool) : Statement (.mrextend readOk) := fun _ => .inl rfl

theorem nopM : Statement .nopM := fun _ => .inl rfl

theorem mailboxCommandDone : Statement .mailboxCommandDone := fun _ => .inl rfl

theorem loadG : Statement .loadG := fun _ => .inl rfl

theorem unloadG : Statement .unloadG := fun _ => .inl rfl

theorem publishG : Statement .publishG := fun _ => .inl rfl

theorem stripe : Statement .stripe := fun _ => .inl rfl

theorem unstripe : Statement .unstripe := fun _ => .inl rfl

theorem restripe : Statement .restripe := fun _ => .inl rfl

theorem requant : Statement .requant := fun _ => .inl rfl

theorem tinvcmdWrite (value : BitVec 64) : Statement (.tinvcmdWrite value) := fun _ => .inl rfl

theorem resumeA (record : Nat) : Statement (.resumeA record) := fun _ => .inl rfl

theorem requeueA (record : Nat) : Statement (.requeueA record) := fun _ => .inl rfl

theorem abortA (record : Nat) : Statement (.abortA record) := fun _ => .inl rfl

theorem fqheadWrite (value : BitVec 64) : Statement (.fqheadWrite value) := fun _ => .inl rfl

theorem deadackWrite (value : BitVec 64) : Statement (.deadackWrite value) := fun _ => .inl rfl

theorem arrdisWrite (cluster : Nat) (value : BitVec 64) : Statement (.arrdisWrite cluster value) := fun _ => .inl rfl

theorem savepoolWrite (value : BitVec 64) : Statement (.savepoolWrite value) := fun _ => .inl rfl

theorem registerWrite (bar2 : Bool) (off : Nat) (len : Nat) (value : BitVec 64) : Statement (.registerWrite bar2 off len value) := fun _ => .inl rfl

end Laws.Encode

end Sys2Proof
end

