-- ==== Sys2Proof/Safety.lean ====
section
/-! DEFINITION. What counts as a safe run: one in which no step ends in a fault or a refusal of the model. -/

namespace Sys2Proof

/-- The outcome is a next state. -/
def Completes {σ φ ρ : Type} (o : Host.Outcome σ φ ρ) : Prop := ∃ t, o = .next t

/-- Every one of the first `n` steps from `s` answers a next state. -/
def SafeFor : Nat → Machine.State → Prop
  | 0, _ => True
  | n + 1, s => ∃ t, Machine.step s = .next t ∧ SafeFor n t

/-- The states a run from `s` reaches. -/
inductive Reaches (s : Machine.State) : Machine.State → Prop where
  | here : Reaches s s
  | step {t u : Machine.State} : Reaches s t → Machine.step t = .next u → Reaches s u

end Sys2Proof
end

