-- ==== Sys2Proof/Certificates/Slice0/Obligations.lean ====
section
/-! DEFINITION. The statements for the provers. Before each group stand the words it is said in: what a rule of the
spec gives as the value, and what the instruction leaves unchanged. -/

namespace Sys2Proof.Claim

open Sys2Proof.Machine

/-! ### Frames -/

/-- Nothing but slot k differs: every byte of memory, every scratchpad, every other slot and every unit is as before. -/
def OnlySlot (k : Nat) (s t : State) : Prop :=
  t = { s with slots := t.slots } ∧ (∀ j, j ≠ k → t.slot j = s.slot j) ∧ ∀ a, byteAt t.mem a = byteAt s.mem a

/-- A word of the ASQ that stores nothing and writes no register but an a register: of slot k only a registers, the
place of the ASQ and the watchdog's mark may differ. -/
def OnlyA (k : Nat) (s t : State) : Prop :=
  OnlySlot k s t ∧ { t.slot k with a := (s.slot k).a, asq := (s.slot k).asq, lastAct := (s.slot k).lastAct,
                                   reported := (s.slot k).reported } = s.slot k
/-- The same for the ESQ and x registers, in interlocked mode. -/
def OnlyX (k : Nat) (s t : State) : Prop :=
  OnlySlot k s t ∧ { t.slot k with x := (s.slot k).x, esq := (s.slot k).esq, lastAct := (s.slot k).lastAct,
                                   reported := (s.slot k).reported } = s.slot k
/-- The same for the helper and h registers. -/
def OnlyH (k : Nat) (s t : State) : Prop :=
  OnlySlot k s t ∧ { t.slot k with helper := (s.slot k).helper, lastAct := (s.slot k).lastAct,
                                   reported := (s.slot k).reported } = s.slot k
    ∧ { (t.slot k).helper with h := (s.slot k).helper.h, pc := (s.slot k).helper.pc, loops := (s.slot k).helper.loops }
      = (s.slot k).helper

/-- A memory event of the ASQ has been issued: p is pending, the ASQ stands at the next word, and of slot k nothing
differs but the pending events, the range checker, the dispatch number, the ASQ, the watchdog's mark, and what was read
ahead of its word and has to be read again (R440). -/
def Issued (k : Nat) (p : Acc) (s t : State) : Prop :=
  p ∈ (t.slot k).pend ∧ (∀ q ∈ (t.slot k).pend, q = p ∨ q ∈ (s.slot k).pend) ∧ (t.slot k).asq = (s.slot k).asq.step
    ∧ OnlySlot k s t ∧ (∀ e ∈ (t.slot k).early, e ∈ (s.slot k).early)
    ∧ { t.slot k with pend := (s.slot k).pend, checker := (s.slot k).checker, nextId := (s.slot k).nextId,
                      early := (s.slot k).early, asq := (s.slot k).asq, lastAct := (s.slot k).lastAct,
                      reported := (s.slot k).reported } = s.slot k

/-- What the ASQ notes of every memory event: where the word stands, when it is taken, and the number the event gets. -/
def event (s : State) : Acc :=
  { pc := s.mySlot.asq.pc, word := s.sel.word, walk := s.mySlot.asq.walk, id := s.mySlot.nextId, since := s.clk }

/-! ### What follows a word -/

/-- The step leads to t, in which no walk of an engine is left waiting (R105). -/
def Goes (i : Instr) (s t : State) : Prop := t.walkStop = none → exec i s = .next t
/-- The steps lead from s through these states, in none of which a walk of an engine is left waiting (R105). -/
def Way : List (Instr × State) → State → Prop
  | [], _ => True
  | (i, t) :: l, s => t.walkStop = none → exec i s = .next t ∧ Way l t
/-- The event e, taken n times, leads from s to t: what a word has left to be done is done. -/
def After : Nat → Instr → State → State → Prop
  | 0, _, s, t => t = s
  | n + 1, e, s, t => ∃ u, exec e s = .next u ∧ After n e u t

/-- Nothing of slot k is on its way: no event is pending, the range checker is empty, nothing has been read ahead, no V word is
queued or in flight, no store of the slot's core waits to become visible, none of another core has been released to it, and no copy
that the slot delivers is on offer. -/
def Settled (k : Nat) (s : State) : Prop :=
  (s.slot k).pend = [] ∧ (s.slot k).checker = [] ∧ (s.slot k).early = [] ∧ mget [] (s.slot k).queues 0 = [] ∧
    (s.slot k).results = [] ∧ (s.core (coreOf k)).l1 = [] ∧ s.dueTo k = false ∧ s.owes (coreOf k) = false ∧
    ∀ o ∈ s.offers, o.slot ≠ k
/-- The memory word that the ASQ takes may be performed as soon as it is issued: nothing of the slot is on its way, and the ESQ has
passed the word (R46). -/
def Clear (s : State) : Prop := Settled s.sel.slot s ∧ s.mySlot.esq.passed s.mySlot.asq.walk = true
/-- Every byte of memory and of every scratchpad, and every slot but k, are as before. -/
def MemoryAndOthersSame (k : Nat) (s t : State) : Prop :=
  (∀ b, byteAt t.mem b = byteAt s.mem b) ∧ (∀ c, (t.core c).sp = (s.core c).sp) ∧ ∀ j, j ≠ k → t.slot j = s.slot j

/-! ### The scalar ALU (R158 to R161) -/

/-- The quotient and remainder of R69: division by zero gives all ones and the dividend, the signed overflow gives the
dividend and 0. -/
def quot (signed : Bool) (a b : Word) : Word :=
  if b = 0 then BitVec.allOnes 64 else if signed then BitVec.ofInt 64 (a.toInt.tdiv b.toInt) else a / b
def rema (signed : Bool) (a b : Word) : Word :=
  if b = 0 then a else if signed then BitVec.ofInt 64 (a.toInt.tmod b.toInt) else a % b

/-- Leading zero bits: the places above the highest one bit. -/
def leadingZeros (a : Word) : Nat := ((List.range 64).takeWhile fun i => !a.getLsbD (63 - i)).length
/-- One bits. -/
def oneBits (a : Word) : Nat := ((List.range 64).filter fun i => a.getLsbD i).length

/-- A row of R159 or R160: the A word, the X word, its destination, the registers it reads, the effect on d, and the
exposed latency. -/
structure ScalarRow where
  a : Instr
  x : Instr
  d : BitVec 5
  reads : List (BitVec 5)
  value : (BitVec 5 → Word) → Word
  lat : Nat

/-- R159 and R160, row by row. -/
def scalarRows (d a b : BitVec 5) (i : BitVec 13) (c : BitVec 6) (j : BitVec 18) : List ScalarRow :=
  let imm : Word := BitVec.ofInt 64 i.toInt
  [⟨.addA d a b, .addX d a b, d, [a, b], fun r => r a + r b, 1⟩,
   ⟨.subA d a b, .subX d a b, d, [a, b], fun r => r a - r b, 1⟩,
   ⟨.andA d a b, .andX d a b, d, [a, b], fun r => r a &&& r b, 1⟩,
   ⟨.orA d a b, .orX d a b, d, [a, b], fun r => r a ||| r b, 1⟩,
   ⟨.xorA d a b, .xorX d a b, d, [a, b], fun r => r a ^^^ r b, 1⟩,
   ⟨.sllA d a b, .sllX d a b, d, [a, b], fun r => r a <<< ((r b).toNat % 64), 1⟩,
   ⟨.srlA d a b, .srlX d a b, d, [a, b], fun r => r a >>> ((r b).toNat % 64), 1⟩,
   ⟨.sraA d a b, .sraX d a b, d, [a, b], fun r => (r a).sshiftRight ((r b).toNat % 64), 1⟩,
   ⟨.sltA d a b, .sltX d a b, d, [a, b], fun r => if (r a).slt (r b) then 1 else 0, 1⟩,
   ⟨.sltnA d a b, .sltnX d a b, d, [a, b], fun r => if (r a).ult (r b) then 1 else 0, 1⟩,
   ⟨.minA d a b, .minX d a b, d, [a, b], fun r => if (r b).slt (r a) then r b else r a, 1⟩,
   ⟨.maxA d a b, .maxX d a b, d, [a, b], fun r => if (r a).slt (r b) then r b else r a, 1⟩,
   ⟨.minnA d a b, .minnX d a b, d, [a, b], fun r => if (r b).ult (r a) then r b else r a, 1⟩,
   ⟨.maxnA d a b, .maxnX d a b, d, [a, b], fun r => if (r a).ult (r b) then r b else r a, 1⟩,
   ⟨.mulA d a b, .mulX d a b, d, [a, b], fun r => r a * r b, 3⟩,
   ⟨.mulhA d a b, .mulhX d a b, d, [a, b],
     fun r => (((r a).signExtend 128) * ((r b).signExtend 128)).extractLsb' 64 64, 4⟩,
   ⟨.mulhnA d a b, .mulhnX d a b, d, [a, b],
     fun r => (((r a).setWidth 128) * ((r b).setWidth 128)).extractLsb' 64 64, 4⟩,
   ⟨.divA d a b, .divX d a b, d, [a, b], fun r => quot true (r a) (r b), 18⟩,
   ⟨.divnA d a b, .divnX d a b, d, [a, b], fun r => quot false (r a) (r b), 18⟩,
   ⟨.remA d a b, .remX d a b, d, [a, b], fun r => rema true (r a) (r b), 18⟩,
   ⟨.remnA d a b, .remnX d a b, d, [a, b], fun r => rema false (r a) (r b), 18⟩,
   ⟨.clzA d a, .clzX d a, d, [a], fun r => BitVec.ofNat 64 (leadingZeros (r a)), 1⟩,
   ⟨.popcA d a, .popcX d a, d, [a], fun r => BitVec.ofNat 64 (oneBits (r a)), 1⟩,
   ⟨.cselA d a b, .cselX d a b, d, [a, b], fun r => if r d = 0 then r b else r a, 1⟩,
   ⟨.addiA d a i, .addiX d a i, d, [a], fun r => r a + imm, 1⟩,
   ⟨.andiA d a i, .andiX d a i, d, [a], fun r => r a &&& imm, 1⟩,
   ⟨.oriA d a i, .oriX d a i, d, [a], fun r => r a ||| imm, 1⟩,
   ⟨.xoriA d a i, .xoriX d a i, d, [a], fun r => r a ^^^ imm, 1⟩,
   ⟨.slliA d a c, .slliX d a c, d, [a], fun r => r a <<< c.toNat, 1⟩,
   ⟨.srliA d a c, .srliX d a c, d, [a], fun r => r a >>> c.toNat, 1⟩,
   ⟨.sraiA d a c, .sraiX d a c, d, [a], fun r => (r a).sshiftRight c.toNat, 1⟩,
   ⟨.sltiA d a i, .sltiX d a i, d, [a], fun r => if (r a).slt imm then 1 else 0, 1⟩,
   ⟨.liA d j, .liX d j, d, [], fun _ => BitVec.ofInt 64 j.toInt, 1⟩,
   ⟨.lixA d j, .lixX d j, d, [], fun r => r d * 2 ^ 18 + BitVec.ofNat 64 j.toNat, 1⟩]

/-- The register of the party that a field names: for the helper by `hnum`, whose values above 7 are open (log entry 7). -/
def regNo (p : Party) (r : BitVec 5) : Nat :=
  match p with
  | .helper => hnum r
  | _ => r.toNat

end Sys2Proof.Claim

section

open Sys2Proof Sys2Proof.Machine Sys2Proof.Claim

/-- R158 to R160: a scalar word of the ASQ whose registers have landed writes the value of its row to d, nothing to
register 0, and changes nothing else; the ASQ stands at the next word. -/
def Obligations.ScalarWordsOfTheAsq : Prop :=
  ∀ (d a b : BitVec 5) (i : BitVec 13) (c : BitVec 6) (j : BitVec 18) (s : State), s.sel.party = .asq →
    ∀ row ∈ scalarRows d a b i c j, (∀ r ∈ row.d :: row.reads, s.mySlot.busyA r = false) →
      ∃ t, exec row.a s = .next t ∧
        (t.slot s.sel.slot).ra d = (if d = 0 then 0 else row.value s.mySlot.ra) ∧
        (∀ r, r ≠ d → (t.slot s.sel.slot).ra r = s.mySlot.ra r) ∧
        (t.slot s.sel.slot).asq = s.mySlot.asq.step ∧ OnlyA s.sel.slot s t

/-- R47, R158 to R160: the same for the helper and its h registers; a field above 7 names the h register of the model's log
entry 7. -/
def Obligations.ScalarWordsOfTheHelper : Prop :=
  ∀ (d a b : BitVec 5) (i : BitVec 13) (c : BitVec 6) (j : BitVec 18) (s : State), s.sel.party = .helper →
    ∀ row ∈ scalarRows d a b i c j,
      ∃ t, exec row.a s = .next t ∧
        (t.slot s.sel.slot).rh d = (if hnum d = 0 then 0 else row.value s.mySlot.rh) ∧
        (∀ r, hnum r ≠ hnum d → (t.slot s.sel.slot).rh r = s.mySlot.rh r) ∧ OnlyH s.sel.slot s t

/-- R57, R158 to R160: a scalar word of the ESQ in interlocked mode writes the value of its row at once. -/
def Sys2Proof.Claim.ScalarWordsOfTheEsqInterlocked : Prop :=
  ∀ (d a b : BitVec 5) (i : BitVec 13) (c : BitVec 6) (j : BitVec 18) (s : State), s.sel.party = .esq →
    s.isMgmt = false → s.mySlot.exposed = false →
    ∀ row ∈ scalarRows d a b i c j, (∀ r ∈ row.d :: row.reads, s.mySlot.busyX r = false) →
      ∃ t, exec row.x s = .next t ∧
        (t.slot s.sel.slot).rx d = (if d = 0 then 0 else row.value s.mySlot.rx) ∧
        (∀ r, r ≠ d → (t.slot s.sel.slot).rx r = s.mySlot.rx r) ∧
        (t.slot s.sel.slot).esq = s.mySlot.esq.step ∧ OnlyX s.sel.slot s t

/-- R58: in exposed mode the word waits for no register; its result joins the results in flight, due as many ticks on
as its latency, and the word takes one tick. -/
def Sys2Proof.Claim.ScalarWordsOfTheEsqExposed : Prop :=
  ∀ (d a b : BitVec 5) (i : BitVec 13) (c : BitVec 6) (j : BitVec 18) (s : State), s.sel.party = .esq →
    s.isMgmt = false → s.mySlot.exposed = true →
    ∀ row ∈ scalarRows d a b i c j,
      exec row.x s = .next (adv s.sel.slot .esq (s.modSlot s.sel.slot fun sl =>
        { sl with results := sl.results ++ [{ due := sl.tick + row.lat, x := some (d.toNat, row.value sl.rx) }] }))

/-- R431, R159, R160: the management core runs the X words with x registers of its own, and waits for nothing; nothing
else changes. -/
def Sys2Proof.Claim.ScalarWordsOfTheManagementCore : Prop :=
  ∀ (d a b : BitVec 5) (i : BitVec 13) (c : BitVec 6) (j : BitVec 18) (s : State), s.isMgmt = true →
    ∀ row ∈ scalarRows d a b i c j,
      exec row.x s = .next { s with mgmt := (s.mgmt.wx d (row.value s.mgmt.rx)).step }

/-- R58: at a tick the results due by then are written in the order of issue, the count goes on by one, and the others
keep their remaining distance. -/
def Sys2Proof.Claim.TickWritesTheResultsDue : Prop :=
  ∀ (k : Nat) (s : State) (d : BitVec 5) (v : Word) (r : Res), d ≠ 0 → r = { due := (s.slot k).tick, x := some (d.toNat, v) } →
    (s.slot k).results = [r] →
      ((tickOnce k s).slot k).rx d = v ∧ ((tickOnce k s).slot k).tick = (s.slot k).tick + 1
        ∧ ((tickOnce k s).slot k).results = [] ∧ OnlySlot k s (tickOnce k s)

end

namespace Sys2Proof.Claim

open Sys2Proof.Machine

/-! ### Access words (R162 to R173) and the events they leave behind -/

/-- Bytes of a size code that is a size (R162). -/
def sizeBytes (z : BitVec 3) : Nat := [1, 2, 4, 8, 1, 2, 4].getD z.toNat 0
/-- What a load writes for the number its bytes make (R162): sign-extended for the .I sizes, zero-extended for .N. -/
def loaded (z : BitVec 3) (v : Nat) : Word :=
  match z.toNat with
  | 0 => (BitVec.ofNat 8 v).signExtend 64
  | 1 => (BitVec.ofNat 16 v).signExtend 64
  | 2 => (BitVec.ofNat 32 v).signExtend 64
  | _ => BitVec.ofNat 64 v

/-- The address of an access: the base register plus the sign-extended offset, modulo 2^64. -/
def addrOf {n : Nat} (s : State) (a : BitVec 5) (o : BitVec n) : Nat := (s.mySlot.ra a + BitVec.ofInt 64 o.toInt).toNat

/-- The word is the ASQ's, and the a registers it names have landed. -/
def AsqReads (s : State) (rs : List (BitVec 5)) : Prop := s.sel.party = .asq ∧ ∀ r ∈ rs, s.mySlot.busyA r = false
/-- Nothing holds a scratchpad access back: n bytes at ea lie in the window, the checker has room, and no SO access of
the slot is pending. -/
def SpFree (s : State) (ea n : Nat) : Prop :=
  ea + n ≤ s.mySlot.spSize ∧ s.mySlot.checker.length < 64 ∧ s.soPending s.sel.slot = false
/-- The n bytes at ea translate to these parts, aligned as asked, and no SO access of the slot is pending. -/
def GlobalFree (s : State) (ea n align : Nat) (w : Want) (parts : List (Nat × Nat × BitVec 2 × Bool)) (dlv str : Bool) :
    Prop :=
  ea < 2 ^ 57 ∧ ea % align = 0 ∧ s.xlAccess s.sel.slot w (pageParts ea n) = .ok parts dlv str
    ∧ s.soPending s.sel.slot = false
/-- The parts may be read: no cell behind them is in error, and the host answers. -/
def Readable (s : State) (parts : List (Nat × Nat × BitVec 2 × Bool)) : Prop :=
  readParts parts s = (none, s) ∧ ∀ x ∈ parts, s.hostErr x.1 x.2.1 = none
/-- The parts may be written: none lies in the memory of a fenced host. -/
def Writable (s : State) (parts : List (Nat × Nat × BitVec 2 × Bool)) : Prop :=
  s.pkg.fenced = false ∨ ∀ x ∈ parts, s.pclass x.1 ≠ .host

/-- The checker's new interval (R45): the bytes of the event, in walk order. -/
def Recorded (k lo n : Nat) (write : Bool) (s t : State) : Prop :=
  (t.slot k).checker = (s.slot k).checker ++
    [{ owner := (s.slot k).nextId, lo := lo, hi := lo + n - 1, write := write, walk := some (s.slot k).asq.walk,
       seq := (s.slot k).nextId + 1 }]

/-- Of slot k nothing differs but the pending events, the range checker, the dispatch number, the load and store queue of number q,
the ASQ and the watchdog's mark. -/
def OnlyQueues (k : Nat) (q : BitVec 5) (s t : State) : Prop :=
  OnlySlot k s t ∧ (∀ e ∈ (t.slot k).early, e ∈ (s.slot k).early) ∧
    (∀ j, j ≠ q.toNat → mget [] (t.slot k).lq j = mget [] (s.slot k).lq j ∧ mget [] (t.slot k).sq j = mget [] (s.slot k).sq j) ∧
    { t.slot k with pend := (s.slot k).pend, checker := (s.slot k).checker, nextId := (s.slot k).nextId,
                    early := (s.slot k).early, lq := (s.slot k).lq, sq := (s.slot k).sq, asq := (s.slot k).asq,
                    lastAct := (s.slot k).lastAct, reported := (s.slot k).reported } = s.slot k

/-- The event with number id of slot k is p, none of which has been performed, and its turn has come: nothing earlier has to be
performed first (R46, R114), and for a scratchpad access the port takes the slot (R53). -/
def ItsTurn (k id : Nat) (p : Acc) (s : State) : Prop :=
  (s.slot k).pend.find? (·.id == id) = some p ∧ p.id = id ∧ p.did = [] ∧ s.accReady k p = true ∧
    (p.isSP = true → s.portTakes k = true)
/-- The parts lie in plain memory, of the host or the die, without a cell in error. -/
def PlainMemory (s : State) (parts : List (Nat × Nat × BitVec 2 × Bool)) : Prop :=
  s.flips = [] ∧ ∀ x ∈ parts, ∀ i, i < x.2.1 → s.pclass (x.1 + i) = .pmd ∨ s.pclass (x.1 + i) = .host
/-- The load has written d, and nothing else but the place of the ASQ, the watchdog's mark and the sharing of lines differs. -/
def Loads (k : Nat) (d : BitVec 5) (v : Word) (s t : State) : Prop :=
  (t.slot k).ra d = (if d = 0 then 0 else v) ∧ (∀ r, r ≠ d → (t.slot k).ra r = (s.slot k).ra r) ∧ (t.slot k).pend = [] ∧
    (t.slot k).checker = [] ∧ (t.slot k).asq = (s.slot k).asq.step ∧ (t.slot k).x = (s.slot k).x ∧ MemoryAndOthersSame k s t
/-- The queue load has filled the new entry of load queue q with v. -/
def FillsEntry (k : Nat) (q : BitVec 5) (v : Vec) (s t : State) : Prop :=
  mget [] (t.slot k).lq q.toNat = mget [] (s.slot k).lq q.toNat ++ [((s.slot k).nextId, some v)] ∧
    (∀ j, j ≠ q.toNat → mget [] (t.slot k).lq j = mget [] (s.slot k).lq j) ∧ (t.slot k).pend = [] ∧ (t.slot k).checker = [] ∧
    (t.slot k).asq = (s.slot k).asq.step ∧ (t.slot k).a = (s.slot k).a ∧ (t.slot k).x = (s.slot k).x ∧ MemoryAndOthersSame k s t
/-- The n bytes from ea on of the window of slot k are now the low bytes of v, lowest first, and no other byte of a scratchpad or of
memory differs. -/
def WritesWindow {w : Nat} (k ea n : Nat) (v : BitVec w) (s t : State) : Prop :=
  (∀ i, i < n → byteAt (t.core (coreOf k)).sp ((s.slot k).spBase + ea + i) = v.extractLsb' (8 * i) 8) ∧
    (∀ b, (b < (s.slot k).spBase + ea ∨ (s.slot k).spBase + ea + n ≤ b) →
      byteAt (t.core (coreOf k)).sp b = byteAt (s.core (coreOf k)).sp b) ∧
    (∀ c, c ≠ coreOf k → t.core c = s.core c) ∧ (∀ j, j ≠ k → t.slot j = s.slot j) ∧
    (∀ b, byteAt t.mem b = byteAt s.mem b) ∧ (t.slot k).a = (s.slot k).a ∧ (t.slot k).x = (s.slot k).x
/-- The n bytes from pa on of memory are now the low bytes of v, lowest first, and no other byte of memory or scratchpad differs. -/
def WritesMemory (k pa n : Nat) (v : Word) (s t : State) : Prop :=
  (∀ i, i < n → byteAt t.mem (pa + i) = v.extractLsb' (8 * i) 8) ∧
    (∀ b, (b < pa ∨ pa + n ≤ b) → byteAt t.mem b = byteAt s.mem b) ∧ (∀ c, (t.core c).sp = (s.core c).sp) ∧
    (∀ j, j ≠ k → t.slot j = s.slot j) ∧ (t.slot k).a = (s.slot k).a ∧ (t.slot k).x = (s.slot k).x

end Sys2Proof.Claim

section

open Sys2Proof Sys2Proof.Machine Sys2Proof.Claim

/-- R163, R45: LDS and STS of every size, with registers landed and their bytes in the window, issue a scratchpad event
at base plus offset, recorded in the range checker; the data of a STS are those of d. Nothing else changes. -/
def Sys2Proof.Claim.ScratchpadWordsIssueTheirEvent : Prop :=
  ∀ (d a : BitVec 5) (z : BitVec 3) (o : BitVec 10) (s : State), AsqReads s [d, a] → z ≠ 7 →
    SpFree s (addrOf s a o) (sizeBytes z) →
      (∃ t, exec (.lds d a z o) s = .next t ∧ Recorded s.sel.slot (addrOf s a o) (sizeBytes z) false s t ∧
        Issued s.sel.slot { event s with kind := .spLoad, va := addrOf s a o, len := sizeBytes z, dst := d.toNat, sz := z }
          s t) ∧
      (∃ t, exec (.sts d a z o) s = .next t ∧ Recorded s.sel.slot (addrOf s a o) (sizeBytes z) true s t ∧
        Issued s.sel.slot { event s with kind := .spStore, va := addrOf s a o, len := sizeBytes z, data := s.mySlot.ra d }
          s t)

/-- R163: LDG and STG of every size issue a global event at base plus offset, at any alignment. -/
def Sys2Proof.Claim.GlobalWordsIssueTheirEvent : Prop :=
  ∀ (d a : BitVec 5) (z : BitVec 3) (o : BitVec 10) (parts : List (Nat × Nat × BitVec 2 × Bool)) (dlv str : Bool) (s : State),
    AsqReads s [d, a] → z ≠ 7 →
      (GlobalFree s (addrOf s a o) (sizeBytes z) 1 .read parts dlv str → Readable s parts →
        ∃ t, exec (.ldg d a z o) s = .next t ∧
          Issued s.sel.slot { event s with kind := .load, va := addrOf s a o, len := sizeBytes z, parts := parts,
                                           dst := d.toNat, sz := z } s t) ∧
      (GlobalFree s (addrOf s a o) (sizeBytes z) 1 .write parts dlv str → Writable s parts →
        ∃ t, exec (.stg d a z o) s = .next t ∧
          Issued s.sel.slot { event s with kind := .store, va := addrOf s a o, len := sizeBytes z, parts := parts,
                                           data := s.mySlot.ra d } s t)

/-- R164: STDL issues a store that carries the core set in bits 15:0 of b, on a page with DLV = 1 only; its address must
be a multiple of its size. -/
def Sys2Proof.Claim.DeliveredStoreIssuesItsEvent : Prop :=
  ∀ (d a b : BitVec 5) (z : BitVec 3) (parts : List (Nat × Nat × BitVec 2 × Bool)) (dlv str : Bool) (s : State),
    AsqReads s [d, a, b] → z ≠ 7 →
    GlobalFree s (s.mySlot.ra a).toNat (sizeBytes z) (sizeBytes z) .write parts dlv str → Writable s parts →
      ∃ t, exec (.stdl d a b z) s = .next t ∧
        Issued s.sel.slot { event s with kind := .store, va := (s.mySlot.ra a).toNat, len := sizeBytes z, parts := parts,
                                         data := s.mySlot.ra d,
                                         dset := if dlv then (s.mySlot.ra b).extractLsb' 0 16 else 0 } s t

/-- R165: QLD and QLDG reserve the next entry of a load queue with fewer than 8 and read 256 bytes for it; QST takes the
oldest entry of a store queue and writes it. Addresses are multiples of 16. -/
def Sys2Proof.Claim.QueueWordsIssueTheirEvent : Prop :=
  ∀ (q a : BitVec 5) (o : BitVec 13) (parts : List (Nat × Nat × BitVec 2 × Bool)) (dlv str : Bool) (v : Vec)
    (vs : List Vec) (s : State), AsqReads s [a] → addrOf s a o % 16 = 0 →
      let k := s.sel.slot
      let id := s.mySlot.nextId
      (q.toNat < 4 → (mget [] s.mySlot.lq q.toNat).length < 8 → SpFree s (addrOf s a o) 256 →
        ∃ t, exec (.qld q a o) s = .next t ∧
          mget [] (t.slot k).lq q.toNat = mget [] s.mySlot.lq q.toNat ++ [(id, none)] ∧
          (∃ p ∈ (t.slot k).pend, p = { event s with kind := .queueLoad, va := addrOf s a o, len := 256, dst := q.toNat,
                                                     qid := id }) ∧
          Recorded k (addrOf s a o) 256 false s t ∧ (t.slot k).asq = s.mySlot.asq.step ∧ OnlyQueues k q s t) ∧
      (q.toNat < 4 → (mget [] s.mySlot.lq q.toNat).length < 8 → GlobalFree s (addrOf s a o) 256 16 .read parts dlv str →
        Readable s parts →
        ∃ t, exec (.qldg q a o) s = .next t ∧
          mget [] (t.slot k).lq q.toNat = mget [] s.mySlot.lq q.toNat ++ [(id, none)] ∧
          (∃ p ∈ (t.slot k).pend, p = { event s with kind := .queueLoad, va := addrOf s a o, len := 256, parts := parts,
                                                     dst := q.toNat, qid := id }) ∧
          (t.slot k).asq = s.mySlot.asq.step ∧ OnlyQueues k q s t) ∧
      (q.toNat < 2 → mget [] s.mySlot.sq q.toNat = v :: vs → SpFree s (addrOf s a o) 256 →
        ∃ t, exec (.qst q a o) s = .next t ∧ mget [] (t.slot k).sq q.toNat = vs ∧
          (∃ p ∈ (t.slot k).pend, p = { event s with kind := .queueStore, va := addrOf s a o, len := 256, qdata := v }) ∧
          Recorded k (addrOf s a o) 256 true s t ∧ (t.slot k).asq = s.mySlot.asq.step ∧ OnlyQueues k q s t)

/-- R162, R46, R53: a scratchpad load within one bank word whose turn has come writes d with the extended number its bytes
make, and leaves memory, scratchpads and every other a register alone. -/
def Sys2Proof.Claim.ScratchpadLoadWritesItsRegister : Prop :=
  ∀ (k id : Nat) (p : Acc) (r : BitVec 5) (s : State), ItsTurn k id p s → p.kind = .spLoad → p.len = sizeBytes p.sz →
    p.sz ≠ 7 → p.dst < 32 → p.va % 16 + p.len ≤ 16 → p.qdata = 0 →
      ∃ t, exec (.accessPerformed k id) s = .next t ∧
        (r.toNat = p.dst → r ≠ 0 → (t.slot k).ra r
          = loaded p.sz (leNat (readBytes (s.core (coreOf k)).sp ((s.slot k).spBase + p.va) p.len))) ∧
        (r.toNat ≠ p.dst → (t.slot k).ra r = (s.slot k).ra r) ∧ (t.slot k).ra 0 = 0 ∧
        (∀ q ∈ (t.slot k).pend, q.id ≠ id) ∧ MemoryAndOthersSame k s t

/-- R162, R163, R53: a scratchpad store within one bank word whose turn has come writes its low bytes, lowest first, from its
address in the slot's window on, and no other byte of a scratchpad or of memory. -/
def Sys2Proof.Claim.ScratchpadStoreWritesItsBytes : Prop :=
  ∀ (k id : Nat) (p : Acc) (s : State), ItsTurn k id p s → p.kind = .spStore → 0 < p.len → p.len ≤ 8 →
    p.va % 16 + p.len ≤ 16 →
      ∃ t, exec (.accessPerformed k id) s = .next t ∧ WritesWindow k p.va p.len p.data s t ∧ ∀ q ∈ (t.slot k).pend, q.id ≠ id

/-- R127, R162: a global load at a multiple of its size whose turn has come, of lines the core may read, writes d with the extended
number of the bytes the slot sees there; no byte of memory or scratchpad changes. -/
def Sys2Proof.Claim.GlobalLoadWritesItsRegister : Prop :=
  ∀ (k id : Nat) (p : Acc) (r : BitVec 5) (s : State), ItsTurn k id p s → p.kind = .load → p.len = sizeBytes p.sz →
    p.sz ≠ 7 → p.dst < 32 → p.va % p.len = 0 → p.qdata = 0 → (p.parts.map (·.2.1)).sum = p.len → (s.slot k).early = [] →
    s.readWaits k p.parts = false → s.canAccess (coreOf k) (partLines p.parts) = true →
      ∃ t, exec (.accessPerformed k id) s = .next t ∧
        (r.toNat = p.dst → r ≠ 0 → (t.slot k).ra r = loaded p.sz (leNat (s.accBytes k p.va p.len p.parts))) ∧
        (r.toNat ≠ p.dst → (t.slot k).ra r = (s.slot k).ra r) ∧ MemoryAndOthersSame k s t

/-- R92, R110: an access that is no single-copy atomic access as a whole is performed one unit at a time, in any order: of a read
whose lines the core may read, one more unit has brought its bytes, and nothing else differs but the sharing of lines. -/
def Sys2Proof.Claim.AccessesArePerformedUnitByUnit : Prop :=
  ∀ (k id : Nat) (p : Acc) (s : State), (s.slot k).pend.find? (·.id == id) = some p → p.id = id → p.kind = .load →
    s.accReady k p = true → (s.slot k).early = [] →
    (∀ u ∈ p.units, s.readWaits k (cutParts p.parts u.1 u.2) = false) →
    (∀ u ∈ p.units, s.canAccess (coreOf k) (partLines (cutParts p.parts u.1 u.2)) = true) →
    2 ≤ ((List.range p.units.length).filter fun i => !p.did.contains i).length →
      ∃ t i o n, exec (.accessPerformed k id) s = .next t ∧ p.units[i]? = some (o, n) ∧ i ∉ p.did ∧
        (t.slot k).pend.find? (·.id == id) = some { p with did := i :: p.did, qdata := p.qdata |||
          (BitVec.ofNat 2048 (leNat (s.accBytes k p.va p.len (cutParts p.parts o n))) <<< (8 * o)) } ∧
        (t.slot k).a = (s.slot k).a ∧ MemoryAndOthersSame k s t

/-- R122: a store at a multiple of its size of an unguarded task, whose turn has come, becomes readable by the slots of its core and
keeps every byte of memory as it is. -/
def Sys2Proof.Claim.StoreIsSeenByItsCoreFirst : Prop :=
  ∀ (k id : Nat) (p : Acc) (s : State), ItsTurn k id p s → p.kind = .store → p.va % p.len = 0 → 0 < p.len → p.len ≤ 8 →
    (p.parts.map (·.2.1)).sum = p.len → (∀ x ∈ p.parts, 0 < x.2.1) → (s.inst ((s.slot k).task.getD 0)).holds = false →
      ∃ t, exec (.accessPerformed k id) s = .next t ∧
        (t.core (coreOf k)).l1 = (s.core (coreOf k)).l1 ++
          [{ slot := k, id := id, va := p.va, parts := p.parts, data := p.data, dset := p.dset, since := p.since, pc := p.pc }] ∧
        (t.slot k).pend = (s.slot k).pend.filter (·.id ≠ id) ∧ (∀ j, j ≠ k → t.slot j = s.slot j) ∧
        (∀ b, byteAt t.mem b = byteAt s.mem b)

/-- R122: the oldest store of a core reaches its visibility point: in plain memory without a cell in error, exactly the
bytes of its one part become those of its data, lowest first, and every other byte of memory stays. -/
def Sys2Proof.Claim.VisibleStoreWritesItsBytes : Prop :=
  ∀ (k id : Nat) (x : L1Store) (rest : List L1Store) (pa n : Nat) (ord : BitVec 2) (gex : Bool) (s : State),
    (s.slot k).pend.find? (·.id == id) = none → (s.core (coreOf k)).l1 = x :: rest → x.slot = k → x.id = id →
    x.parts = [(pa, n, ord, gex)] → n ≤ 8 → s.offers.any (·.slot == k) = false → s.dueTo k = false →
    s.canWrite (coreOf k) (linesOf pa n) = true → (s.inst ((s.slot k).task.getD 0)).frozen = false →
    PlainMemory s x.parts →
      ∃ t, exec (.accessPerformed k id) s = .next t ∧ WritesMemory k pa n x.data s t ∧ (t.core (coreOf k)).l1 = rest

/-- R92, R110, R162, R163, R165: the loads complete. LDS and LDG of every size, with nothing of the slot on its way, issue their
event, and its units, performed, leave d with the extended number that the bytes at base plus offset make. QLD and QLDG fill the new
entry of a load queue with fewer than 8 with the 256 bytes there. Nothing else changes. -/
def Sys2Proof.Claim.LoadsComplete : Prop :=
  ∀ (d q a : BitVec 5) (z : BitVec 3) (o : BitVec 10) (f : BitVec 13) (parts : List (Nat × Nat × BitVec 2 × Bool))
    (dlv str : Bool) (s : State), Clear s →
    let k := s.sel.slot
    let sp := (s.core (coreOf k)).sp
    let perform := Instr.accessPerformed k s.mySlot.nextId
    (AsqReads s [d, a] → z ≠ 7 →
      (SpFree s (addrOf s a o) (sizeBytes z) → s.portTakes k = true →
        ∃ t m u, exec (.lds d a z o) s = .next t ∧ After m perform t u ∧
          Loads k d (loaded z (leNat (readBytes sp (s.mySlot.spBase + addrOf s a o) (sizeBytes z)))) s u) ∧
      (GlobalFree s (addrOf s a o) (sizeBytes z) 1 .read parts dlv str → Readable s parts →
        s.canAccess (coreOf k) (partLines parts) = true →
        ∃ t m u, exec (.ldg d a z o) s = .next t ∧ After m perform t u ∧
          Loads k d (loaded z (leNat (s.accBytes k (addrOf s a o) (sizeBytes z) parts))) s u)) ∧
    (AsqReads s [a] → q.toNat < 4 → (mget [] s.mySlot.lq q.toNat).length < 8 → addrOf s a f % 16 = 0 →
      (∀ e ∈ mget [] s.mySlot.lq q.toNat, e.1 ≠ s.mySlot.nextId) →
      (SpFree s (addrOf s a f) 256 → s.portTakes k = true →
        ∃ t m u, exec (.qld q a f) s = .next t ∧ After m perform t u ∧
          FillsEntry k q (BitVec.ofNat 2048 (leNat (readBytes sp (s.mySlot.spBase + addrOf s a f) 256))) s u) ∧
      (GlobalFree s (addrOf s a f) 256 16 .read parts dlv str → Readable s parts →
        s.canAccess (coreOf k) (partLines parts) = true →
        ∃ t m u, exec (.qldg q a f) s = .next t ∧ After m perform t u ∧
          FillsEntry k q (BitVec.ofNat 2048 (leNat (s.accBytes k (addrOf s a f) 256 parts))) s u))

/-- R92, R122, R162 to R165: the stores complete. STS of every size, with nothing of the slot on its way, issues its event, and its
units, performed, leave the low bytes of d at base plus offset in the window; QST does so with the 256 bytes of the oldest entry of
its store queue, which leaves the queue. STG at a multiple of its size and STDL, of an unguarded task and on lines its core may write,
leave the low bytes of d in plain memory once the event has been performed and has become visible, and STDL on a page with DLV = 1
then offers the line to the cores of its set. No other byte changes. -/
def Sys2Proof.Claim.StoresComplete : Prop :=
  ∀ (d q a b : BitVec 5) (z : BitVec 3) (o : BitVec 10) (f : BitVec 13) (v : Vec) (vs : List Vec) (pa n : Nat) (ord : BitVec 2)
    (gex dlv str : Bool) (s : State), Clear s →
    let k := s.sel.slot
    let perform := Instr.accessPerformed k s.mySlot.nextId
    let open1 := (s.inst (s.mySlot.task.getD 0)).holds = false ∧ (s.inst (s.mySlot.task.getD 0)).frozen = false ∧
      PlainMemory s [(pa, n, ord, gex)] ∧ s.canWrite (coreOf k) (linesOf pa n) = true ∧ Writable s [(pa, n, ord, gex)]
    let offered := fun (u : State) (m : BitVec 16) =>
      u.offers.map (fun x => (x.core, x.line, x.slot)) = s.offers.map (fun x => (x.core, x.line, x.slot)) ++
        ((List.range 16).filter fun c => m.getLsbD c).map fun c => (c, lineOf pa, k)
    (AsqReads s [d, a] → z ≠ 7 → SpFree s (addrOf s a o) (sizeBytes z) → s.portTakes k = true →
        ∃ t m u, exec (.sts d a z o) s = .next t ∧ After m perform t u ∧
          WritesWindow k (addrOf s a o) (sizeBytes z) (s.mySlot.ra d) s u ∧ (u.slot k).pend = [] ∧
          (u.slot k).asq = s.mySlot.asq.step) ∧
    (AsqReads s [a] → q.toNat < 2 → mget [] s.mySlot.sq q.toNat = v :: vs → addrOf s a f % 16 = 0 →
      SpFree s (addrOf s a f) 256 → s.portTakes k = true →
        ∃ t m u, exec (.qst q a f) s = .next t ∧ After m perform t u ∧ WritesWindow k (addrOf s a f) 256 v s u ∧
          mget [] (u.slot k).sq q.toNat = vs ∧ (u.slot k).pend = [] ∧ (u.slot k).asq = s.mySlot.asq.step) ∧
    (AsqReads s [d, a] → z ≠ 7 → n = sizeBytes z → addrOf s a o % n = 0 →
      GlobalFree s (addrOf s a o) n 1 .write [(pa, n, ord, gex)] dlv str → open1 →
        ∃ t u, exec (.stg d a z o) s = .next t ∧ After 2 perform t u ∧ WritesMemory k pa n (s.mySlot.ra d) s u ∧
          (u.slot k).pend = [] ∧ (u.slot k).asq = s.mySlot.asq.step ∧ offered u 0) ∧
    (AsqReads s [d, a, b] → z ≠ 7 → n = sizeBytes z →
      GlobalFree s (s.mySlot.ra a).toNat n n .write [(pa, n, ord, gex)] dlv str → open1 →
        ∃ t u, exec (.stdl d a b z) s = .next t ∧ After 2 perform t u ∧ WritesMemory k pa n (s.mySlot.ra d) s u ∧
          (u.slot k).pend = [] ∧ (u.slot k).asq = s.mySlot.asq.step ∧
          offered u (if dlv then (s.mySlot.ra b).extractLsb' 0 16 else 0))

end
namespace Sys2Proof.Claim

open Sys2Proof.Machine

/-! ### Atomics and fences (R113, R119, R127, R167 to R170) -/

/-- Bytes of an AMO or REDW format (R167): 32-bit and 64-bit integers, FP32, FP16. -/
def formatBytes (f : BitVec 2) : Nat := [4, 8, 4, 2].getD f.toNat 0
/-- R167: the operation and format name an operation. -/
def atomicNamed (p : BitVec 4) (f : BitVec 2) : Prop := p.toNat ≤ 8 ∧ (f.toNat ≥ 2 → p.toNat ∈ [0, 1, 5, 6])
/-- An ordering other than none needs a scope (R119). -/
def scopeNamed (o : BitVec 2) (z : BitVec 3) : Prop := o = 0 ∨ z.toNat < 6
/-- The new value of an integer AMO or REDW on w-bit values (R167). -/
def newValue {w : Nat} (op : BitVec 4) (old x : BitVec w) : BitVec w :=
  match op.toNat with
  | 0 => x
  | 1 => old + x
  | 2 => old &&& x
  | 3 => old ||| x
  | 4 => old ^^^ x
  | 5 => if x.slt old then x else old
  | 6 => if old.slt x then x else old
  | 7 => if x.ult old then x else old
  | _ => if old.ult x then x else old
/-- The fences that the ordering field adds (R119): a release before, an acquire after the event with number id. -/
def FencedBy (o : BitVec 2) (z : BitVec 3) (id : Nat) (pend : List Acc) : Prop :=
  (o.getLsbD 1 = true → ∃ f ∈ pend, f.kind = .fence ∧ f.fk = 1 ∧ f.scope = z ∧ f.stor = 4 ∧ f.id < id) ∧
  (o.getLsbD 0 = true → ∃ f ∈ pend, f.kind = .fence ∧ f.fk = 0 ∧ f.scope = z ∧ f.stor = 4 ∧ id < f.id)
/-- The number of the atomic's event: a release fence comes first. -/
def atomId (o : BitVec 2) (s : State) : Nat := s.mySlot.nextId + if o.getLsbD 1 then 1 else 0

/-- A pending atomic of the slot, in plain memory without a cell in error, that its home slice may carry out: nothing earlier has to
be performed first, a write of its line need not wait, and on an SO page the slot's writes are visible. -/
def AtHome (k id pa n : Nat) (p : Acc) (s : State) : Prop :=
  (s.slot k).pend.find? (·.id == id) = some p ∧ p.id = id ∧ p.isAtom = true ∧ (s.slot k).accOrdered p = true
    ∧ (∃ ord gex, p.parts = [(pa, n, ord, gex)]) ∧ p.len = n ∧ s.flips = []
    ∧ (p.isSO = true → s.unreleased k false = false ∧ ∀ o ∈ s.offers, o.slot ≠ k)
    ∧ s.putWaits ((s.slot k).task.getD 0) (linesOf pa n) = false ∧ (s.inst ((s.slot k).task.getD 0)).frozen = false
    ∧ (∀ i, i < n → s.pclass (pa + i) = .pmd ∨ s.pclass (pa + i) = .host)
/-- The n bytes at pa make this number. -/
def valueAt (s : State) (pa n : Nat) : Nat := leNat (readBytes s.mem pa n)
/-- Agent b, 0 to 15 a core, 16 a unit of the logic die, 17 one of the package, is in a scope named on a core (R111). -/
def inScope (core scope b : Nat) : Bool :=
  match scope with
  | 0 => false
  | 1 => b = core
  | 2 => b < 16 ∧ b / 4 = core / 4
  | 3 => b < 17
  | _ => b < 18
/-- The fence with number id of slot k is pending, orders global memory, and may retire. -/
def FenceRetires (k id : Nat) (f : Acc) (s : State) : Prop :=
  (s.slot k).pend.find? (·.id == id) = some f ∧ f.kind = .fence ∧ f.stor.getLsbD 2 = true ∧ s.accReady k f = true ∧ k < 64
/-- The store x of core c is still on its way, as y. -/
def StillUnseen (c : Nat) (x y : L1Store) (t : State) : Prop :=
  y ∈ (t.core c).l1 ∧ { y with out := x.out, due := x.due } = x
/-- Bytes outside the n bytes at pa are as before. -/
def OutsideSame (pa n : Nat) (s t : State) : Prop := ∀ b, (b < pa ∨ pa + n ≤ b) → byteAt t.mem b = byteAt s.mem b

end Sys2Proof.Claim

section

open Sys2Proof Sys2Proof.Machine Sys2Proof.Claim

/-- R119, R167 to R169: AMO, CAS and REDW of a task that need not become irrevocable issue their event with the fences of
their ordering field. The ASQ stands still until the old value of an AMO or CAS returns, and goes on after a REDW. -/
def Sys2Proof.Claim.AtomicWordsIssueTheirEvent : Prop :=
  ∀ (d a b : BitVec 5) (p : BitVec 4) (f o : BitVec 2) (w : BitVec 1) (z : BitVec 3) (x : Nat × Nat × BitVec 2 × Bool)
    (rest : List (Nat × Nat × BitVec 2 × Bool)) (dlv str : Bool) (t : TlbEnt) (s : State),
    AsqReads s [d, a, b] → scopeNamed o z →
    ((s.inst (s.mySlot.task.getD 0)).holds = false ∨ ∀ y ∈ x :: rest, y.2.2.2 = true) →
      let k := s.sel.slot
      let ea := (s.mySlot.ra a).toNat
      (atomicNamed p f → GlobalFree s ea (formatBytes f) (formatBytes f) .write (x :: rest) dlv str →
        atomBad x.1 (formatBytes f) str s = (none, s) →
        ∃ u, exec (.amo d a p f o z) s = .next u ∧ (u.slot k).hold = some (atomId o s) ∧ FencedBy o z (atomId o s) (u.slot k).pend ∧
          { event s with kind := .amo, va := ea, len := formatBytes f, parts := x :: rest, data := s.mySlot.ra d,
                         dst := d.toNat, id := atomId o s } ∈ (u.slot k).pend ∧
          (u.slot k).asq = s.mySlot.asq.step ∧ (u.slot k).a = s.mySlot.a ∧ OnlySlot k s u) ∧
      (GlobalFree s ea (if w = 1 then 8 else 4) (if w = 1 then 8 else 4) .write (x :: rest) dlv str →
        atomBad x.1 (if w = 1 then 8 else 4) str s = (none, s) →
        ∃ u, exec (.cas d a b w o z) s = .next u ∧ (u.slot k).hold = some (atomId o s) ∧ FencedBy o z (atomId o s) (u.slot k).pend ∧
          { event s with kind := .amo, va := ea, len := if w = 1 then 8 else 4, parts := x :: rest, data := s.mySlot.ra d,
                         data2 := s.mySlot.ra b, dst := d.toNat, id := atomId o s } ∈ (u.slot k).pend ∧
          (u.slot k).asq = s.mySlot.asq.step ∧ (u.slot k).a = s.mySlot.a ∧ OnlySlot k s u) ∧
      (atomicNamed p f → ea < 2 ^ 57 → ea % formatBytes f = 0 → s.xlPage k ea .write = .hit t → s.soPending k = false →
        ∃ u, exec (.redw d a p f o z) s = .next u ∧ (u.slot k).hold = s.mySlot.hold ∧ FencedBy o z (atomId o s) (u.slot k).pend ∧
          (∃ q ∈ (u.slot k).pend, q.kind = .amo ∧ q.va = ea ∧ q.len = formatBytes f ∧ q.data = s.mySlot.ra d ∧
            q.id = atomId o s ∧ q.parts.map (·.1) = [t.pa ea]) ∧
          (u.slot k).asq = s.mySlot.asq.step ∧ (u.slot k).a = s.mySlot.a ∧ OnlySlot k s u)

/-- R127, R167, R168: the atomic unit carries out an AMO on an integer format: d gets the old value, zero-extended, and
the bytes at the address the new one; no other byte of memory and no other register changes, and the ASQ goes on. -/
def Sys2Proof.Claim.AmoReturnsTheOldValueAndStoresTheNew : Prop :=
  ∀ (k id pa : Nat) (p : Acc) (d a : BitVec 5) (op : BitVec 4) (f o : BitVec 2) (z : BitVec 3) (r : BitVec 5) (s : State),
    AtHome k id pa (formatBytes f) p s → decodeCore p.word = .ok (.amo d a op f o z) → f.toNat < 2 → op.toNat ≤ 8 →
      let w := 8 * formatBytes f
      let old := valueAt s pa (formatBytes f)
      ∃ t, exec (.homeSliceAtomic k id) s = .next t ∧
        valueAt t pa (formatBytes f) = (newValue op (BitVec.ofNat w old) (BitVec.ofNat w p.data.toNat)).toNat ∧
        (t.slot k).ra d = (if d = 0 then 0 else BitVec.ofNat 64 old) ∧ (r ≠ d → (t.slot k).ra r = (s.slot k).ra r) ∧
        (t.slot k).hold = none ∧ OutsideSame pa (formatBytes f) s t ∧ (∀ j, j ≠ k → t.slot j = s.slot j)

/-- R127, R169: CAS stores the new value if the old one is equal to the value compared with, and else no byte; d gets the
old value either way. -/
def Sys2Proof.Claim.CasStoresOnlyOnEquality : Prop :=
  ∀ (k id pa : Nat) (p : Acc) (d a b : BitVec 5) (w : BitVec 1) (o : BitVec 2) (z : BitVec 3) (s : State),
    let n := if w = 1 then 8 else 4
    AtHome k id pa n p s → decodeCore p.word = .ok (.cas d a b w o z) →
      let old := valueAt s pa n
      ∃ t, exec (.homeSliceAtomic k id) s = .next t ∧
        valueAt t pa n = (if old = p.data.toNat % 2 ^ (8 * n) then p.data2.toNat % 2 ^ (8 * n) else old) ∧
        (t.slot k).ra d = (if d = 0 then 0 else BitVec.ofNat 64 old) ∧ (t.slot k).hold = none ∧
        OutsideSame pa n s t ∧ (∀ j, j ≠ k → t.slot j = s.slot j)

/-- R167, R168: REDW of an unguarded task applies its operation at the home slice and writes no register. -/
def Sys2Proof.Claim.RedwAppliesWithoutAnAnswer : Prop :=
  ∀ (k id pa : Nat) (p : Acc) (d a : BitVec 5) (op : BitVec 4) (f o : BitVec 2) (z : BitVec 3) (s : State),
    AtHome k id pa (formatBytes f) p s → decodeCore p.word = .ok (.redw d a op f o z) → f.toNat < 2 → op.toNat ≤ 8 →
    p.str = false → (s.inst ((s.slot k).task.getD 0)).holds = false → s.poison = [] →
    (∀ i, i < formatBytes f → s.pclass (pa + i) = .pmd) →
      let w := 8 * formatBytes f
      ∃ t, exec (.homeSliceAtomic k id) s = .next t ∧
        valueAt t pa (formatBytes f)
          = (newValue op (BitVec.ofNat w (valueAt s pa (formatBytes f))) (BitVec.ofNat w p.data.toNat)).toNat ∧
        (t.slot k).a = (s.slot k).a ∧ (t.slot k).hold = (s.slot k).hold ∧ OutsideSame pa (formatBytes f) s t ∧
        (∀ j, j ≠ k → t.slot j = s.slot j)

/-- R113, R170: FENCE with storage NONE retires at once; any other joins the pending events with its kind, scope and
storage. -/
def Sys2Proof.Claim.FenceJoinsThePendingEvents : Prop :=
  ∀ (kd : BitVec 2) (z m : BitVec 3) (s : State), s.sel.party = .asq → z.toNat < 6 →
    (m = 0 → ∃ t, exec (.fence kd z m) s = .next t ∧ (t.slot s.sel.slot).asq = s.mySlot.asq.step ∧
      (t.slot s.sel.slot).pend = s.mySlot.pend ∧ OnlyA s.sel.slot s t) ∧
    (m ≠ 0 → ∃ t, exec (.fence kd z m) s = .next t ∧
      Issued s.sel.slot { event s with kind := .fence, fk := kd, scope := z, stor := m } s t)

/-- R111, R118, R120, R121, R123: what a fence does to stores that are not visible yet. A release fence passes a store of its slot on
to the agents in its scope, and a store of another slot whose chain has come to it. An acquire fence whose scope covers the core of
a release that reaches its own core makes the store owed to its slot, as far as the scopes of the whole chain go. A load of bytes of
an owed store, on no UO page, waits for it. An XP or FULL fence carries the held stores of the slot's task to operations in its scope. -/
def Sys2Proof.Claim.FencesPassStoresOn : Prop :=
  ∀ (k id c : Nat) (f : Acc) (x : L1Store) (s : State), x ∈ (s.core c).l1 →
    let z := f.scope.toNat
    (FenceRetires k id f s → z ≠ 0 → ∃ t, exec (.accessPerformed k id) s = .next t ∧ (∀ b, byteAt t.mem b = byteAt s.mem b) ∧
      (f.fk = 1 → x.slot = k → (∃ p ∈ x.parts, p.2.2.1 ≠ 2) → ∃ y, StillUnseen c x y t ∧ ∃ o ∈ y.out, o.core = coreOf k ∧
        ∀ b, b < 18 → o.reach.getLsbD b = inScope (coreOf k) z b ∧ o.chain.getLsbD b = inScope (coreOf k) z b) ∧
      (∀ m, f.fk = 1 → (k, m) ∈ x.due → ∃ y, StillUnseen c x y t ∧ ∃ o ∈ y.out, o.core = coreOf k ∧
        ∀ b, b < 18 → o.reach.getLsbD b = inScope (coreOf k) z b ∧
          o.chain.getLsbD b = (inScope (coreOf k) z b && m.getLsbD b)) ∧
      (∀ o, f.fk = 0 → o ∈ x.out → x.slot ≠ k → o.core < 16 → o.reach.getLsbD (coreOf k) = true →
        inScope (coreOf k) z o.core = true → ∃ y, StillUnseen c x y t ∧ ∃ d ∈ y.due, d.1 = k ∧
          ∀ b, b < 18 → d.2.getLsbD b = (o.chain.getLsbD b && inScope (coreOf k) z b)) ∧
      (2 ≤ f.fk.toNat → ∀ h ∈ (s.inst ((s.slot k).task.getD 0)).ents, h.op = none →
        ∃ g ∈ (t.inst ((s.slot k).task.getD 0)).ents, g.num = h.num ∧ g.w = h.w ∧ z < g.reach)) ∧
    (∀ m pa n ord gex pb l o g p, ItsTurn k id p s → p.kind = .load → p.parts = [(pa, n, ord, gex)] → p.len = n → p.va % n = 0 →
      0 < n → n ≤ 8 → ord ≠ 2 → (s.slot k).early = [] → c ≠ coreOf k → (k, m) ∈ x.due → m.getLsbD (coreOf k) = true →
      (pb, l, o, g) ∈ x.parts → pa < pb + l → pb < pa + n → exec (.accessPerformed k id) s = .next s)

/-- R95, R171: SRSET and SRGET have the layouts of R171; SRSET writes all 64 bits of one field of one stream once the ESQ has
passed it, SRGET reads one field, as it was last written; no other field of any stream changes. -/
def Obligations.StreamFieldsAreWrittenAndRead : Prop :=
  ∀ (n a d : BitVec 5) (f : BitVec 6) (s : State),
    let k := s.sel.slot
    decodeCore (0#3 ++ 0x1C#6 ++ n ++ a ++ 0#7 ++ f) = .ok (.srset n a f) ∧
    decodeCore (0#3 ++ 0x1D#6 ++ d ++ n ++ 0#7 ++ f) = .ok (.srget d n f) ∧
    (AsqReads s [a, d] → n.toNat < 16 → f.toNat < 22 →
    (s.mySlot.esq.passed s.mySlot.asq.walk = true → ∃ t, exec (.srset n a f) s = .next t ∧
      (∀ m g, m < 16 → g < 22 → ((t.slot k).stream m).getD g 0
        = if m = n.toNat ∧ g = f.toNat then s.mySlot.ra a else (s.mySlot.stream m).getD g 0) ∧
      (t.slot k).asq = s.mySlot.asq.step ∧ (t.slot k).a = s.mySlot.a ∧ OnlySlot k s t) ∧
    (∃ t, exec (.srget d n f) s = .next t ∧
      (t.slot k).ra d = (if d = 0 then 0 else (s.mySlot.stream n.toNat).getD f.toNat 0) ∧
      (∀ r, r ≠ d → (t.slot k).ra r = s.mySlot.ra r) ∧ (t.slot k).asq = s.mySlot.asq.step ∧ OnlyA k s t))

/-- R173, R250: ABFREE frees as many slots as bits 15:0 of a say, in ring order from the oldest on, when each of them is
filled and the scratchpad reads of the slot's earlier words have been performed; every other filled bit stays. -/
def Sys2Proof.Claim.AbfreeFreesFilledSlotsInOrder : Prop :=
  ∀ (a : BitVec 5) (c : BitVec 6) (s : State), AsqReads s [a] →
    let k := s.sel.slot
    let o := mget {} s.mySlot.cos c.toNat
    let n := (s.mySlot.ra a).toNat % 65536
    o.kind = 3 → s.mySlot.esq.passed s.mySlot.asq.walk = true → s.mySlot.readsDone s.mySlot.asq.walk = true →
    s.halosRead k s.mySlot.asq.walk = true →
    o.oldest < o.ns → n ≤ o.ns → (∀ j, j < n → o.filled.getLsbD ((o.oldest + j) % o.ns) = true) →
      ∃ t, exec (.abfree a c) s = .next t ∧
        (mget {} (t.slot k).cos c.toNat).oldest = (o.oldest + n) % o.ns ∧
        (mget {} (t.slot k).cos c.toNat).free = o.free + n ∧
        (∀ i, i < o.ns → (mget {} (t.slot k).cos c.toNat).filled.getLsbD i
          = (o.filled.getLsbD i && !decide ((i + o.ns - o.oldest) % o.ns < n))) ∧
        (∀ j, j ≠ c.toNat → mget {} (t.slot k).cos j = mget {} s.mySlot.cos j) ∧
        (t.slot k).asq = s.mySlot.asq.step ∧ OnlySlot k s t

end

namespace Sys2Proof.Claim

open Sys2Proof.Machine

/-! ### The ESQ's queue words and the C words (R39, R141, R166, R174 to R187) -/

/-- The address of the next word in sequence for a party: a loop that ends here goes back to its start (R178). -/
def nextPc (sl : Slot) : Party → Word
  | .asq => sl.asq.step.pc
  | .esq => sl.esq.step.pc
  | .helper => sl.helper.step.pc
/-- The word is not one of the ESQ in exposed mode, where results in flight land at its ticks. -/
def NoTicks (s : State) : Prop := s.sel.party = .esq → s.mySlot.exposed = false
/-- Nothing but the place of the party that takes the word, the outcomes it passes on and the watchdog's mark differs:
every register and every byte of memory is as before, and the other two parties stand where they stood. -/
def OnlyPlace (s t : State) : Prop :=
  OnlySlot s.sel.slot s t
    ∧ { t.slot s.sel.slot with asq := s.mySlot.asq, esq := s.mySlot.esq, helper := s.mySlot.helper, boAE := s.mySlot.boAE,
                               boEA := s.mySlot.boEA, lastAct := s.mySlot.lastAct, reported := s.mySlot.reported } = s.mySlot
    ∧ (s.sel.party ≠ .asq → (t.slot s.sel.slot).asq = s.mySlot.asq)
    ∧ (s.sel.party ≠ .esq → (t.slot s.sel.slot).esq = s.mySlot.esq)
    ∧ (s.sel.party ≠ .helper → (t.slot s.sel.slot).helper = s.mySlot.helper)
/-- The party goes on at an address, and nothing else happens but the push or pop of an outcome. -/
def GoesTo (s : State) (i : Instr) (o : BitVec 2) (outcomes : List Nat) (pc : Word) : Prop :=
  ∃ t, exec i s = .next t ∧ (t.slot s.sel.slot).pcOf s.sel.party = pc
    ∧ (s.sel.party ≠ .helper → (t.slot s.sel.slot).outcomes o = outcomes) ∧ (NoTicks s → OnlyPlace s t)
/-- The outcome queue of the word after its evaluator pushed v: only an evaluating sequencer of a shared word pushes. -/
def pushed (s : State) (o : BitVec 2) (v : Nat) : List Nat :=
  s.mySlot.outcomes o ++ (if s.role o = .lead then [v] else [])
/-- The party of a C word knows its operands: it is no follower, the register has landed, and the follower's queue has
room. -/
def Evaluates (s : State) (o : BitVec 2) (r : BitVec 5) : Prop :=
  s.role o ≠ .follow ∧ s.mySlot.busyP s.sel.party r = false ∧ s.outcomeFull o (s.role o) = false
/-- R141: a condition on a register compared with zero as a signed number. -/
def condition (c : BitVec 3) (v : Word) : Prop :=
  match c.toNat with
  | 0 => v = 0
  | 1 => v ≠ 0
  | 2 => v.toInt < 0
  | 3 => v.toInt ≥ 0
  | 4 => v.toInt > 0
  | _ => v.toInt ≤ 0
/-- The address of the C word plus four times its offset. -/
def target {n : Nat} (s : State) (f : BitVec n) : Word := s.mySlot.pcOf s.sel.party + 4 * BitVec.ofInt 64 f.toInt
/-- The loop stack of the party. -/
def loopsOf (sl : Slot) : Party → List LoopLv
  | .asq => sl.asq.loops
  | .esq => sl.esq.loops
  | .helper => sl.helper.loops
/-- The party waits at its word for w. -/
def Held (s t : State) (w : WaitFor) : Prop :=
  (t.slot s.sel.slot).pcOf s.sel.party = s.mySlot.pcOf s.sel.party ∧
    ((t.slot s.sel.slot).seqOf s.sel.party).waiting = true ∧ (t.slot s.sel.slot).waitOf s.sel.party = w
/-- The party has passed its wait word. -/
def Passed (s t : State) : Prop :=
  (t.slot s.sel.slot).pcOf s.sel.party = nextPc s.mySlot s.sel.party ∧
    ((t.slot s.sel.slot).seqOf s.sel.party).waiting = false ∧ (t.slot s.sel.slot).waitOf s.sel.party = .none
/-- A sequencer that evaluates a wait word. -/
def Waiter (s : State) (o : BitVec 2) : Prop := s.sel.party ≠ .helper ∧ s.role o ≠ .follow

end Sys2Proof.Claim

section

open Sys2Proof Sys2Proof.Machine Sys2Proof.Claim

/-- R166, R174, in interlocked mode: QPOP takes the oldest entry of a load queue and writes its low 64 bits to d; QPUSH
appends a to a store queue with fewer than 8 entries, the upper bits zero; XMODE sets the timing mode, to exposed once no
result is in flight. Nothing else changes. -/
def Obligations.QueueWordsOfTheEsq : Prop :=
  ∀ (d q a : BitVec 5) (m : BitVec 1) (id : Nat) (v : Vec) (rest : List (Nat × Option Vec)) (s : State), s.sel.party = .esq →
    s.mySlot.exposed = false →
    let k := s.sel.slot
    let sl := s.mySlot
    (q.toNat < 4 → sl.busyX d = false → sl.vPops q.toNat = false → mget [] sl.lq q.toNat = (id, some v) :: rest →
      ∃ t, exec (.qpop d q) s = .next t ∧ mget [] (t.slot k).lq q.toNat = rest ∧
        (t.slot k).rx d = (if d = 0 then 0 else v.extractLsb' 0 64) ∧ (∀ r, r ≠ d → (t.slot k).rx r = sl.rx r) ∧
        (∀ j, j ≠ q.toNat → mget [] (t.slot k).lq j = mget [] sl.lq j) ∧ (t.slot k).esq = sl.esq.step ∧ OnlySlot k s t ∧
        { t.slot k with x := sl.x, lq := sl.lq, esq := sl.esq, lastAct := sl.lastAct, reported := sl.reported } = sl) ∧
    (q.toNat < 2 → sl.busyX a = false → sl.vPushes q.toNat = false → sl.sqBusy q.toNat = false → sl.sqFull q.toNat = false →
      ∃ t, exec (.qpush q a) s = .next t ∧
        mget [] (t.slot k).sq q.toNat = mget [] sl.sq q.toNat ++ [BitVec.ofNat 2048 (sl.rx a).toNat] ∧
        (∀ j, j ≠ q.toNat → mget [] (t.slot k).sq j = mget [] sl.sq j) ∧ (t.slot k).esq = sl.esq.step ∧ OnlySlot k s t ∧
        { t.slot k with sq := sl.sq, esq := sl.esq, lastAct := sl.lastAct, reported := sl.reported } = sl) ∧
    ((m = 1 → sl.results = [] ∧ mget [] sl.queues 0 = []) →
      ∃ t, exec (.xmode m) s = .next t ∧ (t.slot k).exposed = (m == 1) ∧ (t.slot k).esq = sl.esq.step ∧ OnlySlot k s t ∧
        { t.slot k with exposed := sl.exposed, esq := sl.esq, lastAct := sl.lastAct, reported := sl.reported } = sl)

/-- R141, R176, R177: BR goes to the address of the word plus four times its offset where its condition holds, as JMP
always does, and else to the next word in sequence; the evaluator of a shared BR pushes 1 or 0 for the follower, which
goes by the entry it pops. CALL pushes the address after it on a stack of fewer than 16 entries, and RET pops it and goes
there. -/
def Sys2Proof.Claim.BranchesAndCallsGoWhereTheySay : Prop :=
  ∀ (o : BitVec 2) (c : BitVec 3) (r : BitVec 5) (f : BitVec 14) (g : BitVec 22) (v : Nat) (vs : List Nat) (u : Word)
    (us : List Word) (s : State), s.isMgmt = false →
    let p := s.sel.party
    (Evaluates s o r → c.toNat < 6 →
      (condition c (s.mySlot.rp p r) → GoesTo s (.br o c r f) o (pushed s o 1) (target s f)) ∧
      (¬ condition c (s.mySlot.rp p r) → GoesTo s (.br o c r f) o (pushed s o 0) (nextPc s.mySlot p))) ∧
    (s.role o = .follow → s.mySlot.outcomes o = v :: vs →
      GoesTo s (.br o c r f) o vs (if v = 0 then nextPc s.mySlot p else target s f)) ∧
    (GoesTo s (.jmp o g) o (s.mySlot.outcomes o) (target s g)) ∧
    (p ≠ .helper → (s.mySlot.seqOf p).ret.length < 16 → GoesTo s (.call o g) o (s.mySlot.outcomes o) (target s g) ∧
      ∃ t, exec (.call o g) s = .next t ∧
        ((t.slot s.sel.slot).seqOf p).ret = (s.mySlot.pcOf p + 4) :: (s.mySlot.seqOf p).ret) ∧
    (p ≠ .helper → (s.mySlot.seqOf p).ret = u :: us → GoesTo s (.ret o) o (s.mySlot.outcomes o) u ∧
      ∃ t, exec (.ret o) s = .next t ∧ ((t.slot s.sel.slot).seqOf p).ret = us)

/-- R178: LOOP with trip count 0 goes past its body; with a body of no words it goes to the next word; else it enters the
body with a new innermost level, where a level is free. R179: BRNONE branches when the top mask has no bit set among the
lanes of its width. R187: END stops the sequencer, and of the helper marks its end (R48). R137: a hint does nothing. -/
def Sys2Proof.Claim.LoopsEndsAndHints : Prop :=
  ∀ (o : BitVec 2) (r : BitVec 5) (l : BitVec 17) (g : BitVec 22) (h : BitVec 29) (m : BitVec 256) (w : Nat)
    (ms : List (BitVec 256 × Nat)) (s : State), s.isMgmt = false →
    let p := s.sel.party
    let pc := s.mySlot.pcOf p
    let n := (s.mySlot.rp p r).toNat % 2 ^ 32
    (Evaluates s o r →
      (n = 0 → l ≠ 0 → GoesTo s (.loop o r l) o (pushed s o n) (pc + 4 + 4 * BitVec.ofNat 64 l.toNat)) ∧
      (l = 0 → GoesTo s (.loop o r l) o (pushed s o n) (nextPc s.mySlot p)) ∧
      (n ≠ 0 → l ≠ 0 → (loopsOf s.mySlot p).length < (if p = .helper then 4 else 8) →
        GoesTo s (.loop o r l) o (pushed s o n) (pc + 4) ∧
        ∃ t, exec (.loop o r l) s = .next t ∧
          (loopsOf (t.slot s.sel.slot) p).map (fun x => (x.start, x.stop, x.left))
            = (pc + 4, pc + 4 * BitVec.ofNat 64 l.toNat, n) :: (loopsOf s.mySlot p).map fun x => (x.start, x.stop, x.left))) ∧
    (p = .esq → s.role o ≠ .follow → s.outcomeFull o (s.role o) = false → s.mySlot.maskPending = false →
      s.mySlot.masks = (m, w) :: ms →
      ((∀ i, i < 2048 / w → i < 256 → m.getLsbD i = false) → GoesTo s (.brnone o g) o (pushed s o 1) (target s g)) ∧
      ((∃ i, i < 2048 / w ∧ m.getLsbD i = true) → GoesTo s (.brnone o g) o (pushed s o 0) (nextPc s.mySlot p))) ∧
    (∃ t, exec (.endW o) s = .next t ∧ (t.slot s.sel.slot).pcOf p = pc ∧ (p ≠ .helper → ((t.slot s.sel.slot).seqOf p).ended = true) ∧
      (p = .helper → (t.slot s.sel.slot).helper.ending = true) ∧ (∀ j, j ≠ s.sel.slot → t.slot j = s.slot j)
      ∧ ∀ b, byteAt t.mem b = byteAt s.mem b) ∧
    (GoesTo s (.hint h) o (s.mySlot.outcomes o) (nextPc s.mySlot p))

/-- R431, R141, R176 to R178: the management core takes BR, JMP, CALL, RET and LOOP with registers, a return stack of 16 entries and a
loop stack of 8 levels of its own, and waits for nothing. -/
def Sys2Proof.Claim.ControlWordsOfTheManagementCore : Prop :=
  ∀ (o : BitVec 2) (c : BitVec 3) (r : BitVec 5) (f : BitVec 14) (g : BitVec 22) (l : BitVec 17) (u : Word) (us : List Word)
    (s : State), s.isMgmt = true →
    let m := s.mgmt
    let next := (loopEnd m.pc 0 m.loops).1
    let at4 := fun (i : Int) => m.pc + 4 * BitVec.ofInt 64 i
    let n := (m.rx r).toNat % 2 ^ 32
    let goes := fun (i : Instr) (pc : Word) (ret : List Word) => ∃ t, exec i s = .next t ∧ t.mgmt.pc = pc ∧ t.mgmt.ret = ret ∧
      t.mgmt.x = m.x ∧ { t with mgmt := s.mgmt } = s
    (c.toNat < 6 → (condition c (m.rx r) → goes (.br o c r f) (at4 f.toInt) m.ret) ∧
      (¬ condition c (m.rx r) → goes (.br o c r f) next m.ret)) ∧
    goes (.jmp o g) (at4 g.toInt) m.ret ∧
    (m.ret.length < 16 → goes (.call o g) (at4 g.toInt) ((m.pc + 4) :: m.ret)) ∧
    (m.ret = u :: us → goes (.ret o) u us) ∧
    (l = 0 → goes (.loop o r l) next m.ret) ∧ (l ≠ 0 → n = 0 → goes (.loop o r l) (at4 (l.toNat + 1)) m.ret) ∧
    (l ≠ 0 → n ≠ 0 → m.loops.length < 8 → goes (.loop o r l) (m.pc + 4) m.ret ∧
      ∃ t, exec (.loop o r l) s = .next t ∧ t.mgmt.loops.map (fun x => (x.start, x.stop, x.left))
        = (m.pc + 4, at4 l.toNat, n) :: m.loops.map fun x => (x.start, x.stop, x.left))

/-- R185, R186: WAITC passes once the count of its local counter has come to the target, which it subtracts; ABWAIT
passes once its ring slot is filled. Else each holds its sequencer at the word. -/
def Sys2Proof.Claim.CounterAndRingWaits : Prop :=
  ∀ (o : BitVec 2) (c : BitVec 6) (i : BitVec 16) (s : State), Waiter s o →
    let k := s.sel.slot
    let co := mget {} s.mySlot.cos c.toNat
    (co.kind = 1 →
      (i.toNat ≤ co.count.toNat → ∃ t, exec (.waitc o c i) s = .next t ∧ Passed s t ∧
        (mget {} (t.slot k).cos c.toNat).count.toNat = co.count.toNat - i.toNat ∧
        (∀ j, j ≠ c.toNat → mget {} (t.slot k).cos j = mget {} s.mySlot.cos j) ∧ (∀ b, byteAt t.mem b = byteAt s.mem b)) ∧
      (co.count.toNat < i.toNat → ∃ t, exec (.waitc o c i) s = .next t ∧ Held s t (.count c.toNat i.toNat) ∧
        (t.slot k).cos = s.mySlot.cos ∧ OnlySlot k s t)) ∧
    (co.kind = 3 → i.toNat < co.ns →
      (co.filled.getLsbD i.toNat = true → ∃ t, exec (.abwait o c i) s = .next t ∧ Passed s t ∧ (t.slot k).cos = s.mySlot.cos ∧
        (∀ b, byteAt t.mem b = byteAt s.mem b)) ∧
      (co.filled.getLsbD i.toNat = false → ∃ t, exec (.abwait o c i) s = .next t ∧ Held s t (.ring c.toNat i.toNat) ∧
        (t.slot k).cos = s.mySlot.cos ∧ OnlySlot k s t))

/-- R54, R404: once the condition of the wait of one of its sequencers holds, and no pending cause is to be delivered at the word
first, the slot goes on after the wait word; the count waited for is subtracted (R185). -/
def Sys2Proof.Claim.WaitEndsWhenItsConditionIsMet : Prop :=
  ∀ (k c i : Nat) (s : State), (s.slot k).st = 1 ∨ (s.slot k).st = 2 ∨ (s.slot k).st = 3 → (s.slot k).waitA = .none →
    s.trapDue k = false →
    let co := mget {} (s.slot k).cos c
    ((s.slot k).waitE = .count c i → i ≤ co.count.toNat → ∃ t, exec (.waitConditionMet k) s = .next t ∧
      (t.slot k).esq.pc = nextPc (s.slot k) .esq ∧ (t.slot k).esq.waiting = false ∧ (t.slot k).waitE = .none ∧
      (mget {} (t.slot k).cos c).count.toNat = co.count.toNat - i) ∧
    ((s.slot k).waitE = .ring c i → co.filled.getLsbD i = true → ∃ t, exec (.waitConditionMet k) s = .next t ∧
      (t.slot k).esq.pc = nextPc (s.slot k) .esq ∧ (t.slot k).esq.waiting = false ∧ (t.slot k).waitE = .none)

end
namespace Sys2Proof.Claim

open Sys2Proof.Machine

/-! ### Waits on memory and barriers (R50, R51, R182 to R184) -/

/-- The comparison of WAITV between the word and the value (R184). -/
def compares (m : BitVec 3) (w v : Word) : Prop :=
  match m.toNat with
  | 0 => w = v
  | 1 => w ≠ v
  | 2 => w.toInt ≥ v.toInt
  | 3 => w.toInt < v.toInt
  | 4 => w.toNat ≥ v.toNat
  | _ => w.toNat < v.toNat
/-- The 8-byte word at a physical address as the slot sees it. -/
def wordSeen (s : State) (k pa : Nat) : Word := BitVec.ofNat 64 (leNat (s.slotBytes k [(pa, 8, 1, false)]))
/-- The slot may read the word now: no earlier event of it comes first, no store that was released to it waits to become visible, and
the line can be read. -/
def ReadsNow (s : State) (k : Nat) (walk : Int) (pa : Nat) : Prop :=
  ((s.slot k).pend.any fun q => decide (q.walk < walk) &&
      q.before { kind := .load, va := pa, len := 8, parts := [(pa, 8, 1, false)] }) = false
    ∧ s.owes (coreOf k) = false ∧ s.canAccess 16 (linesOf pa 8) = true
/-- The native barrier that a word names: its key, where the task's type declares the id and its level has the scope. -/
def keyOf (s : State) (z : BitVec 2) (i : BitVec 5) : Nat := barKey z.toNat (barUnit z.toNat s.sel.slot) i.toNat
/-- The task's type declares the barrier, its level allows it, and no arrival of the slot at it is open. -/
def MayArrive (s : State) (z : BitVec 2) (i : BitVec 5) : Prop :=
  s.sel.slot < 64 ∧ barBad z i s = none ∧ s.arrivalOpen s.sel.slot (keyOf s z i) = false
/-- The other sequencer has come to the word, or passed it. -/
def OtherReached (s : State) : Prop := (s.mySlot.otherSeq s.sel.party).reached (s.mySlot.seqOf s.sel.party).walk = true
def OtherPassed (s : State) : Prop := (s.mySlot.otherSeq s.sel.party).passed (s.mySlot.seqOf s.sel.party).walk = true
/-- The arrival and the release before it have joined the slot's pending events (R126, R182). -/
def ArrivalPends (s t : State) (z : BitVec 2) (i : BitVec 5) : Prop :=
  ∃ f ∈ (t.slot s.sel.slot).pend, ∃ b ∈ (t.slot s.sel.slot).pend, f.kind = .fence ∧ f.fk = 1 ∧ f.scope.toNat = z.toNat + 1 ∧
    f.stor = 7 ∧ f.walk = (s.mySlot.seqOf s.sel.party).walk ∧ b.kind = .bar ∧ b.data.toNat = keyOf s z i ∧ f.id < b.id

end Sys2Proof.Claim

section

open Sys2Proof Sys2Proof.Machine Sys2Proof.Claim

/-- R184: WAITV passes at once where the word it may read compares as it says, and else holds its sequencer there with
the address, comparison and value. -/
def Sys2Proof.Claim.WordWaitPassesOnItsComparison : Prop :=
  ∀ (o : BitVec 2) (a v : BitVec 5) (m : BitVec 3) (x : Nat × Nat × BitVec 2 × Bool) (rest : List (Nat × Nat × BitVec 2 × Bool))
    (dlv str : Bool) (s : State), Waiter s o → m.toNat < 6 →
    let p := s.sel.party
    let ea := (s.mySlot.rp p a).toNat
    s.mySlot.busyP p a = false → s.mySlot.busyP p v = false → GlobalFree s ea 8 8 .read (x :: rest) dlv str →
    Readable s (x :: rest) → ReadsNow s s.sel.slot (s.mySlot.seqOf p).walk x.1 →
      (compares m (wordSeen s s.sel.slot x.1) (s.mySlot.rp p v) → ∃ t, exec (.waitv o a v m) s = .next t ∧ Passed s t ∧
        ∀ b, byteAt t.mem b = byteAt s.mem b) ∧
      (¬ compares m (wordSeen s s.sel.slot x.1) (s.mySlot.rp p v) → ∃ t, exec (.waitv o a v m) s = .next t ∧
        Held s t (.wordv x.1 m (s.mySlot.rp p v) false) ∧ OnlySlot s.sel.slot s t)

/-- R184: on a change of its line the home slice reads the word again, and the sequencer goes on only if it compares. -/
def Sys2Proof.Claim.WaitedWordIsReadAgain : Prop :=
  ∀ (k pa : Nat) (m : BitVec 3) (v : Word) (s : State), (s.slot k).st ≠ 5 → m.toNat < 6 → (s.slot k).waitA = .none →
    (s.slot k).waitE = .wordv pa m v false → ReadsNow s k (s.slot k).esq.walk pa → touchRead pa 8 s = (none, s) →
      ∃ t, exec (.waitvReread k) s = .next t ∧ OnlySlot k s t ∧ (t.slot k).esq = (s.slot k).esq ∧
        (compares m (wordSeen s k pa) v → (t.slot k).waitE = .wordv pa m v true) ∧
        (¬ compares m (wordSeen s k pa) v → (t.slot k).waitE = .wordv pa m v false)

/-- R51, R126, R182: BAR, once the other sequencer has come to it, leaves its arrival to be sent after a release and holds for the
phase it arrives in; BARA leaves it to be sent, records that phase and goes on at once; BARW passes unless the phase recorded by the slot's last BARA is still open. -/
def Sys2Proof.Claim.BarrierWordsArriveAndWait : Prop :=
  ∀ (o z : BitVec 2) (i : BitVec 5) (s : State), Waiter s o →
    let k := s.sel.slot
    let phase := (mget {} s.tgu.bars (keyOf s z i)).phase
    (MayArrive s z i → OtherReached s → ∃ t, exec (.bar o z i) s = .next t ∧ ArrivalPends s t z i ∧ Held s t (.bar (keyOf s z i) phase) ∧
      t.tgu = s.tgu ∧ ∀ b, byteAt t.mem b = byteAt s.mem b) ∧
    (MayArrive s z i → ∃ t, exec (.bara o z i) s = .next t ∧ ArrivalPends s t z i ∧ Passed s t ∧
      mget 0 (t.slot k).bara (keyOf s z i) = phase + 1 ∧ t.tgu = s.tgu ∧ ∀ b, byteAt t.mem b = byteAt s.mem b) ∧
    (barBad z i s = none → mget 0 s.mySlot.bara (keyOf s z i) ≤ phase →
      ∃ t, exec (.barw o z i) s = .next t ∧ Passed s t ∧ t.tgu = s.tgu) ∧
    (barBad z i s = none → mget 0 s.mySlot.bara (keyOf s z i) = phase + 1 →
      ∃ t, exec (.barw o z i) s = .next t ∧ Held s t (.bar (keyOf s z i) phase) ∧ t.tgu = s.tgu)

/-- R51, R126, R182: BAR and BARA complete. With nothing of the slot on its way, the release of BARA is performed once the other
sequencer has passed the word too, and its arrival is counted. BAR, where every other participant has arrived, makes its release and
its arrival, the phase goes on by one, a new round begins, and the sequencer passes the word. -/
def Sys2Proof.Claim.BarrierWordsComplete : Prop :=
  ∀ (o z : BitVec 2) (i : BitVec 5) (s : State), Waiter s o → MayArrive s z i → Settled s.sel.slot s →
    (s.mySlot.seqOf s.sel.party).ended = false →
    let k := s.sel.slot
    let key := keyOf s z i
    let b := mget {} s.tgu.bars key
    let arrive := fun (t v : State) => ∃ u, exec (.accessPerformed k s.mySlot.nextId) t = .next u ∧
      exec (.accessPerformed k (s.mySlot.nextId + 1)) u = .next v
    (OtherPassed s → s.mySlot.exposed = false → ∃ t v, exec (.bara o z i) s = .next t ∧ Passed s t ∧ arrive t v ∧
      mget {} v.tgu.bars key = { b with arrived := k :: b.arrived } ∧
      (v.slot k).pend = [] ∧ ∀ a, byteAt v.mem a = byteAt s.mem a) ∧
    (OtherReached s → s.mySlot.exposed = false → s.mySlot.upend = [] → (∀ j ∈ s.barMembers z.toNat k, j = k ∨ j ∈ b.arrived) →
      ∃ t v w x, exec (.bar o z i) s = .next t ∧ arrive t v ∧ exec (.barrierRelease key) v = .next w ∧
        exec (.waitConditionMet k) w = .next x ∧ Passed s x ∧
        mget {} x.tgu.bars key = { b with phase := b.phase + 1, arrived := [] } ∧ (x.slot k).pend = [] ∧
        ∀ a, byteAt x.mem a = byteAt s.mem a)

/-- R51: once every participant of a barrier has arrived its phase goes on by one and a new round begins; a slot that
waited for that phase may pass. -/
def Sys2Proof.Claim.BarrierFlipsAfterTheLastArrival : Prop :=
  ∀ (key k : Nat) (rest : List Nat) (s : State), (mget {} s.tgu.bars key).arrived = k :: rest →
    (∀ j ∈ s.barMembers (key / 1024) k, j ∈ (mget {} s.tgu.bars key).arrived) →
      ∃ t, exec (.barrierRelease key) s = .next t ∧
        (mget {} t.tgu.bars key).phase = (mget {} s.tgu.bars key).phase + 1 ∧ (mget {} t.tgu.bars key).arrived = [] ∧
        (∀ j, j ≠ key → mget {} t.tgu.bars j = mget {} s.tgu.bars j) ∧
        (∀ j, j ∉ s.barMembers (key / 1024) k → t.slot j = s.slot j) ∧
        (∀ j ∈ s.barMembers (key / 1024) k, ∀ x ∈ (t.slot j).lent, x.1 ≠ key) ∧ (∀ b, byteAt t.mem b = byteAt s.mem b)

/-- R183: BARG of an unguarded task leaves a release and its arrival pending and holds; the atomic unit then counts the
arrival in bits 31:0 of the word, or, when it is the last, starts the next generation with a count of 0. -/
def Sys2Proof.Claim.GlobalBarrierCountsItsArrivals : Prop :=
  ∀ (o : BitVec 2) (a c : BitVec 5) (z : BitVec 3) (x : Nat × Nat × BitVec 2 × Bool) (dlv str : Bool)
    (rest : List (Nat × Nat × BitVec 2 × Bool)) (k id pa : Nat) (q : Acc) (s : State),
    let p := s.sel.party
    let ea := (s.mySlot.rp p a).toNat
    (Waiter s o → z.toNat < 6 → s.mySlot.busyP p a = false → s.mySlot.busyP p c = false →
      GlobalFree s ea 8 8 .write (x :: rest) dlv str → atomBad x.1 8 str s = (none, s) →
      (s.mySlot.otherSeq p).reached (s.mySlot.seqOf p).walk = true → s.myInst.holds = false →
      ∃ t, exec (.barg o a c z) s = .next t ∧ Held s t .arrive ∧ OnlySlot s.sel.slot s t ∧
        ∃ f ∈ (t.slot s.sel.slot).pend, ∃ b ∈ (t.slot s.sel.slot).pend, f.kind = .fence ∧ f.fk = 1 ∧ f.scope = z ∧
          f.stor = 7 ∧ b.kind = .barg ∧ b.parts = x :: rest ∧ b.data2 = s.mySlot.rp p c ∧ f.id < b.id) ∧
    (AtHome k id pa 8 q s → q.dst = 1 → decodeCore q.word = .ok (.barg o a c z) →
      let w := valueAt s pa 8
      ∃ t, exec (.homeSliceAtomic k id) s = .next t ∧
        valueAt t pa 8 = (if q.data2.toNat % 2 ^ 32 ≤ w % 2 ^ 32 + 1 then (w / 2 ^ 32 + 1) % 2 ^ 32 * 2 ^ 32 else (w + 1) % 2 ^ 64) ∧
        (t.slot k).waitE = .barg q.va none (BitVec.ofNat 32 (w / 2 ^ 32)) false ∧ OutsideSame pa 8 s t)

/-- R183: BARG completes at the last arrival. The atomic unit starts the next generation; the word is translated and read again,
another generation is found there, and the sequencer passes the word. -/
def Sys2Proof.Claim.GlobalBarrierCompletes : Prop :=
  ∀ (o : BitVec 2) (a c : BitVec 5) (z : BitVec 3) (k id pa : Nat) (q : Acc) (l : TlbEnt) (s : State),
    let w := valueAt s pa 8
    AtHome k id pa 8 q s → q.dst = 1 → decodeCore q.word = .ok (.barg o a c z) → q.data2.toNat % 2 ^ 32 ≤ w % 2 ^ 32 + 1 →
    (s.slot k).pend = [q] → (s.core (coreOf k)).l1 = [] → s.owes (coreOf k) = false →
    (s.inst ((s.slot k).task.getD 0)).holds = false → (s.slot k).waitA = .none → (s.slot k).waitE = .arrive → k < 64 →
    ((s.slot k).st = 1 ∨ (s.slot k).st = 2 ∨ (s.slot k).st = 3) → (s.slot k).exposed = false → (s.slot k).upend = [] →
    s.xlSlot k q.va 8 .write = .hit l → l.pa q.va = pa → s.poison = [] → s.canAccess 16 (linesOf pa 8) = true →
      ∃ t u v x, exec (.homeSliceAtomic k id) s = .next t ∧ exec (.waitvReread k) t = .next u ∧ exec (.waitvReread k) u = .next v ∧
        exec (.waitConditionMet k) v = .next x ∧ valueAt x pa 8 = (w / 2 ^ 32 + 1) % 2 ^ 32 * 2 ^ 32 ∧
        (x.slot k).esq.pc = nextPc (s.slot k) .esq ∧ (x.slot k).esq.waiting = false ∧ (x.slot k).waitE = .none ∧
        (x.slot k).pend = [] ∧ OutsideSame pa 8 s x

end
namespace Sys2Proof.Claim

open Sys2Proof.Machine

/-! ### The words of both sequencers, user-level traps and the fault stop (R336 to R353, R403 to R407, R414) -/

/-- The x registers that a Y word names have landed. -/
def YReads (s : State) (rs : List (BitVec 5)) : Prop := ∀ r ∈ rs, s.mySlot.busyP .esq r = false
/-- A Y word is done: with u its effect, both sequencers go on to their next word, which for an ESQ in exposed mode is a
tick; nothing else changes. -/
def bothPass (s u : State) : State := adv s.sel.slot .esq (adv s.sel.slot .asq u)
/-- The effect of writing an x register of the slot, which a Y word does after its tick (R58); x0 takes no value. -/
def withX (s : State) (d : BitVec 5) (v : Word) : State :=
  s.modSlot s.sel.slot fun sl => if d = 0 then sl else { sl with x := mset 0 sl.x d.toNat v }

/-- The value of a CSR, by the table of R337. -/
def csrValue (sl : Slot) (k n : Nat) : Option Word :=
  if n = 0x010 then some sl.slipw
  else if n = 0x011 then some (slotst sl k)
  else if n = 0x020 then some sl.spwin
  else if n = 0x021 then some sl.accwin
  else if n = 0x030 then some sl.shape
  else if n = 0x040 then some sl.utvec
  else if n = 0x041 then some sl.uepc
  else if n = 0x042 then some sl.ucause
  else if n = 0x043 then some sl.utval
  else if n = 0x044 then some sl.uscratch
  else if n = 0x050 then some (sl.trec.extractLsb' 0 64)
  else if n = 0x051 then some (sl.trec.extractLsb' 64 64)
  else if n = 0x052 then some (sl.trec.extractLsb' 128 64)
  else if n = 0x053 then some (sl.trec.extractLsb' 192 64)
  else if 0x100 ≤ n ∧ n < 0x140 then some (mget {} sl.cos (n - 0x100)).cfg
  else if 0x140 ≤ n ∧ n < 0x180 then some (mget {} sl.cos (n - 0x140)).status
  else none
/-- The CSR words: what each writes, given the old value and x[a] (R338); with a = x0 CSRS and CSRC write nothing. -/
def csrWrites (d a : BitVec 5) (c : BitVec 12) (old xa : Word) : List (Instr × Option Word) :=
  [(.csrr d c, none), (.csrw d a c, some xa), (.csrs d a c, if a = 0 then none else some (old ||| xa)),
   (.csrc d a c, if a = 0 then none else some (old &&& ~~~xa))]
/-- The stored form of a write (R6, R38, R189, R339) to a CSR other than a completion object. -/
def csrStored (n : Nat) (v : Word) (sl : Slot) : Slot :=
  if n = 0x010 then { sl with slipw := BitVec.ofNat 64 (max 1 (min 1024 (v.toNat % 2 ^ 11))) }
  else if n = 0x030 then { sl with shape := v &&& 0b111011001111 }
  else if n = 0x040 then { sl with utvec := BitVec.ofNat 64 (v.toNat % 2 ^ 57 / 4 * 4) }
  else if n = 0x041 then { sl with uepc := BitVec.ofNat 64 (v.toNat % 2 ^ 57 / 4 * 4) }
  else if n = 0x042 then { sl with ucause := BitVec.ofNat 64 (v.toNat % 2 ^ 21) }
  else if n = 0x043 then { sl with utval := v }
  else if n = 0x044 then { sl with uscratch := v }
  else sl
/-- The bits of a COCFG value that its kind uses (R237): KIND in 63:61; of kind 2 the counter number in 15:0, of kind 3 the ring's
fields in 51:4, of kind 4 the address in 56:3. Every other bit is reserved and reads as zero (R6). -/
def cfgKept (v : Word) : Word :=
  let arg : Nat × Nat := match v.toNat / 2 ^ 61 with
    | 2 => (15, 0)
    | 3 => (51, 4)
    | 4 => (56, 3)
    | _ => (0, 1)
  BitVec.ofNat 64 (v.toNat / 2 ^ 61 * 2 ^ 61 + v.toNat % 2 ^ (arg.1 + 1) / 2 ^ arg.2 * 2 ^ arg.2 )
/-- A written completion object starts afresh: nothing counted, no slot filled, and every slot of a ring free up to its
window (R239). -/
def fresh (v : Word) (o : Co) : Prop :=
  o.cfg = cfgKept v ∧ o.count = 0 ∧ o.oldest = 0 ∧ o.next = 0 ∧ o.filled = 0 ∧
    o.free = (if o.kind = 3 then o.nw else 0)

/-- The slot's handler is entered (R340): pc and cause saved, both sequencers at the handler on the shared walk. -/
def Entered (k : Nat) (pc : Word) (cause : Nat) (tval : Word) (s t : State) : Prop :=
  (t.slot k).uepc = pc ∧ (t.slot k).ucause = BitVec.ofNat 64 cause ∧ (t.slot k).utval = tval ∧ (t.slot k).st = 3 ∧
    (t.slot k).handler = true ∧ (t.slot k).asq.pc = (s.slot k).utvec ∧ (t.slot k).esq.pc = (s.slot k).utvec ∧
    (t.slot k).results = [] ∧ (t.slot k).a = (s.slot k).a ∧ (t.slot k).queues = (s.slot k).queues ∧
    (∀ j, j ≠ k → t.slot j = s.slot j) ∧ ∀ b, byteAt t.mem b = byteAt s.mem b

/-- The bytes of a future that a slot may read now: both words lie in one readable part. -/
def FutureAt (s : State) (ea : Nat) (n : Nat) (w : Want) (parts : List (Nat × Nat × BitVec 2 × Bool)) : Prop :=
  ∃ dlv str, GlobalFree s ea n n w parts dlv str

end Sys2Proof.Claim

section

open Sys2Proof Sys2Proof.Machine Sys2Proof.Claim

/-- R35, R57: when a Y word is done in interlocked mode, each sequencer stands at its next word and of the slot nothing
else differs from the word's effect; no other slot and no byte of memory changes. -/
def Sys2Proof.Claim.RendezvousMovesBothSequencers : Prop :=
  ∀ (s u : State), u.sel = s.sel → (u.slot s.sel.slot).exposed = false →
    let k := s.sel.slot
    ((bothPass s u).slot k).asq = (u.slot k).asq.step ∧ ((bothPass s u).slot k).esq = (u.slot k).esq.step ∧
      { (bothPass s u).slot k with asq := (u.slot k).asq, esq := (u.slot k).esq, lastAct := (u.slot k).lastAct,
                                   reported := (u.slot k).reported } = u.slot k ∧ OnlySlot k u (bothPass s u)

/-- R337, R338: CSRR, CSRW, CSRS and CSRC return the old value in d and write the new one in the form its register
stores; a write of a read-only CSR is ignored. A CSR of a completion object that nothing names is configured afresh. -/
def Sys2Proof.Claim.CsrWordsReadAndWrite : Prop :=
  ∀ (d a : BitVec 5) (c : BitVec 12) (old : Word) (s : State), YReads s [d, a] →
    csrValue s.mySlot s.sel.slot c.toNat = some old → (c.toNat = 0x030 → mget [] s.mySlot.queues 0 = []) →
    ∀ w ∈ csrWrites d a c old (s.mySlot.rx a),
      (w.2 = none → exec w.1 s = .next (withX (bothPass s s) d old)) ∧
      (∀ v, w.2 = some v → (c.toNat < 0x100 ∨ 0x140 ≤ c.toNat) →
        exec w.1 s = .next (withX (bothPass s (s.modSlot s.sel.slot (csrStored c.toNat v))) d old)) ∧
      (∀ v, w.2 = some v → 0x100 ≤ c.toNat → c.toNat < 0x140 → cocfgBad s.mySlot s.myGraph.nctr v = false →
        s.coNamed s.sel.slot (c.toNat - 0x100) = false →
        ∃ u, exec w.1 s = .next (withX (bothPass s u) d old) ∧ fresh v (mget {} (u.slot s.sel.slot).cos (c.toNat - 0x100)) ∧
          (∀ j, j ≠ c.toNat - 0x100 → mget {} (u.slot s.sel.slot).cos j = mget {} s.mySlot.cos j) ∧ OnlySlot s.sel.slot s u)

/-- R190, R239: a CSR write that held its rendezvous is done once the V queue is empty, or once nothing names the object:
the register is written, d gets the old value and both sequencers go on, unless a pending cause is to be delivered there first
(R404). -/
def Sys2Proof.Claim.HeldCsrWritesAreDone : Prop :=
  ∀ (k n : Nat) (v : Word) (d : BitVec 5) (s : State), (s.slot k).csrWait = some (n, v, d) → (s.slot k).st ≠ 5 →
    s.trapDue k = false →
    (n = 0x030 → mget [] (s.slot k).queues 0 = [] →
      exec (.shapeCsrWrite k) s = .next ((adv k .esq (adv k .asq (s.modSlot k fun sl =>
        { csrStored 0x030 v sl with csrWait := none }))).modSlot k fun sl => sl.wx d (s.slot k).shape)) ∧
    (0x100 ≤ n → n < 0x140 → s.coNamed k (n - 0x100) = false →
      ∃ u, exec (.cocfgWrite k) s = .next ((adv k .esq (adv k .asq u)).modSlot k fun sl =>
          sl.wx d (mget {} (s.slot k).cos (n - 0x100)).cfg) ∧
        fresh v (mget {} (u.slot k).cos (n - 0x100)) ∧ (u.slot k).csrWait = none ∧ (u.slot k).x = (s.slot k).x ∧
        (∀ j, j ≠ n - 0x100 → mget {} (u.slot k).cos j = mget {} (s.slot k).cos j) ∧ OnlySlot k s u)

/-- R340 to R342, R404: TRAP enters the handler with cause 0x02 and its code; a pending cause of a winnow operation is
delivered with its own cause at a Y word where both sequencers stand; UTRET returns both to UEPC, or to the word after. -/
def Obligations.UserTrapsEnterAndReturn : Prop :=
  ∀ (c : BitVec 13) (m : BitVec 1) (k : Nat) (u : UPend) (us : List UPend) (w : W32) (s : State),
    (s.mySlot.handler = false → s.mySlot.utvec ≠ 0 → ∃ t, exec (.trap c) s = .next t ∧
      Entered s.sel.slot s.mySlot.esq.pc (0x02 + 256 * c.toNat) 0 s t) ∧
    (s.mySlot.handler = true → ∃ t, exec (.utret m) s = .next t ∧
      (t.slot s.sel.slot).asq.pc = (if m = 1 then s.mySlot.uepc else s.mySlot.uepc + 4) ∧
      (t.slot s.sel.slot).esq.pc = (t.slot s.sel.slot).asq.pc ∧ (t.slot s.sel.slot).st = 1 ∧
      (t.slot s.sel.slot).handler = false ∧ (t.slot s.sel.slot).uepc = s.mySlot.uepc ∧
      (s.mySlot.exposed = false → OnlySlot s.sel.slot s t)) ∧
    ((s.slot k).upend = u :: us → (s.slot k).handler = false → (s.slot k).rendezvous = true →
      (s.slot k).st = 1 ∨ (s.slot k).st = 2 → fetchWord k .esq s = .inr (w, s) → wordTag w = 6 → (s.slot k).utvec ≠ 0 →
      ∃ t, exec (.userTrapDeliver k) s = .next t ∧ (t.slot k).upend = us ∧
        Entered k (s.slot k).esq.pc u.cause.toNat u.tval s t)

/-- R406, R407, R414, R422: a word that names no instruction stops its slot before it: the slot is Saved, its task waits
for an action, and the next entry of the fault queue is a synchronous record of cause 0x10 with the party, the word's
address, and the word and reason in INFO. The management core takes the cause with its own handler instead (R431). -/
def Obligations.WordThatIsNoInstructionStopsItsSlot : Prop :=
  ∀ (r : Nat) (s : State), r < 256 →
    (s.sel.kind = .core → s.fq.full = false → s.mySlot.results = [] → (s.myInst.slots = [s.sel.slot]) →
      ∃ t e, exec (.notAnInstruction r) s = .next t ∧ (t.slot s.sel.slot).st = 5 ∧ (t.inst s.myTask).faulted = true ∧
        mget ({}, .none) t.fq.recs s.fq.tail.toNat = (e, .task s.myTask) ∧ t.fq.tail = s.fq.tail + 1 ∧
        e.cause = 0x10 ∧ e.kind = 0 ∧ e.src = srcOf s.sel.party ∧ e.pc = s.mySlot.pcOf s.sel.party ∧
        e.info = BitVec.ofNat 64 (s.sel.word.toNat + 2 ^ 32 * r) ∧ e.task = s.mySlot.trec ∧
        (t.slot s.sel.slot).asq.pc = s.mySlot.asq.pc ∧ (t.slot s.sel.slot).esq.pc = s.mySlot.esq.pc ∧
        (t.slot s.sel.slot).x = s.mySlot.x ∧ (∀ b, byteAt t.mem b = byteAt s.mem b)) ∧
    (s.sel.kind = .mgmt → exec (.notAnInstruction r) s = .next { s with mgmt :=
      { s.mgmt with epc := s.mgmt.pc, epriv := s.mgmt.priv, pc := s.mgmt.vec, priv := true, cause := 0x10 } })

/-- R343, R344: FGET of a full future puts its value word in d, of an empty one enters the handler with cause 0x01 and
its address; FPUT of an unguarded task, once every earlier access is done and visible, writes the value and then 1 to the
state word, and no other byte. -/
def Sys2Proof.Claim.FuturesAreReadAndFilled : Prop :=
  ∀ (d a b : BitVec 5) (pa : Nat) (ord : BitVec 2) (gex : Bool) (s : State), YReads s [d, a, b] →
    let k := s.sel.slot
    let ea := (s.mySlot.rx a).toNat
    let parts := [(pa, 16, ord, gex)]
    (FutureAt s ea 16 .read parts → Readable s parts → s.mayRead k parts 16 = true → s.owes (coreOf k) = false →
      s.canAccess (coreOf k) (linesOf pa 16) = true →
      let bytes := s.accBytes k ea 16 parts
      let value := BitVec.ofNat 64 (leNat (bytes.drop 8))
      (leNat (bytes.take 8) % 2 = 1 → ∃ u, exec (.fget d a) s = .next (withX (bothPass s u) d value) ∧ u.slots = s.slots ∧
        u.mem = s.mem ∧ u.cores = s.cores) ∧
      (leNat (bytes.take 8) % 2 = 0 → s.mySlot.handler = false → s.mySlot.utvec ≠ 0 → ∃ t, exec (.fget d a) s = .next t ∧
        Entered k s.mySlot.esq.pc 0x01 (BitVec.ofNat 64 ea) s t)) ∧
    (FutureAt s ea 16 .write parts → s.released k = true → s.myInst.holds = false → s.myInst.frozen = false →
      s.putWaits s.myTask (linesOf pa 16) = false → s.canWrite (coreOf k) (linesOf pa 16) = true → (∀ i, i < 16 → s.pclass (pa + i) = .pmd) → s.flips = [] →
      ∃ t, exec (.fput a b) s = .next t ∧ valueAt t pa 8 = 1 ∧ valueAt t (pa + 8) 8 = (s.mySlot.rx b).toNat ∧
        OutsideSame pa 16 s t ∧ (t.slot k).asq = s.mySlot.asq.step ∧ (t.slot k).esq = s.mySlot.esq.step)

/-- R345, R346, R347, R351: PRIO sets the class, capped by the type's CMAX; TSPAWN enters the record it reads, with the
issuer's graph, bank and replay, into a pool with room; YIELD completes at once unless a waiting task needs what this one
holds, and then its checkpoint begins with both sequencers past it; PARAMPUBLISH requests the publication of its graph. -/
def Sys2Proof.Claim.PriorityAndSpawnWords : Prop :=
  ∀ (a : BitVec 5) (g : BitVec 1) (n : BitVec 2) (parts : List (Nat × Nat × BitVec 2 × Bool)) (s : State),
    YReads s [a] →
    let k := s.sel.slot
    let ea := (s.mySlot.rx a).toNat
    let v := if g = 1 then (s.mySlot.rx a).toNat % 4 else n.toNat
    (exec (.prio a g n) s = .next (bothPass s (s.modSlot k fun sl =>
      { sl with cls := BitVec.ofNat 2 (min v (tCmax s.myType)) }))) ∧
    (FutureAt s ea 32 .read parts → Readable s parts → s.mayRead k parts 32 = true →
      s.forkReady k 3 (fun _ => true) = true → s.canAccess (coreOf k) (partLines parts) = true → s.poolCount < 2048 →
      let r := leNat (s.accBytes k ea 32 parts)
      let byte := fun (i n : Nat) => r / 256 ^ i % 256 ^ n
      (∃ m, m < s.myGraph.nnode ∧ nType (s.node s.myGraph m) = byte 0 1) → byte 10 2 ≤ s.myGraph.nctr →
      let record : Inst :=
        { type := byte 0 1, graph := s.myInst.graph, bank := s.myInst.bank, replay := s.myInst.replay,
          stage := byte 2 1 % 16, cut := byte 3 1, x := byte 4 2, y := byte 6 2, z := byte 8 2,
          sctr := byte 10 2, guarded := tGuarded (s.typeEnt (byte 0 1)) }
      ∃ u, exec (.tspawn a) s = .next (bothPass s (addInst record u)) ∧
        u.slots = s.slots ∧ u.tgu = s.tgu ∧ u.mem = s.mem) ∧
    ((s.wanted s.myTask s.mySlot.eclass && (bothPass s s).canSave s.myTask) = false → exec .yield s = .next (bothPass s s)) ∧
    ((s.wanted s.myTask s.mySlot.eclass && (bothPass s s).canSave s.myTask) = true →
      exec .yield s = .next (beginSave s.myTask (bothPass s s))) ∧
    (ea % 64 = s.myInst.graph → s.tguMay 3 = true → exec (.parampublish a) s
      = .next (bothPass s (setGraph s.myInst.graph { s.myGraph with pubreq := true } (tguDid 3 s))))

/-- R330, R334, R348 to R350: CUTPOST of a released producer whose window is known publishes its cut with its bound, and
nothing once it is frozen; CUTSTOP votes on the edge; CUTGET of 0xFF reads the task's own freeze and cut, of an input
index the producer's cut, its final and frozen marks, the task's vote and the bound. -/
def Sys2Proof.Claim.CutWordsDoTheirWork : Prop :=
  ∀ (d a b : BitVec 5) (w : List (Nat × Nat)) (e : Nat) (s s1 : State), YReads s [d, a, b] →
    let k := s.sel.slot
    let v := (s.mySlot.rx a).toNat
    let i := s.myInst
    let fin := decide (v / 256 % 2 = 1)
    -- the cut is published, both sequencers go on, and what becomes ready or settled by it does so
    let published := fun (u : State) =>
      let t := publishCut s.myTask (v % 256) (if fin then 0 else (s.mySlot.rx b).extractLsb' 0 32) fin (tguDid 1 u)
      aftermath (bothPass t t)
    (tTlen s.myType ≠ 0 → s.walkStop = none → i.frozen = true → exec (.cutpost a b) s = .next (bothPass s s)) ∧
    (tTlen s.myType ≠ 0 → i.frozen = false → v % 256 ≠ 0 → i.pub < v % 256 → i.fin = false → s.released k = true →
      s.tguMay 1 = true →
      (i.window = some w → (published s).walkStop = none → exec (.cutpost a b) s = .next (published s)) ∧
      (i.window = none → windowOf s.myTask s = (.inr w, s1) → (s1.windowHeld s.myTask w && s1.commitWaits s.myTask) = false →
        let u := releaseWindow s.myTask (s1.setInst s.myTask { s1.inst s.myTask with window := some w })
        (published u).walkStop = none → exec (.cutpost a b) s = .next (published u))) ∧
    (s.cutIn i (v % 8) = some e → s.tguMay 2 = true →
      exec (.cutstop a) s = .next (vote (((bothPass s s).slot k).task.getD 0) e (bothPass s s))) ∧
    (v % 256 = 0xFF → exec (.cutget d a) s
      = .next (withX (bothPass s s) d (BitVec.ofNat 64 ((if i.frozen then 1 else 0) + 256 * min i.pub 255)))) ∧
    (v % 256 < 8 → s.cutIn i (v % 256) = some e →
      let p := ((s.producerOf i.graph i.replay e i.x i.y i.z).map (·.2)).getD {}
      exec (.cutget d a) s = .next (withX (bothPass s s) d (BitVec.ofNat 64 (min p.pub 255 + (if p.fin then 256 else 0)
        + (if p.frozen then 512 else 0) + (if i.votes.contains (v % 256) then 1024 else 0) + 2 ^ 32 * p.bound.toNat))))

/-- R334, R349: a vote marks the input of the task; once every consumer on the edge has voted the producer, unless its final cut is
out, is frozen, and while one has not it is as it was. -/
def Sys2Proof.Claim.VotesFreezeTheProducer : Prop :=
  ∀ (t e pt : Nat) (p : Inst) (s : State),
    let i := s.inst t
    let voted : Inst := { i with votes := if i.votes.contains (eIn e) then i.votes else eIn e :: i.votes }
    let u := (tguDid 2 s).setInst t voted
    u.producerOf i.graph i.replay e i.x i.y i.z = some (pt, p) → p.fin = false → eMap e ≠ 2 → (u.fedBy p e) ≠ [] →
      ((∀ x ∈ u.fedBy p e, x.2.votes.contains (eIn e) = true) → vote t e s = aftermath (u.setInst pt { p with frozen := true })) ∧
      ((∃ x ∈ u.fedBy p e, x.2.votes.contains (eIn e) = false) → vote t e s = aftermath u)

/-- R352, R353: at the management core SRET returns to the saved address and privilege, HALT stops the fetch, and TINV
of mode 0, 1 or 2 removes from every tier the translations of its page, of its space, or all, and is under way; mode 3
does nothing; a slot that waits for a word of memory will find the word anew. A slot that meets one of them takes cause 0x12. -/
def Sys2Proof.Claim.PrivilegedWordsOfTheManagementCore : Prop :=
  ∀ (a b : BitVec 5) (m : BitVec 2) (s : State),
    let c := s.mgmt
    let reg := fun (r : BitVec 5) => (if r = 0 then 0 else mget 0 c.x r.toNat : Word)
    (s.sel.kind = .mgmt →
      exec .sret s = .next { s with mgmt := { c with pc := c.epc, priv := c.epriv } } ∧
      exec .halt s = .next { s with mgmt := { c.step with halted := true } } ∧
      (m = 3 → exec (.tinv a b m) s = .next { s with mgmt := c.step }) ∧
      (m ≠ 3 → ∃ t, exec (.tinv a b m) s = .next t ∧ t.mgmt = c.step ∧
        t.tinv = some (m, (reg a).toNat, (reg b).toNat % 4096) ∧
        { t with tlbs := s.tlbs, tinv := s.tinv, mgmt := c, slots := s.slots } = s ∧
        (∀ k, (s.slot k).waitA = .none → (s.slot k).waitE = .none → t.slot k = s.slot k) ∧
        ∀ tier ∈ t.tlbs, ∀ e ∈ tier.2, (m = 0 → e.covers ((reg b).toNat % 4096) (reg a).toNat = false) ∧
          (m = 1 → e.space ≠ (reg b).toNat % 4096) ∧ m ≠ 2)) ∧
    (s.sel.kind ≠ .mgmt → ∀ i ∈ [Instr.sret, .halt, .tinv a b m], exec i s = stop { code := 0x12, reason := 0x07 } s)

end
namespace Sys2Proof.Claim

open Sys2Proof.Machine

/-! ### Vector words (R188 to R209) -/

/-- Lane i of width w of a vector register. -/
def laneOf (w : Nat) (v : Vec) (i : Nat) : Nat := v.toNat / 2 ^ (w * i) % 2 ^ w
/-- The exact value of an integer lane. -/
def exact (c : VCtx) (x : Nat) : Int := if isSigned c.t ∧ 2 ^ (c.w - 1) ≤ x then (x : Int) - 2 ^ c.w else x
/-- An exact integer in a lane: clamped to the type's range when the variant saturates, else modulo 2^w (R68, R198). -/
def fit (c : VCtx) (e : Int) : Nat :=
  let lo : Int := if isSigned c.t then -2 ^ (c.w - 1) else 0
  let hi : Int := if isSigned c.t then 2 ^ (c.w - 1) - 1 else 2 ^ c.w - 1
  ((if c.sat then max lo (min hi e) else e) % 2 ^ c.w).toNat
def wrap (w : Nat) (e : Int) : Nat := (e % 2 ^ w).toNat

/-- A V word: its tokens and variant, whether it exists in a context, the x registers it captures, its latency and its
issue interval (R209). -/
structure VRow where
  i : Instr
  tk : BitVec 4
  v : Option (BitVec 4) := none
  fits : VCtx → Bool := fun _ => true
  xs : List (BitVec 5) := []
  lat : VCtx → Nat := fun _ => 1
  ivl : VCtx → Nat := fun _ => 1

/-- The context of a word in the slot: type, rounding, saturation and flushing by its variant and SHAPE (R189, R191). -/
def contextOf (sl : Slot) (r : VRow) : VCtx := vCtx sl.shape sl.exposed (r.v.getD 0)

/-- The word has taken effect: slot sl' after what it changes at once, with its result in flight, due by its latency (a
change of the mask stack at the start of that tick, R195), and its tokens taken. -/
def flown (s : State) (r : VRow) (res : Res) (sl' : Slot) : State :=
  let c := contextOf s.mySlot r
  let u := s.setSlot s.sel.slot { sl'.tokTake 0 r.tk with
    results := (sl'.tokTake 0 r.tk).results ++
      [{ res with due := s.mySlot.tick + r.lat c - (if res.masks.isSome then 1 else 0), inter := !s.mySlot.exposed, tok := r.tk }] }
  if r.ivl c = 1 then u else u.modCore (coreOf s.sel.slot) fun co => { co with unitBusy := s.clk + r.ivl c }

/-- The word runs with effect E, from the V queue in its issue turn, or at once for an ESQ in exposed mode, where its type
exists, its tokens are there, its unit is free and nothing else of its own (more) holds or stops it. -/
def Runs (s : State) (r : VRow) (more : Nat → Prop) (E : VCtx → List Word → Res → Slot → Prop) : Prop :=
  let k := s.sel.slot
  let sl := s.mySlot
  let c := contextOf sl r
  r.v ≠ some 0xF → r.fits c = true → sl.tokReady 0 r.tk = true → (r.ivl c = 1 ∨ (s.core (coreOf k)).unitBusy ≤ s.clk) →
    (s.sel.issue = true → ∀ e q, sl.issuing = some (e, q) → more e.id →
      ∃ res sl', E c e.regs res sl' ∧
        exec r.i s = .next (progress k ((flown s r res sl').modSlot k fun sl => { sl with issuing := none }))) ∧
    (s.sel.issue = false → s.sel.party = .esq → sl.exposed = true → more sl.nextId →
      ∃ res sl', E c (r.xs.map sl.rx) res sl' ∧ exec r.i s = .next (adv k .esq (flown s r res sl')))

/-- A result that writes the lanes in act of n lanes of width w, and no other of them. -/
def LaneWrite (res : Res) (d : BitVec 5) (w n : Nat) (act : Nat → Prop) (f : Nat → Nat) : Prop :=
  ∃ val m, res = { v := some (d.toNat, val, m) } ∧ ∀ i, i < n →
    (act i → laneOf w m i = 2 ^ w - 1 ∧ laneOf w val i = f i % 2 ^ w) ∧ (¬ act i → laneOf w m i = 0)
/-- A result that writes a whole register. -/
def WholeWrite (res : Res) (d : BitVec 5) (w : Nat) (f : Nat → Nat) : Prop :=
  ∃ val, res = { v := some (d.toNat, val, BitVec.allOnes 2048) } ∧ ∀ i, i < 2048 / w → laneOf w val i = f i % 2 ^ w

/-- The words that write the lanes their top mask has set (R193, R197, R198, R201, R202, R205), with what lane i gets, given
the captured registers. -/
def mergeRows (tk : BitVec 4) (d a b : BitVec 5) (v : BitVec 4) (sl : Slot) : List (VRow × (VCtx → List Word → Nat → Nat)) :=
  let A := fun (c : VCtx) (i : Nat) => laneOf c.w (sl.rv a) i
  let B := fun (c : VCtx) (i : Nat) => laneOf c.w (sl.rv b) i
  let D := fun (c : VCtx) (i : Nat) => laneOf c.w (sl.rv d) i
  let F := fun (c : VCtx) (x : Nat) => fpLane c x
  let arith := fun (c : VCtx) (f : FV) (e : Int) => if isFloat c.t then placeFp c f else fit c e
  let vec := fun (c : VCtx) => vecType c.t
  let int := fun (c : VCtx) => vecType c.t && isInt c.t
  let flo := fun (c : VCtx) => isFloat c.t
  let addLat := fun (c : VCtx) => if isFloat c.t then 4 else 2
  let act := fun (i : Nat) => sl.topMask.getLsbD i
  [(⟨.vadd tk d a b v, tk, some v, vec, [], addLat, fun _ => 1⟩, fun c _ i =>
      arith c ((F c (A c i)).add c.rm (F c (B c i))) (exact c (A c i) + exact c (B c i))),
   (⟨.vsub tk d a b v, tk, some v, vec, [], addLat, fun _ => 1⟩, fun c _ i =>
      arith c ((F c (A c i)).add c.rm (F c (B c i)).neg) (exact c (A c i) - exact c (B c i))),
   (⟨.vmul tk d a b v, tk, some v, vec, [], fun _ => 4, fun _ => 1⟩, fun c _ i =>
      arith c ((F c (A c i)).mul (F c (B c i))) (exact c (A c i) * exact c (B c i))),
   (⟨.vfma tk d a b v, tk, some v, vec, [], fun _ => 5, fun _ => 1⟩, fun c _ i =>
      arith c (((F c (A c i)).mul (F c (B c i))).add c.rm (F c (D c i))) (exact c (A c i) * exact c (B c i) + exact c (D c i))),
   (⟨.vfms tk d a b v, tk, some v, vec, [], fun _ => 5, fun _ => 1⟩, fun c _ i =>
      arith c ((F c (D c i)).add c.rm ((F c (A c i)).mul (F c (B c i))).neg) (exact c (D c i) - exact c (A c i) * exact c (B c i))),
   (⟨.vmin tk d a b v, tk, some v, vec, [], fun _ => 2, fun _ => 1⟩, fun c _ i =>
      arith c ((F c (A c i)).min (F c (B c i))) (min (exact c (A c i)) (exact c (B c i)))),
   (⟨.vmax tk d a b v, tk, some v, vec, [], fun _ => 2, fun _ => 1⟩, fun c _ i =>
      arith c ((F c (A c i)).max (F c (B c i))) (max (exact c (A c i)) (exact c (B c i)))),
   (⟨.vabs tk d a v, tk, some v, vec, [], fun _ => 2, fun _ => 1⟩, fun c _ i =>
      arith c (F c (A c i)).abs (exact c (A c i)).natAbs),
   (⟨.vneg tk d a v, tk, some v, vec, [], fun _ => 2, fun _ => 1⟩, fun c _ i =>
      arith c (F c (A c i)).neg (- exact c (A c i))),
   (⟨.vdiv tk d a b v, tk, some v, vec, [], fun c => if isFloat c.t then 16 else 20, fun _ => 8⟩, fun c _ i =>
      if isFloat c.t then placeFp c ((F c (A c i)).div (F c (B c i)))
      else if B c i = 0 then 2 ^ c.w - 1 else wrap c.w ((exact c (A c i)).tdiv (exact c (B c i)))),
   (⟨.vsqrt tk d a v, tk, some v, flo, [], fun _ => 16, fun _ => 8⟩, fun c _ i => placeFp c (F c (A c i)).sqrt),
   (⟨.vrcp tk d a v, tk, some v, flo, [], fun _ => 8, fun _ => 1⟩, fun c _ i => placeFp c (fvRcp (F c (A c i)))),
   (⟨.vrsq tk d a v, tk, some v, flo, [], fun _ => 8, fun _ => 1⟩, fun c _ i => placeFp c (fvRsqrt (F c (A c i)))),
   (⟨.vexp2 tk d a v, tk, some v, flo, [], fun _ => 8, fun _ => 1⟩, fun c _ i => placeFp c (fvExp2 (F c (A c i)))),
   (⟨.vlog2 tk d a v, tk, some v, flo, [], fun _ => 8, fun _ => 1⟩, fun c _ i => placeFp c (fvLog2 (F c (A c i)))),
   (⟨.vand tk d a b v, tk, some v, vec, [], fun _ => 1, fun _ => 1⟩, fun c _ i => laneOf c.w (sl.rv a &&& sl.rv b) i),
   (⟨.vor tk d a b v, tk, some v, vec, [], fun _ => 1, fun _ => 1⟩, fun c _ i => laneOf c.w (sl.rv a ||| sl.rv b) i),
   (⟨.vxor tk d a b v, tk, some v, vec, [], fun _ => 1, fun _ => 1⟩, fun c _ i => laneOf c.w (sl.rv a ^^^ sl.rv b) i),
   (⟨.vshl tk d a b v, tk, some v, int, [], fun _ => 1, fun _ => 1⟩, fun c _ i =>
      if c.w ≤ B c i then 0 else A c i * 2 ^ B c i),
   (⟨.vshr tk d a b v, tk, some v, int, [], fun _ => 1, fun _ => 1⟩, fun c _ i =>
      wrap c.w (exact c (A c i) / 2 ^ min (B c i) c.w)),
   (⟨.vmov tk d a v, tk, some v, vec, [], fun _ => 1, fun _ => 1⟩, fun c _ i => A c i),
   (⟨.vbcst tk d a v, tk, some v, vec, [a], fun _ => 1, fun _ => 1⟩, fun _ xs _ => (xs.headD 0).toNat),
   (⟨.vperm tk d a b v, tk, some v, vec, [], fun _ => 2, fun _ => 1⟩, fun c _ i => A c (B c i % c.n)),
   (⟨.vslide tk d a b v, tk, some v, vec, [b], fun _ => 2, fun _ => 1⟩, fun c xs i =>
      let j := (i : Int) + (xs.headD 0).toInt
      if 0 ≤ j ∧ j < c.n then A c j.toNat else 0),
   (⟨.viota tk d a v, tk, some v, vec, [a], fun _ => 1, fun _ => 1⟩, fun c xs i =>
      arith c (.ofInt ((xs.headD 0).toInt + i)) ((xs.headD 0).toInt + i)),
   (⟨.vdqmx tk d a v, tk, some v, fun c => isFloat c.t && c.mxf != 3, [], fun _ => 4, fun _ => 1⟩, fun c _ i =>
      let w := typeBits (mxType c.mxf)
      placeFp c (mxValue (mxType c.mxf) (sext w (laneOf w (sl.rv a) i)) (laneOf 8 (sl.rv a) (248 + i / 32)))),
   (⟨.vscan tk d a v, tk, some v, vec, [], fun c => 4 + 1024 / c.w / 2, fun c => 1024 / c.w / 2⟩, fun c _ i =>
      if isFloat c.t then
        (fmtOf c.t).round 0 false ((List.range (i + 1)).foldl (fun acc j => if act j then addFp c acc (F c (A c j)) else acc)
          (sumIdent c.rm))
      else wrap c.w ((List.range (i + 1)).foldl (fun acc j => if act j then exact c (fit c (acc + exact c (A c j))) else acc) 0))]

/-- The active lanes of va as exact integers, in lane order. -/
def activeInts (c : VCtx) (sl : Slot) (a : BitVec 5) : List Int :=
  ((List.range c.n).filter fun i => sl.topMask.getLsbD i).map fun i => exact c (laneOf c.w (sl.rv a) i)
/-- The latency of a reduction (R209). -/
def redLat (c : VCtx) : Nat := if c.w = 32 then 13 else if c.w = 16 then 15 else 17

/-- The words that write every lane of vd, or all of it (R194, R199, R200, R202, R204, R206, R207), with the lane width and
value. -/
def wholeRows (tk : BitVec 4) (d a b : BitVec 5) (v : BitVec 4) (sl : Slot) :
    List (VRow × (VCtx → Nat) × (VCtx → List Word → Nat → Nat)) :=
  let vec := fun (c : VCtx) => vecType c.t
  let top := fun (f : VCtx → Nat) => fun (c : VCtx) (_ : List Word) (i : Nat) => if i = 0 then f c else 0
  [(⟨.vsel tk d a b v, tk, some v, vec, [], fun _ => 1, fun _ => 1⟩, VCtx.w, fun c _ i =>
      if sl.topMask.getLsbD i then laneOf c.w (sl.rv a) i else laneOf c.w (sl.rv b) i),
   (⟨.vrsum tk d a v, tk, some v, fun c => vecType c.t && (isFloat c.t || !c.sat), [], redLat, fun _ => 1⟩, VCtx.w, top fun c =>
      if isFloat c.t then reduceFp c sl a (sumIdent c.rm) (addFp c) else wrap c.w (activeInts c sl a).sum),
   (⟨.vrsum tk d a v, tk, some v, fun c => vecType c.t && (!isFloat c.t && c.sat), [], redLat, fun _ => 1⟩, VCtx.w, top fun c =>
      reduceInt c sl a 0 (addInt c)),
   (⟨.vrmax tk d a v, tk, some v, vec, [], redLat, fun _ => 1⟩, VCtx.w, top fun c =>
      if isFloat c.t then reduceFp c sl a (.inf true) FV.max else wrap c.w ((activeInts c sl a).foldl max c.imin)),
   (⟨.vrmin tk d a v, tk, some v, vec, [], redLat, fun _ => 1⟩, VCtx.w, top fun c =>
      if isFloat c.t then reduceFp c sl a (.inf false) FV.min else wrap c.w ((activeInts c sl a).foldl min c.imax)),
   (⟨.vargmax tk d a v, tk, some v, vec, [], redLat, fun _ => 1⟩, VCtx.w, fun c _ i =>
      if i = 0 then (if isFloat c.t then (fmtOf c.t).round 0 false (argmax c sl a).v
        else wrapLane c.t ((argmax c sl a).v.toIntSat 0 true 64)) else if i = 1 then (argmax c sl a).i else 0),
   (⟨.vpack tk d a b v, tk, some v, fun c => [0, 4, 1, 5, 9, 0xA].contains c.t, [], fun _ => 2, fun _ => 1⟩, VCtx.w, fun c _ i =>
      if i < c.n / 2 then narrowLane c (laneOf (2 * c.w) (sl.rv a) i) else narrowLane c (laneOf (2 * c.w) (sl.rv b) (i - c.n / 2))),
   (⟨.vunpk tk d a 0 v, tk, some v, fun c => [0, 4, 1, 5, 9, 0xA].contains c.t, [], fun _ => 2, fun _ => 1⟩, fun c => 2 * c.w,
      fun c _ i => widenLane c (laneOf c.w (sl.rv a) i)),
   (⟨.vunpk tk d a 1 v, tk, some v, fun c => [0, 4, 1, 5, 9, 0xA].contains c.t, [], fun _ => 2, fun _ => 1⟩, fun c => 2 * c.w,
      fun c _ i => widenLane c (laneOf c.w (sl.rv a) (c.n / 2 + i))),
   (⟨.mget tk d, tk, none, fun _ => true, [], fun _ => 1, fun _ => 1⟩, fun _ => 1, fun _ _ i =>
      if sl.topMask.getLsbD i then 1 else 0)]

end Sys2Proof.Claim

section

open Sys2Proof Sys2Proof.Machine Sys2Proof.Claim

/-- R188 to R209: the words that merge under the top mask. In its issue turn, or at once in exposed mode, each writes in
flight the lanes whose mask bit is set with the value of its row, and no other lane. -/
def Obligations.MergingVectorWords : Prop :=
  ∀ (tk v : BitVec 4) (d a b : BitVec 5) (s : State), ∀ row ∈ mergeRows tk d a b v s.mySlot,
    Runs s row.1 (fun _ => True) fun c xs res sl' => sl' = s.mySlot ∧
      LaneWrite res d c.w c.n (fun i => s.mySlot.topMask.getLsbD i = true) (row.2 c xs)

/-- R194, R199, R200, R202, R204: the words that write all of vd, whatever the mask says. -/
def Sys2Proof.Claim.WholeRegisterVectorWords : Prop :=
  ∀ (tk v : BitVec 4) (d a b : BitVec 5) (s : State), ∀ row ∈ wholeRows tk d a b v s.mySlot,
    Runs s row.1 (fun _ => True) fun c xs res sl' => sl' = s.mySlot ∧ WholeWrite res d (row.2.1 c) (row.2.2 c xs)

/-- R202, R203, R205: VINS writes one lane; VCVT the active lanes that both types have, each converted; VQMX the codes and
the scales of its blocks of 32 values, masked lanes counting as 0. -/
def Sys2Proof.Claim.InsertConvertAndQuantise : Prop :=
  ∀ (tk t v : BitVec 4) (d a b : BitVec 5) (s : State),
    let sl := s.mySlot
    Runs s ⟨.vins tk d a b v, tk, some v, fun c => vecType c.t, [a, b], fun _ => 1, fun _ => 1⟩ (fun _ => True)
      (fun c xs res sl' => sl' = sl ∧
        LaneWrite res d c.w c.n (fun i => i = (xs.getD 1 0).toNat % c.n) (fun _ => (xs.headD 0).toNat)) ∧
    (vecType t.toNat = true →
      Runs s ⟨.vcvt tk d a t v, tk, some v, fun c => vecType c.t, [], fun _ => 3, fun _ => 1⟩ (fun _ => True)
        (fun c _ res sl' => sl' = sl ∧
          LaneWrite res d (typeBits t.toNat) (min c.n (2048 / typeBits t.toNat)) (fun i => sl.topMask.getLsbD i = true)
            (fun i => cvtLane c t.toNat (laneOf c.w (sl.rv a) i)))) ∧
    Runs s ⟨.vqmx tk d a v, tk, some v, fun c => isFloat c.t && c.mxf != 3, [], fun _ => 6, fun _ => 2⟩ (fun _ => True)
      (fun c _ res sl' => sl' = sl ∧ ∃ val, res = { v := some (d.toNat, val, BitVec.allOnes 2048) } ∧
        ∀ k, k < c.n / 32 →
          let q := mxQuant (mxType c.mxf) c.rm ((List.range 32).map fun j =>
            if sl.topMask.getLsbD (32 * k + j) then fpLane c (laneOf c.w (sl.rv a) (32 * k + j)) else .fin false 0 0)
          laneOf 8 val (248 + k) = q.1 % 256 ∧
          ∀ j, j < 32 → laneOf (typeBits (mxType c.mxf)) val (32 * k + j) = wrap (typeBits (mxType c.mxf)) (q.2.getD j 0))

/-- R200: of the active integer lanes VARGMAX finds the greatest, and of those that hold it the one of lowest index. -/
def Sys2Proof.Claim.ArgmaxIsTheLowestOfTheGreatest : Prop :=
  ∀ (c : VCtx) (sl : Slot) (a : BitVec 5), vecType c.t = true → isInt c.t = true →
    (∃ i, i < c.n ∧ sl.topMask.getLsbD i = true) →
    let x := fun (i : Nat) => exact c (laneOf c.w (sl.rv a) i)
    let r := argmax c sl a
    r.i < c.n ∧ sl.topMask.getLsbD r.i = true ∧ r.v = .ofInt (x r.i) ∧
      ∀ j, j < c.n → sl.topMask.getLsbD j = true → x j ≤ x r.i ∧ (x j = x r.i → r.i ≤ j)

/-- R190, R194, R195, R202, R206, R207: VSHAPE writes SHAPE; VCMP pushes the lanes that compare and are active, with its
lane width; MINV, MPOP and MSET change the top mask; VXTR reads a lane into an x register; VQPOP takes the head of a load
queue and VQPUSH appends to a store queue; VACCR and VACCW, once the M words before them have finished with it and no fence or SO
access holds them, move a row of the accumulator window, VACCR as the last VACCW in flight left it (R208). -/
def Obligations.MaskQueueAndAccumulatorWords : Prop :=
  ∀ (tk m v : BitVec 4) (x r : BitVec 2) (q : BitVec 1) (d a b cc : BitVec 5) (row : BitVec 11) (w : Vec) (id : Nat)
    (rest : List (Nat × Option Vec)) (s : State),
    let sl := s.mySlot
    let plain : Instr → Nat → VRow := fun i l => { i := i, tk := tk, lat := fun _ => l }
    let free := fun (write : Bool) (id : Nat) => sl.rowFree id row.toNat = true ∧ row.toNat < sl.accRows ∧
      s.accOrdered s.sel.slot sl.vWalk id write = true
    let written := (sl.results.filterMap (·.acc)).filter fun x => x.1 == row.toNat
    Runs s (plain (.vshape tk x q r m) 1) (fun _ => True) (fun _ _ res sl' => res = {} ∧
      sl' = { sl with shape := BitVec.ofNat 64 (1024 * x.toNat + 512 * q.toNat + 64 * r.toNat + m.toNat) }) ∧
    (cc.toNat < 6 → sl.maskDepth + sl.maskPushes < 16 →
      Runs s { plain (.vcmp tk cc a b v) 2 with v := some v, fits := fun c => vecType c.t } (fun _ => True)
        (fun c _ res sl' => sl' = sl ∧ ∃ bits : BitVec 256, res = { masks := some (.push bits c.w) } ∧
          ∀ i, bits.getLsbD i = (decide (i < c.n) && sl.topMask.getLsbD i &&
            cmpLane c cc.toNat (laneOf c.w (sl.rv a) i) (laneOf c.w (sl.rv b) i)))) ∧
    Runs s (plain (.minv tk) 1) (fun _ => True)
      (fun _ _ res sl' => sl' = sl ∧ res = { masks := some (.repl sl.masks.length (sl.parentMask &&& ~~~sl.topMask)) }) ∧
    (1 < sl.masks.length → Runs s (plain (.mpop tk) 1) (fun _ => True)
      (fun _ _ res sl' => sl' = sl ∧ res = { masks := some (.pop sl.masks.length) })) ∧
    Runs s (plain (.mset tk a) 1) (fun _ => True)
      (fun _ _ res sl' => sl' = sl ∧ res = { masks := some (.repl sl.masks.length ((sl.rv a).extractLsb' 0 256 &&& sl.parentMask)) }) ∧
    Runs s { plain (.vxtr tk d a b v) 2 with v := some v, fits := fun c => vecType c.t, xs := [b] } (fun _ => True)
      (fun c xs res sl' => sl' = sl ∧ res = { x := some (d.toNat,
        BitVec.ofInt 64 (if isFloat c.t then ((laneOf c.w (sl.rv a) ((xs.headD 0).toNat % c.n) : Nat) : Int)
          else exact c (laneOf c.w (sl.rv a) ((xs.headD 0).toNat % c.n)))) }) ∧
    (mget [] sl.lq r.toNat = (id, some w) :: rest → Runs s (plain (.vqpop tk d r) 1) (fun _ => True)
      (fun _ _ res sl' => res = { v := some (d.toNat, w, BitVec.allOnes 2048) } ∧
        sl' = { sl with lq := mset [] sl.lq r.toNat rest })) ∧
    (sl.sqFull q.toNat = false → Runs s (plain (.vqpush tk q a) 1) (fun _ => True)
      (fun _ _ res sl' => sl' = sl ∧ res = { sq := some (q.toNat, sl.rv a) })) ∧
    Runs s (plain (.vaccr tk d row) 4) (free false)
      (fun _ _ res sl' => sl' = sl ∧ ∃ val, res = { v := some (d.toNat, val, BitVec.allOnes 2048) } ∧
        ∀ e, e < 64 → laneOf 32 val e = match written.getLast? with
          | some x => laneOf 32 x.2 e
          | none => (mget 0 (s.core (coreOf s.sel.slot)).acc ((sl.accBase + row.toNat) * 64 + e)).toNat) ∧
    Runs s (plain (.vaccw tk a row) 2) (free true)
      (fun _ _ res sl' => sl' = sl ∧ res = { acc := some (row.toNat, sl.rv a) })

end
namespace Sys2Proof.Claim

open Sys2Proof.Machine

/-! ### Queues, issue and results (R42 to R44, R53, R57, R58, R209) -/

/-- Every V word: those of the two tables, and the others. -/
def vectorRows (tk m t v : BitVec 4) (x r : BitVec 2) (q : BitVec 1) (d a b cc : BitVec 5) (row : BitVec 11) (sl : Slot) :
    List VRow :=
  let vec := fun (c : VCtx) => vecType c.t
  (mergeRows tk d a b v sl).map (·.1) ++ (wholeRows tk d a b v sl).map (·.1) ++
  [{ i := .vins tk d a b v, tk := tk, v := some v, fits := vec, xs := [a, b] },
   { i := .vcvt tk d a t v, tk := tk, v := some v, fits := fun c => vecType c.t && vecType t.toNat },
   { i := .vqmx tk d a v, tk := tk, v := some v, fits := fun c => isFloat c.t }, { i := .vshape tk x q r m, tk := tk },
   { i := .vcmp tk cc a b v, tk := tk, v := some v, fits := vec }, { i := .minv tk, tk := tk }, { i := .mpop tk, tk := tk },
   { i := .mset tk a, tk := tk }, { i := .vxtr tk d a b v, tk := tk, v := some v, fits := vec, xs := [b] },
   { i := .vqpop tk d r, tk := tk }, { i := .vqpush tk q a, tk := tk }, { i := .vaccr tk d row, tk := tk },
   { i := .vaccw tk a row, tk := tk }]

/-- A vector register of slot k after a result has landed: the bits it writes are its own, the others stay. -/
def merged (old val m : Vec) : Vec := (old &&& ~~~m) ||| (val &&& m)

end Sys2Proof.Claim

section

open Sys2Proof Sys2Proof.Machine Sys2Proof.Claim

/-- R42, R57, R209: in interlocked mode a V word whose type exists, with its x registers landed and fewer than 32 words
queued, joins the V queue with its address, its walk index and the registers it names; the ESQ goes on. -/
def Sys2Proof.Claim.VectorWordsJoinTheVQueue : Prop :=
  ∀ (tk m t v : BitVec 4) (x r : BitVec 2) (q : BitVec 1) (d a b cc : BitVec 5) (row : BitVec 11) (s : State),
    s.sel.issue = false → s.sel.party = .esq → s.mySlot.exposed = false → (mget [] s.mySlot.queues 0).length < 32 →
    ∀ w ∈ vectorRows tk m t v x r q d a b cc row s.mySlot, w.v ≠ some 0xF → w.fits (contextOf s.mySlot w) = true →
      (∀ y ∈ w.xs, s.mySlot.busyX y = false) →
      ∃ u, exec w.i s = .next u ∧ mget [] (u.slot s.sel.slot).queues 0 = mget [] s.mySlot.queues 0 ++
          [{ word := s.sel.word, pc := s.mySlot.esq.pc, walk := some s.mySlot.esq.walk, id := s.mySlot.nextId,
             regs := w.xs.map s.mySlot.rx }] ∧
        (∀ j, j ≠ 0 → mget [] (u.slot s.sel.slot).queues j = mget [] s.mySlot.queues j) ∧
        (u.slot s.sel.slot).esq = s.mySlot.esq.step ∧ OnlySlot s.sel.slot s u ∧
        (u.slot s.sel.slot).v = s.mySlot.v ∧ (u.slot s.sel.slot).x = s.mySlot.x ∧ (u.slot s.sel.slot).a = s.mySlot.a ∧
        (u.slot s.sel.slot).masks = s.mySlot.masks ∧ (u.slot s.sel.slot).shape = s.mySlot.shape

/-- R42, R53: the head of a V, M, TA or TH queue that may look whether it can issue leaves the queue, where its engine, if the word is
ready, takes its slot before the others, and its issue is the very next turn; no other queue, register or byte changes. -/
def Obligations.HeadOfAQueueIssues : Prop :=
  ∀ (k q : Nat) (e : QEnt) (es : List QEnt) (s : State), k < 64 → q < 4 → mget [] (s.slot k).queues q = e :: es →
    s.coreRuns (coreOf k) = true → s.headReady k q = true → (s.headCan k q = true → s.engineTakes k q = true) →
      ∃ t, exec (.engineQueueIssue k q) s = .next t ∧ (t.slot k).issuing = some (e, q) ∧
        mget [] (t.slot k).queues q = es ∧ (∀ j, j ≠ q → mget [] (t.slot k).queues j = mget [] (s.slot k).queues j) ∧
        t.sched = .issue k :: s.sched ∧ { t.slot k with queues := (s.slot k).queues, issuing := (s.slot k).issuing } = s.slot k ∧
        (∀ j, j ≠ k → t.slot j = s.slot j) ∧ ∀ b, byteAt t.mem b = byteAt s.mem b

/-- R57, R58, R194: in interlocked mode the oldest result in flight lands: the bits of the vector register that its mask
names, an x register, a change of the mask stack at the mask that was its top when the word issued, an entry of a store queue, or a row of the accumulator window; the
others stay in flight. -/
def Sys2Proof.Claim.OldestResultLands : Prop :=
  ∀ (k : Nat) (r : Res) (rs : List Res) (s : State), (s.slot k).results = r :: rs → r.inter = true → r.tok = 0 →
    ∃ t, exec (.resultWriteBack k) s = .next t ∧ (t.slot k).results = rs ∧ (∀ j, j ≠ k → t.slot j = s.slot j) ∧
      (∀ b, byteAt t.mem b = byteAt s.mem b) ∧ (t.slot k).a = (s.slot k).a ∧
      (∀ d val m, r = { due := r.due, v := some (d, val, m), inter := true } → mget 0 (t.slot k).v d = merged (mget 0 (s.slot k).v d) val m ∧
        (∀ j, j ≠ d → mget 0 (t.slot k).v j = mget 0 (s.slot k).v j) ∧ (t.slot k).x = (s.slot k).x ∧ t.cores = s.cores) ∧
      (∀ (d : BitVec 5) y, r = { due := r.due, x := some (d.toNat, y), inter := true } → (t.slot k).rx d = (if d = 0 then 0 else y) ∧
        (∀ j, j ≠ d → (t.slot k).rx j = (s.slot k).rx j) ∧ (t.slot k).v = (s.slot k).v ∧ t.cores = s.cores) ∧
      (∀ m w, r = { due := r.due, masks := some (.push m w), inter := true } → (t.slot k).masks = (m, w) :: (s.slot k).masks) ∧
      (∀ ups x l, r = { due := r.due, masks := some (.pop (l.length + 1)), inter := true } → (s.slot k).masks = ups ++ x :: l →
        2 ≤ (s.slot k).masks.length → (t.slot k).masks = ups ++ l) ∧
      (∀ m ups x l, r = { due := r.due, masks := some (.repl (l.length + 1) m), inter := true } → (s.slot k).masks = ups ++ x :: l →
        (t.slot k).masks = ups ++ (m, x.2) :: l) ∧
      (∀ q y, r = { due := r.due, sq := some (q, y), inter := true } → mget [] (t.slot k).sq q = mget [] (s.slot k).sq q ++ [y]) ∧
      (∀ row y, r = { due := r.due, acc := some (row, y), inter := true } →
        (∀ e, e < 64 → mget 0 (t.core (coreOf k)).acc (((s.slot k).accBase + row) * 64 + e) = y.extractLsb' (32 * e) 32) ∧
        ∀ i, (i < ((s.slot k).accBase + row) * 64 ∨ ((s.slot k).accBase + row) * 64 + 64 ≤ i) →
          mget 0 (t.core (coreOf k)).acc i = mget 0 (s.core (coreOf k)).acc i)

end
namespace Sys2Proof.Claim

open Sys2Proof.Machine

/-! ### Matrix and transfer words enter their queues (R42, R172, R223, R224, R242, R428, R429) -/

/-- An M or T word as it is taken: the registers and streams it captures, when it is legal there, and the scratchpad
intervals it gives the range checker. -/
structure QRow where
  i : Instr
  xs : List (BitVec 5) := []
  s1 : Option (BitVec 4) := none
  s2 : Option (BitVec 4) := none
  legal : Slot → List Word → List Word → List Word → Prop := fun _ _ _ _ => True
  ivs : Slot → List Word → List Word → List Word → List (Nat × Nat × Bool) := fun _ _ _ _ => []

/-- Macros, weight format and stream shape that MPLANE and MSTEP may name (R223, R226, R228). -/
def planeLegal (d : Nat) (st : List Word) : Prop :=
  mdNmac d ≠ 0 ∧ mdFirst d + mdNmac d ≤ 64 ∧ mdWf d ≠ 3 ∧ sSpace st = 0 ∧
    (sCount st ≠ 0 → sCnt st 0 % 32 = 0 ∧ 32 ≤ sCnt st 0 ∧ sCnt st 0 ≤ 256)
/-- The bytes of a stream in scratchpad, elements and MX scales. -/
def streamIvs (w : Bool) (st : List Word) : List (Nat × Nat × Bool) :=
  if sCount st = 0 then []
  else ((srcBounds st).1.toNat, (srcBounds st).2.toNat, w) ::
    if isMx (sType st) then [((scaleBounds st).1.toNat, (scaleBounds st).2.toNat, w)] else []
/-- A stream of a transfer names a type, and an MX stream whole blocks (R96, R98). -/
def moveLegal (st : List Word) (mx : Bool) : Prop := sType st ≠ 0xF ∧ (isMx (sType st) = true → mx = true ∧ sCnt st 0 % 32 = 0)

/-- The M words of the M queue. -/
def matrixQueue (tk n m : BitVec 4) (a : BitVec 5) (f c : BitVec 6) (b : BitVec 1) (z : BitVec 9) (row : BitVec 11) : List QRow :=
  let d := fun (rs : List Word) => (rs.headD 0).toNat
  [{ i := .mlease tk m }, { i := .mfree tk m },
   { i := .mplane tk n a, xs := [a], s1 := some n, ivs := fun _ _ st _ => streamIvs false st, legal := fun _ rs st _ =>
       planeLegal (d rs) st ∧ sType st = 0xB + mdWf (d rs) ∧ (sCount st ≠ 0 → sRuns st = mdNmac (d rs) * wCols (mdWf (d rs))) },
   { i := .mswap tk f c a, xs := [a], legal := fun _ _ _ _ => f.toNat + c.toNat < 64 },
   { i := .mstep tk n a row, xs := [a], s1 := some n, ivs := fun _ _ st _ => streamIvs false st, legal := fun _ rs st _ =>
       planeLegal (d rs) st ∧ mdAf (d rs) ≠ 3 ∧ (sType st = 0xB ∨ sType st = 0xD ∨ (sType st = 0 ∧ mdAf (d rs) = 0)) ∧
         (mdCut (d rs) = 0 ∨ (mdAf (d rs) = 2 ∧ sType st = 0xB ∧ (mdCut (d rs) ≠ 3 ∨ mdWf (d rs) ≠ 2))) },
   { i := .mcommit tk b f, legal := fun sl _ _ _ =>
       b = 1 → (mget {} sl.cos f.toNat).kind = 1 ∨ (mget {} sl.cos f.toNat).kind = 2 },
   { i := .mdrain tk n a row, xs := [a], s1 := some n, ivs := fun _ _ st _ => streamIvs true st, legal := fun _ rs st _ =>
       ddRows (d rs) ≠ 0 ∧ sSpace st = 0 ∧
         (if ddSrc (d rs) = 3 then sType st = 8 else sType st ∈ [0, 1, 2, 8, 9, 0xA, 0xB, 0xC, 0xD]) ∧
         (sCount st ≠ 0 → sCount st = ddRows (d rs) * ddVals (d rs) ∧ (isMx (sType st) = true → sCnt st 0 % 32 = 0)) },
   { i := .mzero tk z row }]

/-- The T words of a party, with t the slot of the HALO's member. -/
def transferQueue (s : State) (tk n m : BitVec 4) (a b e i : BitVec 5) (dst : BitVec 2) (g t : BitVec 1) (l : BitVec 3)
    (c : BitVec 6) : List QRow :=
  let x := fun (rs : List Word) => (rs.headD 0).toNat
  let near := fun (rs st ix : List Word) (w : Bool) =>
    ({ kind := .gath, s1 := st, s2 := ix, base := BitVec.ofNat 64 (x rs) } : XOp).nearSpan |> fun p => (p.1.toNat, p.2.toNat, w)
  let gath := fun (w : Bool) (sl : Slot) (rs st ix : List Word) =>
    if sCount ix * sCnt st 0 = 0 then [] else
      [near rs st ix (!w), ((srcBounds ix).1.toNat, (srcBounds ix).2.toNat, false)]
        ++ if sSpace st = 0 then [(0, sl.spSize - 1, w)] else []
  let gathLegal := fun (_ : Slot) (_ st ix : List Word) =>
    moveLegal st false ∧ sSpace ix = 0 ∧ isInt (sType ix) = true ∧ sSpace st < 2
  let block := fun (n : Nat) (_ : Slot) (rs _ _ : List Word) => x rs % n = 0
  [{ i := .copy tk n a dst g t c, xs := [a], s1 := some n,
     legal := fun _ _ st _ => moveLegal st true ∧ dst.toNat < 2 ∧ (g = 1 → dst = 0 ∧ t = 1) ∧ sSpace st < 2,
     ivs := fun _ rs st _ => if sCount st = 0 then [] else
       (if sSpace st = 0 then [((srcBounds st).1.toNat, (srcBounds st).2.toNat, false)] else [])
         ++ (if g = 0 ∧ dst = 0 then [((x rs + (dstBounds st).1).toNat, (x rs + (dstBounds st).2).toNat, true)] else []) },
   { i := .gath tk n m a t c, xs := [a], s1 := some n, s2 := some m, legal := gathLegal, ivs := gath false },
   { i := .scat tk n m a t c, xs := [a], s1 := some n, s2 := some m, legal := gathLegal, ivs := gath true },
   { i := .halo tk n a i c, xs := [a], s1 := some n,
     legal := fun _ rs st _ => moveLegal st true ∧ sSpace st = 0 ∧ bit (tBarids s.myType) i.toNat = true ∧
       ∃ p, s.myInst.slots[haloMember (x rs)]? = some p ∧ clusterOf p = clusterOf s.sel.slot,
     ivs := fun _ rs st _ => if sCount st = 0 then [] else
       [((haloDst (x rs) + (dstBounds st).1).toNat, (haloDst (x rs) + (dstBounds st).2).toNat, true)] },
   { i := .hspawn tk a b e, xs := [a, b, e], legal := fun _ rs _ _ => (rs.getD 1 0).toNat % 8 = 0 },
   { i := .glkick tk a b t c, xs := [a, b], legal := fun _ rs _ _ => (rs.headD 0).toNat % 4 = 0 },
   { i := .gllink tk b l c, xs := [b] },
   { i := .attn tk a t c, xs := [a], legal := block 64 }, { i := .pimld tk a t c, xs := [a], legal := block 16 },
   { i := .pimrun tk a t c, xs := [a], legal := block 64 }, { i := .reduce tk a t c, xs := [a], legal := block 64 },
   { i := .sample tk a t c, xs := [a], legal := block 64 }, { i := .wnstep tk a t c, xs := [a], legal := block 32 }]

/-- The word is taken by its party: it joins queue q with what it captures, its intervals join the checker under its
number, and the party goes on; no other slot and no byte of memory changes. -/
def Joins (s : State) (r : QRow) (q : Nat) : Prop :=
  let k := s.sel.slot
  let sl := s.mySlot
  let p := s.sel.party
  let rs := r.xs.map (sl.rp p)
  let st := fun (n : Option (BitVec 4)) => match n with
    | some n => sl.stream n.toNat
    | none => []
  (∀ x ∈ r.xs, sl.busyP p x = false) → r.legal sl rs (st r.s1) (st r.s2) →
    sl.checker.length + (r.ivs sl rs (st r.s1) (st r.s2)).length ≤ 64 →
    ∃ u e, exec r.i s = .next u ∧ mget [] (u.slot k).queues q = mget [] sl.queues q ++ [e] ∧
      e.word = s.sel.word ∧ e.pc = sl.pcOf p ∧ e.walk = sl.walkOf p ∧ e.id = sl.nextId ∧ e.regs = rs ∧
      e.s1 = st r.s1 ∧ e.s2 = st r.s2 ∧ (q = 1 → e.exposed = sl.exposed ∧ e.batch = sl.batch) ∧
      (∀ j, j ≠ q → mget [] (u.slot k).queues j = mget [] sl.queues j) ∧
      (u.slot k).checker.map (fun v => (v.owner, v.lo, v.hi, v.write)) = sl.checker.map (fun v => (v.owner, v.lo, v.hi, v.write))
        ++ (r.ivs sl rs (st r.s1) (st r.s2)).map (fun v => (sl.nextId, v.1, v.2.1, v.2.2)) ∧
      (u.slot k).pcOf p = nextPc sl p ∧ (∀ j, j ≠ k → u.slot j = s.slot j) ∧ (∀ b, byteAt u.mem b = byteAt s.mem b)

/-! ### Matrix words at issue (R211 to R236) -/

/-- The sections of a mask are the slot's to use: enabled, held, none in recalibration or used up (R216, R217). -/
def SectionsReady (s : State) (k : Nat) (m : BitVec 4) : Prop :=
  ∀ i, i < 4 → m.getLsbD i = true → (s.cluster (clusterOf k)).arrdis.getLsbD i = false ∧
    (s.sec (clusterOf k) i).holder = some k ∧ (s.sec (clusterOf k) i).recal = false ∧ (s.sec (clusterOf k) i).uses < 256
/-- The word is in flight as the newest of the slot's matrix words, with nothing done of so many rows. -/
def InFlight (s t : State) (e : QEnt) (rows : Nat) : Prop :=
  ∃ o, (t.slot s.sel.slot).mops = s.mySlot.mops ++ [o] ∧ o.id = e.id ∧ o.desc = e.regs.headD 0 ∧ o.s1 = e.s1 ∧
    o.walk = e.walk ∧ o.exposed = e.exposed ∧ o.batch = e.batch ∧ o.cursor = 0 ∧ o.rows = rows ∧ o.org.word = e.word ∧
    (t.slot s.sel.slot).issuing = none
/-- The tokens of an M word that retires as it issues. -/
def retiredTokens (sl : Slot) (tk : BitVec 4) : Slot := (sl.tokTake 1 tk).tokGive 1 tk

/-- Nothing holds back the rows of a matrix word with entry e at issue: no other matrix word is in flight, the checker holds no interval
but its own, no access is pending, no V word is queued or in flight, and the ASQ has passed it (R45, R46, R208, R219). -/
def RowsFree (s : State) (e : QEnt) : Prop :=
  let sl := s.mySlot
  sl.mops = [] ∧ (∀ v ∈ sl.checker, v.owner = e.id) ∧ sl.pend = [] ∧ mget [] sl.queues 0 = [] ∧ sl.results = [] ∧ sl.batches = [] ∧
    (∀ w, e.walk = some w → sl.asq.passed w = true) ∧ sl.st ≠ 5 ∧ s.pkg.stopped = false ∧ s.walkStop = none
/-- The word w issues with entry e, all its rows are done, and it retires: from s to v. -/
def RunsToItsEnd (w : Instr) (e : QEnt) (rows : Nat) (s v : State) : Prop :=
  ∃ t, exec w s = .next t ∧
    exec (.matrixOpRetire s.sel.slot e.id) (Nat.repeat (mrow s.sel.slot e.id none) rows t) = .next v ∧ (v.slot s.sel.slot).mops = []
/-- Entry e of row r of the accumulator window of slot k of s, as t holds it. -/
def accAt (s t : State) (k r e : Nat) : BitVec 32 := mget 0 (t.core (coreOf k)).acc (((s.slot k).accBase + r) * 64 + e)
/-- The accumulators outside rows lo to lo + n - 1 of the window of slot k are as before. -/
def OtherRowsSame (s t : State) (k lo n : Nat) : Prop :=
  ∀ i, (i < ((s.slot k).accBase + lo) * 64 ∨ ((s.slot k).accBase + lo + n) * 64 ≤ i) →
    mget 0 (t.core (coreOf k)).acc i = mget 0 (s.core (coreOf k)).acc i
/-- A sum clamped to 32 bits (R75). -/
def clamp32 (v : Int) : Int := max (-2 ^ 31) (min (2 ^ 31 - 1) v)

end Sys2Proof.Claim

section

open Sys2Proof Sys2Proof.Machine Sys2Proof.Claim

/-- R42, R172, R223, R242: every M word of the ESQ and every T word of the ASQ or the helper joins its queue with the
registers and stream fields of that moment, where it is legal and its queue and the range checker have room. -/
def Sys2Proof.Claim.MatrixAndTransferWordsJoinTheirQueues : Prop :=
  ∀ (tk n m : BitVec 4) (a b e i : BitVec 5) (f c : BitVec 6) (g t : BitVec 1) (dst : BitVec 2) (l : BitVec 3) (z : BitVec 9)
    (row : BitVec 11) (s : State), s.sel.issue = false →
    (s.sel.party = .esq → s.mySlot.asq.reached s.mySlot.esq.walk = true → (mget [] s.mySlot.queues 1).length < 16 →
      ∀ r ∈ matrixQueue tk n m a f c g z row, Joins s r 1) ∧
    (s.sel.party = .asq → (mget [] s.mySlot.queues 2).length < 32 → ∀ r ∈ transferQueue s tk n m a b e i dst g t l c, Joins s r 2) ∧
    (s.sel.party = .helper → (mget [] s.mySlot.queues 3).length < 8 →
      ∀ r ∈ transferQueue s tk n m a b e i dst g t l c, Joins s r 3)

/-- R219, R226, R228, R233, R234: MPLANE, MSTEP, MDRAIN and MZERO, whose sections are ready, streams and rows in their
windows and macros sound, are in flight as they issue, with the rows of their operands to be done. -/
def Sys2Proof.Claim.MatrixOperationsBegin : Prop :=
  ∀ (tk n : BitVec 4) (a : BitVec 5) (z : BitVec 9) (row : BitVec 11) (e : QEnt) (s : State), s.sel.issue = true →
    s.mySlot.issuing = some (e, 1) → s.mySlot.tokReady 1 tk = true →
    let k := s.sel.slot
    let d := (e.regs.headD 0).toNat
    let ms := (List.range (mdNmac d)).map (mdFirst d + ·)
    let empty := sCount e.s1 = 0
    (decodeCore e.word = .ok (.mplane tk n a) → SectionsReady s k (secsOf ms) → streamBad s.mySlot e.s1 = none →
      ∃ t, exec (.mplane tk n a) s = .next t ∧ InFlight s t e (if empty then 0 else mdNmac d)) ∧
    (decodeCore e.word = .ok (.mstep tk n a row) → SectionsReady s k (secsOf ms) → streamBad s.mySlot e.s1 = none →
      accBad s.mySlot (mRows e.word d e.s1 0) = none → (∀ m ∈ ms, (s.mac (clusterOf k) m).active.bad = false) →
      ∃ t, exec (.mstep tk n a row) s = .next t ∧ InFlight s t e (if empty then 0 else sRuns e.s1)) ∧
    (decodeCore e.word = .ok (.mdrain tk n a row) → streamBad s.mySlot e.s1 = none →
      (empty ∨ row.toNat + ddRows d ≤ s.mySlot.accRows) →
      ∃ t, exec (.mdrain tk n a row) s = .next t ∧ InFlight s t e (if empty then 0 else ddRows d)) ∧
    (row.toNat + z.toNat + 1 ≤ s.mySlot.accRows →
      ∃ t, exec (.mzero tk z row) s = .next t ∧ InFlight s t e (z.toNat + 1))

/-- R211, R226, R233, R234: MPLANE, MDRAIN and MZERO complete. Issued with nothing before them, and their rows done, MPLANE leaves in
the shadow planes of its macros the weights, scales and tag that its stream and descriptor give, MDRAIN of a plain element type
leaves the converted values at the addresses of its stream, which do not overlap, and clears the rows it is told to, and MZERO leaves
its rows zero. -/
def Sys2Proof.Claim.PlanesDrainsAndZeroesComplete : Prop :=
  ∀ (tk n : BitVec 4) (a : BitVec 5) (z : BitVec 9) (row : BitVec 11) (e : QEnt) (s : State), s.sel.issue = true →
    s.mySlot.issuing = some (e, 1) → s.mySlot.tokReady 1 tk = true → RowsFree s e →
    let k := s.sel.slot
    let cl := clusterOf k
    let d := (e.regs.headD 0).toNat
    let ms := (List.range (mdNmac d)).map (mdFirst d + ·)
    let st := e.s1
    (decodeCore e.word = .ok (.mplane tk n a) → SectionsReady s k (secsOf ms) → streamBad s.mySlot st = none → sCount st ≠ 0 →
      planeLegal d st →
      ∃ v, RunsToItsEnd (.mplane tk n a) e (mdNmac d) s v ∧
        (∀ j, j < mdNmac d → let p := (v.mac cl (mdFirst d + j)).shadow
          p.tag = BitVec.ofNat 16 (mdTag d) ∧ p.bad = false ∧ (v.mac cl (mdFirst d + j)).active = (s.mac cl (mdFirst d + j)).active ∧
          (∀ r c, r < 256 → c < wCols (mdWf d) → p.weight (mdWf d) r c =
            if r < sCnt st 0 then s.spCode k st ((j * wCols (mdWf d) + c) * sCnt st 0 + r) else 0) ∧
          ∀ c b, c < wCols (mdWf d) → b < 8 → mget 0 p.scales (8 * c + b) =
            if b < sCnt st 0 / 32 then BitVec.ofNat 8 (s.spScale k st ((j * wCols (mdWf d) + c) * sCnt st 0 + 32 * b)) else 0) ∧
        (∀ m, m ∉ ms → v.mac cl m = s.mac cl m) ∧ (∀ b, byteAt v.mem b = byteAt s.mem b)) ∧
    (decodeCore e.word = .ok (.mdrain tk n a row) → streamBad s.mySlot st = none → row.toNat + ddRows d ≤ s.mySlot.accRows →
      sCount st = ddRows d * ddVals d → sCount st ≠ 0 → isMx (sType st) = false →
      let w := typeBits (sType st) / 8
      let value := fun i => (drainVals k { desc := e.regs.headD 0, exposed := e.exposed } (row.toNat + i / ddVals d) s).getD (i % ddVals d) .nan
      (∀ i j, i < j → j < sCount st → srcAddr st i + w ≤ srcAddr st j ∨ srcAddr st j + w ≤ srcAddr st i) →
      ∃ v, RunsToItsEnd (.mdrain tk n a row) e (ddRows d) s v ∧
        (∀ i, i < sCount st → readBytes (v.core (coreOf k)).sp (s.mySlot.spBase + srcAddr st i) w
          = leBytes (drainElem { desc := e.regs.headD 0, exposed := e.exposed } (sType st) (value i)).1 w) ∧
        (∀ r c, r < ddRows d → c < 64 → accAt s v k (row.toNat + r) c = if ddClr d then 0 else accAt s s k (row.toNat + r) c) ∧
        OtherRowsSame s v k row.toNat (ddRows d) ∧ (∀ b, byteAt v.mem b = byteAt s.mem b)) ∧
    (decodeCore e.word = .ok (.mzero tk z row) → row.toNat + z.toNat + 1 ≤ s.mySlot.accRows →
      ∃ v, RunsToItsEnd (.mzero tk z row) e (z.toNat + 1) s v ∧
        (∀ r c, r ≤ z.toNat → c < 64 → accAt s v k (row.toNat + r) c = 0) ∧ OtherRowsSame s v k row.toNat (z.toNat + 1) ∧
        (∀ c, (v.core c).sp = (s.core c).sp) ∧ (∀ b, byteAt v.mem b = byteAt s.mem b))

/-- R75, R80, R213, R218, R228: MSTEP completes. Issued with nothing before it, on planes whose tags match, with integer accumulators
and all cuts at once, and its rows done, each entry has taken the products of each block of 32 in order, clamped to 32 bits after
each. -/
def Sys2Proof.Claim.IntegerStepsComplete : Prop :=
  ∀ (tk n : BitVec 4) (a : BitVec 5) (row : BitVec 11) (e : QEnt) (s : State), s.sel.issue = true →
    s.mySlot.issuing = some (e, 1) → s.mySlot.tokReady 1 tk = true → RowsFree s e →
    let k := s.sel.slot
    let cl := clusterOf k
    let d := (e.regs.headD 0).toNat
    let ms := (List.range (mdNmac d)).map (mdFirst d + ·)
    let st := e.s1
    let depth := sCnt st 0
    let per := if mdWf d = 2 then 2 else 1
    decodeCore e.word = .ok (.mstep tk n a row) → SectionsReady s k (secsOf ms) → streamBad s.mySlot st = none → sCount st ≠ 0 →
    planeLegal d st → mdAf d = 0 → mdCut d = 0 → row.toNat + sRuns st * (mdNmac d * per) ≤ s.mySlot.accRows →
    (∀ m ∈ ms, (s.mac cl m).active.bad = false ∧ (mdTag d = 0 ∨ (s.mac cl m).active.tag.toNat = mdTag d)) →
      ∃ v, RunsToItsEnd (.mstep tk n a row) e (sRuns st) s v ∧
        (∀ m j c, m < sRuns st → j < mdNmac d → c < wCols (mdWf d) →
          let r := row.toNat + (m * mdNmac d + j) * per + c / 64
          let p := (s.mac cl (mdFirst d + j)).active
          (accAt s v k r (c % 64)).toInt = (List.range (depth / 32)).foldl (fun acc b => clamp32 (acc +
            ((List.range 32).map fun i => s.spCode k st (m * depth + 32 * b + i) * p.weight (mdWf d) (32 * b + i) c).sum))
            (accAt s s k r (c % 64)).toInt) ∧
        OtherRowsSame s v k row.toNat (sRuns st * (mdNmac d * per)) ∧ (∀ c, (v.core c).sp = (s.core c).sp) ∧
        (∀ b, byteAt v.mem b = byteAt s.mem b)

/-- R225, R227, R231: MLEASE retires once the slot holds the sections, and else asks for the missing ones and stays at the
head of its queue; MFREE of sections no word in flight uses frees those held; MSWAP exchanges the planes of the macros
whose shadow tag matches, and marks a mismatch; MCOMMIT closes a batch, which stays open while its words are in flight. -/
def Obligations.LeasesSwapsAndCommits : Prop :=
  ∀ (tk m : BitVec 4) (f c o : BitVec 6) (a : BitVec 5) (sb : BitVec 1) (e : QEnt) (s : State), s.sel.issue = true →
    s.mySlot.issuing = some (e, 1) → s.mySlot.tokReady 1 tk = true →
    let k := s.sel.slot
    let cl := clusterOf k
    let need := m &&& ~~~heldSecs s k
    ((s.cluster cl).arrdis &&& m = 0 → need = 0 → exec (.mlease tk m) s
      = .next (progress k (s.modSlot k fun sl => { retiredTokens sl tk with issuing := none }))) ∧
    ((s.cluster cl).arrdis &&& m = 0 → need ≠ 0 → ∃ t, exec (.mlease tk m) s = .next t ∧
      (∃ r ∈ (t.cluster cl).reqs, r.1 = k ∧ r.2 &&& need = need) ∧ (t.slot k).issuing = none ∧
      mget [] (t.slot k).queues 1 = e :: mget [] s.mySlot.queues 1 ∧ (t.slot k).tokens = s.mySlot.tokens) ∧
    ((s.cluster cl).arrdis &&& m = 0 → (∀ w ∈ s.mySlot.mops, secsOf w.macs &&& m = 0) →
      ∃ t, exec (.mfree tk m) s = .next t ∧ (t.slot k).issuing = none ∧ (t.slot k).lostSecs = s.mySlot.lostSecs &&& ~~~m ∧
        ∀ i, i < 4 → t.sec cl i = if m.getLsbD i ∧ (s.sec cl i).holder = some k then { s.sec cl i with holder := none, uses := 0, pass := false }
          else s.sec cl i) ∧
    (let ms := (List.range (c.toNat + 1)).map (f.toNat + ·)
     let tag := (e.regs.headD 0).toNat % 65536
     let hit := fun j => tag = 0 ∨ (s.mac cl j).shadow.tag.toNat = tag
     decodeCore e.word = .ok (.mswap tk f c a) → SectionsReady s k (secsOf ms) →
      (∀ j ∈ ms, hit j → (s.mac cl j).shadow.bad = false) → (∀ w ∈ s.mySlot.mops, ∀ j ∈ w.macs, j ∉ ms) →
      ∃ t, exec (.mswap tk f c a) s = .next t ∧ (t.slot k).issuing = none ∧
        (∀ j, (j ∈ ms ∧ hit j → t.mac cl j = { active := (s.mac cl j).shadow, shadow := (s.mac cl j).active }) ∧
          (¬ (j ∈ ms ∧ hit j) → t.mac cl j = s.mac cl j)) ∧
        ((∃ j ∈ ms, ¬ hit j) → (t.slot k).mxst = s.mySlot.mxst ||| mxTAGX) ∧
        ((∀ j ∈ ms, hit j) → (t.slot k).mxst = s.mySlot.mxst)) ∧
    (s.mySlot.batches = [] → s.walkStop = none → (∃ w ∈ s.mySlot.mops, w.batch = e.batch) → ∃ t, exec (.mcommit tk sb o) s = .next t ∧
      ∃ b, (t.slot k).batches = [b] ∧ b.num = e.batch ∧ b.org.sbit = (sb == 1) ∧ b.org.co = o.toNat ∧ b.org.tok = tk) ∧
    (s.mySlot.batches = [] → s.walkStop = none → (∀ w ∈ s.mySlot.mops, w.batch ≠ e.batch) → sb = 0 → ∃ t, exec (.mcommit tk sb o) s = .next t ∧
      (t.slot k).batches = [])

/-- R222, R232, R235: with the M queue empty, MWAITB goes on once no more than k batches are open; MSTAT, once none is and
no word is in flight, reads the matrix status into d and clears its flags when asked. -/
def Sys2Proof.Claim.MatrixWaitAndStatus : Prop :=
  ∀ (tk n : BitVec 4) (d : BitVec 5) (c : BitVec 1) (s : State), mget [] s.mySlot.queues 1 = [] → s.mySlot.tokReady 1 tk = true →
    let k := s.sel.slot
    (s.mySlot.batches.length ≤ n.toNat → exec (.mwaitb tk n) s
      = .next (adv k .esq (s.modSlot k fun sl => retiredTokens sl tk))) ∧
    (s.mySlot.busyP .esq d = false → s.mySlot.mops = [] → s.mySlot.batches = [] →
      exec (.mstat tk d c) s = .next ((adv k .esq (s.modSlot k fun sl => retiredTokens sl tk)).modSlot k fun sl =>
        ({ sl with mxst := if c = 1 then 0 else sl.mxst }).wx d
          (BitVec.ofNat 64 (65536 * (heldSecs s k).toNat + s.mySlot.mxst.toNat))))

/-- R216, R217, R219, R221, R234, R468: a row turn of an MZERO zeroes its next accumulator row; a word whose rows are done
retires; a request is granted whole when its sections are enabled and free; after 256 uses without another request a
section starts a fresh count, and else goes to a request that comes first and that the holder's sections at this point can fill;
recalibration begins in a free section and ends with it usable, or, failed, disabled. -/
def Obligations.MatrixAndSectionEvents : Prop :=
  ∀ (k id cl i : Nat) (m tk : BitVec 4) (z : BitVec 9) (row : BitVec 11) (o : MOp) (h : Nat) (s : State),
    ((s.slot k).mops = [o] → o.id = id → o.parked = false → o.cursor < o.rows → (s.slot k).mopReady o = true →
      decodeCore o.org.word = .ok (.mzero tk z row) → o.resumed = false → o.restored = false → (s.slot k).st ≠ 5 →
      s.pkg.stopped = false →
      let r := (s.slot k).accBase + row.toNat + o.cursor
      (∀ e, e < 64 → mget 0 ((mrow k id none s).core (coreOf k)).acc (64 * r + e) = 0) ∧
      (∀ e, (e < 64 * r ∨ 64 * r + 64 ≤ e) →
        mget 0 ((mrow k id none s).core (coreOf k)).acc e = mget 0 (s.core (coreOf k)).acc e) ∧
      ((mrow k id none s).slot k).mops = [{ o with cursor := o.cursor + 1, forced := false, resumed := false }] ∧
      (∀ b, byteAt (mrow k id none s).mem b = byteAt s.mem b)) ∧
    ((s.slot k).mops = [o] → o.id = id → o.cursor = o.rows → o.org.sbit = false → (s.slot k).batches = [] → s.walkStop = none →
      ∃ t, exec (.matrixOpRetire k id) s = .next t ∧ (t.slot k).mops = [] ∧ (t.slot k).batches = []) ∧
    ((s.cluster cl).reqs[i]? = some (k, m) → (∀ j, j < 4 → m.getLsbD j = true → (s.cluster cl).arrdis.getLsbD j = false ∧
        (s.sec cl j).holder = none) →
      ∃ t, exec (.leaseGrant cl i) s = .next t ∧ (∀ r ∈ (t.cluster cl).reqs, r.1 ≠ k) ∧
        ∀ j, j < 4 → t.sec cl j = if m.getLsbD j then { s.sec cl j with holder := some k, uses := 0, pass := false } else s.sec cl j) ∧
    ((s.sec cl i).holder = some h → (s.sec cl i).spent = true → (s.sec cl i).recal = false → s.secBusy h i = false →
      ((∀ r ∈ (s.cluster cl).reqs, r.1 = h) → ∃ t, exec (.sectionRearbitrate cl i) s = .next t ∧
        t.sec cl i = { s.sec cl i with uses := 0 } ∧ t.slots = s.slots) ∧
      ((s.cluster cl).reqs = [(k, m)] → k ≠ h → i < 4 → m.getLsbD i = true → s.grantable cl m (s.atPoint cl h) = true →
        (s.nextUses h i && s.reqFirst cl h k) = false → ∃ t, exec (.sectionRearbitrate cl i) s = .next t ∧
          (t.cluster cl).reqs = [] ∧ ((t.slot h).lostSecs).getLsbD i = ((s.atPoint cl h).getLsbD i || (s.slot h).lostSecs.getLsbD i) ∧
          ∀ j, j < 4 → m.getLsbD j = true → t.sec cl j = { s.sec cl j with holder := some k, uses := 0, pass := false })) ∧
    (cl < 4 → i < 4 → (s.sec cl i).recal = false → (s.cluster cl).arrdis.getLsbD i = false → (s.sec cl i).holder = none →
      ∃ t, exec (.recalibrationStart cl i) s = .next t ∧ t.sec cl i = { s.sec cl i with recal := true } ∧ t.slots = s.slots) ∧
    (i < 4 → (s.sec cl i).recal = true → (∃ t, exec (.recalibrationEnd cl i true []) s = .next t ∧
        t.sec cl i = { s.sec cl i with recal := false } ∧ (t.cluster cl).arrdis = (s.cluster cl).arrdis) ∧
      ∃ t, exec (.recalibrationEnd cl i false []) s = .next t ∧
        t.sec cl i = { s.sec cl i with recal := false, holder := none, uses := 0, pass := false } ∧
        (t.cluster cl).arrdis = (s.cluster cl).arrdis ||| BitVec.twoPow 4 i)

end
namespace Sys2Proof.Claim

open Sys2Proof.Machine

/-! ### Transfer words at issue, and transfers (R240 to R254, R275, R444) -/

/-- The queue of the party that took a T word. -/
def partyQueue : Party → Nat
  | .helper => 3
  | _ => 2
/-- The T word e is being issued: its tokens are there. -/
def Issues (s : State) (e : QEnt) (tk : BitVec 4) : Prop :=
  s.sel.issue = true ∧ s.mySlot.issuing = some (e, partyQueue s.sel.party) ∧
    s.mySlot.tokReady (partyQueue s.sel.party) tk = true
/-- The completion object takes the signal of a word with S = 1 (R238, R429): it is no arrival barrier. -/
def Signals (s : State) (t : BitVec 1) (c : BitVec 6) : Prop :=
  t = 1 → (mget {} s.mySlot.cos c.toNat).kind ≠ 0 ∧ (mget {} s.mySlot.cos c.toNat).kind ≠ 3
/-- What an operation remembers of its word, once it has taken its token. -/
def origin (s : State) (e : QEnt) (tk : BitVec 4) (t : BitVec 1) (c : BitVec 6) : Origin :=
  (tokCarry s.sel.slot (partyQueue s.sel.party) tk s).originOf s.sel.slot (partyQueue s.sel.party) e tk (t == 1) c.toNat
/-- The word has left its queue, and no other slot and no byte of memory or scratchpad has changed. -/
def Left (s u : State) : Prop :=
  (u.slot s.sel.slot).issuing = none ∧ (u.slot s.sel.slot).a = s.mySlot.a ∧ (u.slot s.sel.slot).x = s.mySlot.x ∧
    (∀ j, j ≠ s.sel.slot → u.slot j = s.slot j) ∧ (∀ b, byteAt u.mem b = byteAt s.mem b) ∧
    ∀ c, (u.core c).sp = (s.core c).sp
/-- A transfer begins: the operation with this origin joins those of the core, with nothing moved. -/
def Begins (s : State) (i : Instr) (e : QEnt) (g : Origin) (kind : XKind) (P : XOp → Prop) : Prop :=
  ∃ u o, exec i s = .next u ∧ Left s u ∧
    (u.core (coreOf s.sel.slot)).xops = (s.core (coreOf s.sel.slot)).xops ++ [o] ∧ o.kind = kind ∧ o.org = g ∧
    o.s1 = e.s1 ∧ o.s2 = e.s2 ∧ o.walk = e.walk ∧ o.cursor = 0 ∧ o.chunks = [] ∧ o.parked = false ∧ P o
/-- An operation of an engine outside the cores begins, with its block still to be read. -/
def Starts (s : State) (i : Instr) (e : QEnt) (g : Origin) (kind : EKind) (P : State → EOp → Prop) : Prop :=
  ∃ u, exec i s = .next u ∧ Left s u ∧
    let o : EOp := { kind := kind, org := { g with block := e.regs.headD 0 }, space := s.mySlot.space,
                     engine := clusterOf s.sel.slot }
    u.eops = s.eops ++ [(s.nextEop, o)] ∧ P u o
/-- The context that bits 4:0 (gleaner) and 7:5 (context) of a register name. -/
def contextNo (v : Word) : Nat := 8 * (v.toNat % 32) + v.toNat / 32 % 8
/-- The operation that a COPY, GATH, SCAT or HALO with entry e begins. -/
def transferOf (s : State) (e : QEnt) (g : Origin) (kind : XKind) : XOp :=
  { id := (s.core (coreOf s.sel.slot)).nextOp, kind := kind, org := g, walk := e.walk, s1 := e.s1, s2 := e.s2,
    base := e.regs.headD 0, peer := s.sel.slot, space := s.mySlot.space }
/-- The word i issues with operation o, whose units lie in the window and move the bytes sb to the places db; none of these is
a byte that the operation reads, and none is written twice. Turns of the transfer engine carry all of them, and the operation
retires. -/
def Carries (s : State) (i : Instr) (o : XOp) : Prop :=
  let k := s.sel.slot
  let c := coreOf k
  ∀ (sb db : Nat → List Nat), (s.core c).xops = [] → s.pkg.stopped = false → s.mySlot.st ≠ 5 → s.walkStop = none →
    s.slotOf o.org = some k → (∀ w, o.mayTouch w s = true) →
    (∀ j, j < o.units → xUnitCheck o (tierXfer c) j s = (.inr (sb j, db j, false), s)) →
    (∀ j, j < o.units → ∀ b ∈ db j, ∀ l, l < o.units → b ∉ sb l ∧ (l ≠ j → b ∉ db l)) →
    (o.gather = true → ∀ j, j < o.units → ∀ b ∈ db j,
      ¬ (s.mySlot.spBase + (srcBounds o.s2).1 ≤ b ∧ (b : Int) ≤ s.mySlot.spBase + (srcBounds o.s2).2)) →
    (o.org.sbit = true → o.org.cfg.toNat / 2 ^ 61 = 1 ∧ (mget {} s.mySlot.cos o.org.co).count ≠ BitVec.allOnes 32) →
    ∃ (t v : State) (acts : List (Nat × Nat)), exec i s = .next t ∧
      exec (.transferOpRetire c o.id) (acts.foldl (fun s x => xTurn (.core c) o.id x.1 x.2 s) t) = .next v ∧
      (v.core c).xops = [] ∧ (∀ x ∈ (v.slot k).checker, x.owner ≠ o.org.id) ∧
      (∀ j, j < o.units → ∀ l, l < (db j).length →
        byteAt (v.core c).sp ((db j).getD l 0) = byteAt (s.core (coreOf o.srcSlot)).sp ((sb j).getD l 0)) ∧
      (∀ b, (∀ j, j < o.units → b ∉ db j) → byteAt (v.core c).sp b = byteAt (s.core c).sp b) ∧
      (∀ d, d ≠ c → (v.core d).sp = (s.core d).sp) ∧ (∀ b, byteAt v.mem b = byteAt s.mem b) ∧
      (mget {} (v.slot k).cos o.org.co).count
        = (mget {} s.mySlot.cos o.org.co).count + if o.org.sbit then 1 else 0
/-- The next ring slot is free (R250), and now claimed. -/
def Claimed (s t : State) (k c : Nat) : Prop :=
  let o := mget {} (s.slot k).cos c
  mget {} (t.slot k).cos c = { o with next := (o.next + 1) % o.ns, free := o.free - 1 } ∧
    ∀ j, j ≠ c → mget {} (t.slot k).cos j = mget {} (s.slot k).cos j
/-- The ring slot is filled. -/
def Filled (s t : State) (k c i : Nat) : Prop :=
  let o := mget {} (s.slot k).cos c
  mget {} (t.slot k).cos c = { o with filled := o.filled ||| BitVec.twoPow 256 i } ∧
    ∀ j, j ≠ c → mget {} (t.slot k).cos j = mget {} (s.slot k).cos j

end Sys2Proof.Claim

section

open Sys2Proof Sys2Proof.Machine Sys2Proof.Claim

/-- R242 to R247: COPY to scratchpad, to global memory or into a claimed ring slot, GATH, SCAT and HALO begin with what
their word captured, when the transfer engine has room for one more. -/
def Sys2Proof.Claim.TransfersBegin : Prop :=
  ∀ (tk n m : BitVec 4) (a i : BitVec 5) (d : BitVec 2) (t : BitVec 1) (c : BitVec 6) (e : QEnt) (s : State), Issues s e tk →
    (s.core (coreOf s.sel.slot)).xops.length < 512 →
    let g := origin s e tk t c
    let desc := (e.regs.headD 0).toNat
    (Signals s t c → Begins s (.copy tk n a d 0 t c) e g (if d = 0 then .copySp else .copyGl) fun o => o.base = e.regs.headD 0) ∧
    (∀ j, e.claim = some j → (mget {} s.mySlot.cos c.toNat).kind = 3 →
      Begins s (.copy tk n a 0 1 1 c) e (origin s e tk 1 c) .ring fun o => o.ringCo = c.toNat ∧ o.ringSlot = j) ∧
    (Signals s t c → Begins s (.gath tk n m a t c) e g .gath fun o => o.base = e.regs.headD 0) ∧
    (Signals s t c → Begins s (.scat tk n m a t c) e g .scat fun o => o.base = e.regs.headD 0) ∧
    (∀ p, Signals s 1 c → s.myInst.slots[desc / 2 ^ 24 % 16]? = some p →
      Begins s (.halo tk n a i c) e (origin s e tk 1 c) .halo fun o => o.base.toNat = desc % 2 ^ 24 ∧ o.peer = p ∧
        o.wait = (if desc / 2 ^ 32 % 2 ^ 16 = 0 then none else some (i.toNat, desc / 2 ^ 32 % 2 ^ 16)))

/-- R47, R248, R253, R254, R275, R287: HSPAWN starts the idle helper at a with h1 = d; GLKICK starts an idle gleaner context
at a; GLLINK binds an unbound link; ATTN, PIMLD, PIMRUN, REDUCE, SAMPLE and WNSTEP hand their block to its engine. -/
def Sys2Proof.Claim.HelpersGleanersAndEnginesBegin : Prop :=
  ∀ (tk : BitVec 4) (a b d : BitVec 5) (l : BitVec 3) (t : BitVec 1) (c : BitVec 6) (e : QEnt) (s : State), Issues s e tk →
    let g := origin s e tk t c
    let r := fun j => e.regs.getD j 0
    let id := s.nextEop
    ((r 1).toNat % 8 = 0 → (r 1).toNat + 8 ≤ s.mySlot.spSize → s.mySlot.helper.run = false →
      ∃ u, exec (.hspawn tk a b d) s = .next u ∧ Left s u ∧
        (u.slot s.sel.slot).helper = { pc := r 0, h := mset 0 [] 1 (r 2), run := true, flag := r 1, tok := tk }) ∧
    (Signals s t c → (s.ctx (contextNo (r 1))).run = false → ∃ u, exec (.glkick tk a b t c) s = .next u ∧ Left s u ∧
      u.ctx (contextNo (r 1)) =
        { s.ctx (contextNo (r 1)) with
          run := true, stopped := false, pc := r 0, pats := [], loops := [], org := g, space := s.mySlot.space, claim := none,
          cmd := none } ∧
      ∀ j, j ≠ contextNo (r 1) → u.ctx j = s.ctx j) ∧
    ((mget {} s.mySlot.cos c.toNat).kind = 3 → mget unbound (s.ctx (contextNo (r 0))).links l.toNat = unbound →
      ∃ u, exec (.gllink tk b l c) s = .next u ∧ Left s u ∧
        (∀ j, mget unbound (u.ctx (contextNo (r 0))).links j
          = if j = l.toNat then (s.sel.slot, c.toNat, s.myTask) else mget unbound (s.ctx (contextNo (r 0))).links j) ∧
        ∀ j, j ≠ contextNo (r 0) → u.ctx j = s.ctx j) ∧
    (Signals s t c → Starts s (.attn tk a t c) e g .attn fun _ _ => True) ∧
    (Signals s t c → Starts s (.pimld tk a t c) e g .pimld fun _ _ => True) ∧
    (Signals s t c → Starts s (.pimrun tk a t c) e g .pimrun fun _ _ => True) ∧
    (Signals s t c → Starts s (.reduce tk a t c) e g .reduce fun u _ =>
      mget [] u.redQ (clusterOf s.sel.slot) = mget [] s.redQ (clusterOf s.sel.slot) ++ [id]) ∧
    (Signals s t c → Starts s (.sample tk a t c) e g .sample fun u _ => u.sampQ = s.sampQ ++ [id]) ∧
    (Signals s t c → Starts s (.wnstep tk a t c) e g .wnstep fun u _ => u.winQ = s.winQ ++ [id])

/-- R242 to R247: COPY within the scratchpad, GATH and SCAT with both sides there, and HALO, at issue on a core with no other
transfer, run to their end: every byte of every unit goes to its place, no other byte changes, the operation leaves its core, and with
S = 1 the local counter counts one. -/
def Sys2Proof.Claim.ScratchpadTransfersRunToTheirEnd : Prop :=
  ∀ (tk n m : BitVec 4) (a i : BitVec 5) (t : BitVec 1) (c : BitVec 6) (e : QEnt) (p : Nat) (s : State), Issues s e tk →
    let g := origin s e tk t c
    let desc := (e.regs.headD 0).toNat
    (Signals s t c → sSpace e.s1 = 0 →
      Carries s (.copy tk n a 0 0 t c) (transferOf s e g .copySp) ∧
      Carries s (.gath tk n m a t c) (transferOf s e g .gath) ∧ Carries s (.scat tk n m a t c) (transferOf s e g .scat)) ∧
    (Signals s 1 c → s.myInst.slots[desc / 2 ^ 24 % 16]? = some p → (s.slot p).task = s.mySlot.task →
      (desc / 2 ^ 32 % 2 ^ 16 = 0 ∨ (mget 0 s.mySlot.seen i.toNat + 65536 - desc / 2 ^ 32 % 2 ^ 16) % 65536 < 32768) →
      Carries s (.halo tk n a i c) { transferOf s e (origin s e tk 1 c) .halo with
        base := BitVec.ofNat 64 (desc % 2 ^ 24), peer := p,
        wait := if desc / 2 ^ 32 % 2 ^ 16 = 0 then none else some (i.toNat, desc / 2 ^ 32 % 2 ^ 16) })

/-- R92, R242, R244: a turn of a scratchpad copy reads one bank word of a piece as it stands, or writes one bank word of a piece that
has been read to its places and no byte elsewhere; the piece is gone once its last has been written. -/
def Sys2Proof.Claim.PiecesCarryTheirBytes : Prop :=
  ∀ (c id : Nat) (o : XOp) (p : Chunk) (s : State), (s.core c).xops = [o] → o.id = id → o.kind = .copySp →
    sSpace o.s1 = 0 → coreOf o.org.slot = c → (s.slot o.org.slot).st ≠ 5 → s.pkg.stopped = false → o.chunks = [p] →
    (let gs := (groupsOf 16 0 p.src).filter fun g => !p.got.any (·.1 == g.1)
     p.isRead = false → gs ≠ [] → o.mayTouch false s = true →
      ∃ g ∈ gs, (xTurn (.core c) id 1 0 s).xops (.core c) = [{ o with chunks := [{ p with
        got := p.got ++ (List.range g.2).map fun j => (g.1 + j, byteAt (s.core c).sp (p.src.getD (g.1 + j) 0)) }] }]) ∧
    (let gs := (groupsOf 16 0 p.dst).filter fun g => !p.put.contains g.1
     p.isRead = true → gs ≠ [] → p.dst.Nodup → p.launch = false → (∀ b ∈ p.dst, (s.slot o.org.slot).spBase ≤ b) →
      o.mayTouch true s = true →
      let u := xTurn (.core c) id 2 0 s
      ∃ g ∈ gs, u.xops (.core c) = [{ o with chunks := if gs.length ≤ 1 then [] else [{ p with put := g.1 :: p.put }] }] ∧
        (∀ j, j < g.2 → byteAt (u.core c).sp (p.dst.getD (g.1 + j) 0) = p.byte (g.1 + j)) ∧
        (∀ b, (∀ j, j < g.2 → b ≠ p.dst.getD (g.1 + j) 0) → byteAt (u.core c).sp b = byteAt (s.core c).sp b) ∧
        ∀ b, byteAt u.mem b = byteAt s.mem b)

/-- R240, R248, R250, R257: a transfer whose pieces are all written leaves its core, counts one in its local counter and
drops its intervals; the helper's end writes h1 to the flag; the filler of a ring claims the next free slot, a COPY.RING at
the head of its queue or a waiting push, and a push whose pieces are written fills its slot. -/
def Sys2Proof.Claim.TransfersRetireAndRingsFill : Prop :=
  ∀ (k id : Nat) (o : XOp) (n q co ci : Nat) (e : QEnt) (es : List QEnt) (tk m : BitVec 4) (a : BitVec 5) (cc : BitVec 6)
    (p l : Nat) (s : State), s.walkStop = none →
    ((s.core (coreOf k)).xops = [o] → o.id = id → o.parked = false → o.units ≤ o.cursor → o.chunks = [] → o.wait = none →
      o.kind = .copySp → o.org.sbit = true → o.org.cfg.toNat / 2 ^ 61 = 1 → s.slotOf o.org = some k →
      (mget {} (s.slot k).cos o.org.co).count ≠ BitVec.allOnes 32 → o.org.slot = k →
      ∃ t, exec (.transferOpRetire (coreOf k) id) s = .next t ∧ (t.core (coreOf k)).xops = [] ∧
        (mget {} (t.slot k).cos o.org.co).count = (mget {} (s.slot k).cos o.org.co).count + 1 ∧
        (∀ v ∈ (t.slot k).checker, v.owner ≠ o.org.id) ∧ (∀ b, byteAt t.mem b = byteAt s.mem b)) ∧
    ((s.core (coreOf k)).xops = [o] → o.id = id → o.parked = false → o.units ≤ o.cursor → o.chunks = [] → o.wait = none →
      o.kind = .ring → o.org.sbit = false → o.org.slot = k → s.slotOf o.org = some k →
      ∃ t, exec (.transferOpRetire (coreOf k) id) s = .next t ∧ (t.core (coreOf k)).xops = [] ∧
        Filled s t k o.ringCo o.ringSlot) ∧
    (let h := (s.slot k).helper
     let f := h.flag.toNat
     h.run = true → h.ending = true → mget [] (s.slot k).queues 3 = [] → (s.core (coreOf k)).xops = [] → s.eops = [] →
      s.gctx = [] → 1 ≤ (s.slot k).st → (s.slot k).st ≤ 4 → (s.slot k).checker = [] →
      ∃ t, exec (.helperEnd k) s = .next t ∧ (t.slot k).helper = {} ∧
        (∀ i, i < 8 → byteAt (t.core (coreOf k)).sp ((s.slot k).spBase + f + i) = (mget 0 h.h 1).extractLsb' (8 * i) 8) ∧
        (∀ b, (b < (s.slot k).spBase + f ∨ (s.slot k).spBase + f + 8 ≤ b) →
          byteAt (t.core (coreOf k)).sp b = byteAt (s.core (coreOf k)).sp b)) ∧
    (q = 2 ∨ q = 3 → (s.slot k).st ≠ 5 → mget [] (s.slot k).queues q = e :: es → e.claim = none →
      decodeCore e.word = .ok (.copy tk m a 0 1 1 cc) → (mget {} (s.slot k).cos cc.toNat).kind = 3 →
      (mget {} (s.slot k).cos cc.toNat).free ≠ 0 →
      ∃ t, exec (.ringClaim (256 + 2 * k + (q - 2))) s = .next t ∧ Claimed s t k cc.toNat ∧
        mget [] (t.slot k).queues q = { e with claim := some (mget {} (s.slot k).cos cc.toNat).next } :: es) ∧
    (n < 256 → (s.ctx n).claim = some (p, l) → s.linkOf (s.ctx n) l = some (k, co) → (mget {} (s.slot k).cos co).kind = 3 →
      (mget {} (s.slot k).cos co).free ≠ 0 →
      ∃ t g, exec (.ringClaim n) s = .next t ∧ Claimed s t k co ∧ (t.ctx n).claim = none ∧
        (t.ctx n).pushes = (s.ctx n).pushes ++ [g] ∧ g.kind = .push ∧ g.peer = k ∧ g.ringCo = co ∧
        g.ringSlot = (mget {} (s.slot k).cos co).next ∧ g.cursor = 0) ∧
    ((s.ctx n).pushes = [o] → o.id = id → o.parked = false → o.units ≤ o.cursor → o.chunks = [] → o.wait = none →
      o.peer = k → k < 64 → o.ringCo = ci →
      ∃ t, exec (.gleanerPushRetire n id) s = .next t ∧ (t.ctx n).pushes = [] ∧ Filled s t k ci o.ringSlot)

end
namespace Sys2Proof.Claim

open Sys2Proof.Machine

/-! ### Command-list words (R253 to R258) -/

/-- The state differs in the present gleaner context only. -/
def OnlyCtx (s t : State) : Prop := t = { s with gctx := t.gctx } ∧ ∀ j, j ≠ s.sel.ctx → t.ctx j = s.ctx j
/-- The command of n words is done: the context stands after it, or at the start of a body that goes round again (R256). -/
def Behind (n : Nat) (s t : State) : Prop :=
  ((t.myCtx).pc, (t.myCtx).loops) = gLoopEnd (s.myCtx.pc + BitVec.ofNat 64 (4 * n)) s.myCtx.loops ∧ t.myCtx.cmd = none
/-- Of the context only patterns, place, loop stack and the words of the command it has read differ. -/
def OnlyPats (s t : State) : Prop :=
  { t.myCtx with pats := s.myCtx.pats, pc := s.myCtx.pc, loops := s.myCtx.loops, cmd := s.myCtx.cmd } = s.myCtx
/-- The command of n words sets field f of pattern p to v, and nothing else. -/
def SetsField (s : State) (i : Instr) (n p f : Nat) (v : Word) : Prop :=
  ∃ t, exec i s = .next t ∧ OnlyCtx s t ∧ Behind n s t ∧ OnlyPats s t ∧
    ∀ q, (t.myCtx.pat q).sc = (s.myCtx.pat q).sc ∧ (t.myCtx.pat q).dscale = (s.myCtx.pat q).dscale ∧
      ∀ g, mget 0 (t.myCtx.pat q).f g = if q = p ∧ g = f then v else mget 0 (s.myCtx.pat q).f g
/-- The command of n words moves the context on, and does nothing else. -/
def Moves (s : State) (i : Instr) (n : Nat) : Prop :=
  ∃ t, exec i s = .next t ∧ OnlyCtx s t ∧ Behind n s t ∧ t.myCtx.pats = s.myCtx.pats ∧ OnlyPats s t
/-- The context goes to an address, its loops ended. -/
def Links (s : State) (i : Instr) (v : Word) : Prop :=
  ∃ t, exec i s = .next t ∧ OnlyCtx s t ∧ t.myCtx = { s.myCtx with pc := v, loops := [], cmd := none }
/-- The command waits: nothing changes. -/
def Waits (s : State) (i : Instr) : Prop := exec i s = .next s
/-- The acquire read of the 8 bytes at va answers v, and disturbs nothing. -/
def Answers (s : State) (va v : Word) : Prop :=
  gRead va.toNat 8 8 s = .val v.toNat s ∧ s.walkStop = none ∧ s.owes 16 = false
/-- The 8 bytes at va may be written by the context, whose pushes are done, at physical address pa: aligned, on a page that
it may write, in plain package memory. -/
def Written (s : State) (va : Word) (pa : Nat) : Prop :=
  s.myCtx.pushes = [] ∧ s.walkStop = none ∧ s.hostHolds (linesOf pa 8) = false ∧ s.flips = [] ∧ s.poison = [] ∧ (∀ i, i < 8 → s.pclass (pa + i) = .pmd) ∧
    (s.inst s.myCtx.org.task).frozen = false ∧
    ∃ g, glSide (tierGlean (s.sel.ctx / 8)) s.myCtx.space va.toNat 8 8 .write s = (.inr ((List.range 8).map (pa + ·), g), s)

end Sys2Proof.Claim

section

open Sys2Proof Sys2Proof.Machine Sys2Proof.Claim

/-- R253, R256: GNEST sets a count, GSTRD a stride or the scale stride, GBASE BASE or SCALE to a value, to a sum or to a word
read, each of one pattern; GFMT sets the type, SC and DSCALE. -/
def Sys2Proof.Claim.GleanerPatternsAreSet : Prop :=
  ∀ (p : BitVec 2) (l : BitVec 3) (e sd w : BitVec 1) (c : BitVec 21) (cx : BitVec 32) (i : BitVec 20) (sx v x : Word)
    (j : BitVec 22) (t : BitVec 4) (sc : BitVec 1) (d : BitVec 20) (s : State),
    let g := s.myCtx
    let field := if w = 1 then 2 else 0
    (l.toNat < 6 → SetsField s (.gnest p l e c cx) (if e = 1 then 2 else 1) p.toNat (4 + l.toNat)
      (BitVec.ofNat 64 (if e = 1 then cx.toNat else c.toNat))) ∧
    (l.toNat < 7 → SetsField s (.gstrd p l e sd i sx) (if e = 1 then 3 else 1) p.toNat
      (if l.toNat = 6 then 3 else if sd = 1 then 16 + l.toNat else 10 + l.toNat)
      (if e = 1 then sx else BitVec.ofInt 64 i.toInt)) ∧
    SetsField s (.gbase p w v) 3 p.toNat field v ∧
    SetsField s (.gbaseAdd p w j) 1 p.toNat field (mget 0 (g.pat p.toNat).f field + BitVec.ofInt 64 j.toInt) ∧
    (Answers s v x → SetsField s (.gbaseInd p w v) 3 p.toNat field x) ∧
    (t ≠ 0xF → ∃ u, exec (.gfmt p t sc d) s = .next u ∧ OnlyCtx s u ∧ Behind 1 s u ∧ OnlyPats s u ∧
      (u.myCtx.pat p.toNat).sc = (sc == 1) ∧ (u.myCtx.pat p.toNat).dscale = d.toNat ∧
      (∀ f, mget 0 (u.myCtx.pat p.toNat).f f = if f = 1 then BitVec.ofNat 64 t.toNat else mget 0 (g.pat p.toNat).f f) ∧
      ∀ q, q ≠ p.toNat → u.myCtx.pat q = g.pat q)

/-- R254, R256, R257: GWAIT passes once the pushes are done, or the word read has come to its value; GPUSH asks for its
claim; GLINK goes to an address, or to the one it reads once that is not 0; GLOOP goes past a body of count 0 and else
enters it; GEND unbinds the links, leaves the context idle, and
GLKICK retires. -/
def Sys2Proof.Claim.GleanerWaitsLinksAndLoops : Prop :=
  ∀ (i : BitVec 22) (v x : Word) (p : BitVec 2) (l : BitVec 3) (n : BitVec 10) (c : BitVec 17) (s : State),
    let g := s.myCtx
    (g.pushes = [] → Moves s .gwaitDrain 1) ∧ (g.pushes ≠ [] → Waits s .gwaitDrain) ∧
    (Answers s v x → (i.toNat ≤ x.toNat → Moves s (.gwaitGen i v) 3) ∧ (x.toNat < i.toNat → Waits s (.gwaitGen i v))) ∧
    ((∀ k co, s.linkOf g l.toNat = some (k, co) → (mget {} (s.slot k).cos co).kind = 3) →
      ∃ t, exec (.gpush p l) s = .next t ∧ OnlyCtx s t ∧ t.myCtx = { g with claim := some (p.toNat, l.toNat) }) ∧
    Links s (.glink v) v ∧
    (Answers s v x → (x ≠ 0 → Links s (.glinkInd v) x) ∧ (x = 0 → Waits s (.glinkInd v))) ∧
    (n ≠ 0 → (∀ y ∈ g.loops, (g.pc + 4).toNat + 4 * n.toNat ≤ y.1.toNat + 4 * y.2.1) →
      (c = 0 → Moves s (.gloop n c) (1 + n.toNat)) ∧
      (c ≠ 0 → g.loops.length < 4 → ∃ t, exec (.gloop n c) s = .next t ∧ OnlyCtx s t ∧
        t.myCtx = { g with pc := g.pc + 4, loops := (g.pc + 4, n.toNat, c.toNat) :: g.loops, cmd := none })) ∧
    (g.pushes = [] → s.signalWaits g.org 5 false = false →
      let t := retireOp g.org 5 false (s.setCtx s.sel.ctx { g with run := false, links := [], cmd := none })
      t.walkStop = none → exec .gend s = .next t)

/-- R250, R257: GPUSH of a context without another push, once its ring has a free slot, runs to its end: the push claims the slot,
turns of the gleaner carry every byte of its pattern's units from global memory, as its task sees it, to its place in the slot,
the slot becomes filled, and no other byte changes. -/
def Sys2Proof.Claim.GleanerPushesRunToTheirEnd : Prop :=
  ∀ (p : BitVec 2) (l : BitVec 3) (k co : Nat) (sb db : Nat → List Nat) (s : State),
    let n := s.sel.ctx
    let g := s.myCtx
    let q := g.pat p.toNat
    let r := mget {} (s.slot k).cos co
    let o : XOp := { id := g.nextPush, kind := .push, org := g.org, s1 := q.stream, peer := k, ringCo := co, ringSlot := r.next,
                     sc := q.sc, dscale := q.dscale, link := l.toNat, space := g.space }
    n < 256 → s.linkOf g l.toNat = some (k, co) → r.kind = 3 → r.free ≠ 0 → r.next < 256 → g.pushes = [] → s.pkg.stopped = false →
    (∀ j, j < o.units → xUnitCheck o (tierGlean (n / 8)) j s = (.inr (sb j, db j, false), s)) →
    (∀ j, j < o.units → ∀ b ∈ db j, ∀ i, i < o.units → i ≠ j → b ∉ db i) →
    (∀ j, j < o.units → s.canAccess 16 ((sb j).map lineOf) = true) → (∀ a i, xPoison o a i s = (none, s)) →
      ∃ (t u v : State) (acts : List (Nat × Nat)), exec (.gpush p l) s = .next t ∧ exec (.ringClaim n) t = .next u ∧
        exec (.gleanerPushRetire n o.id) (acts.foldl (fun s x => xTurn (.ctx n) o.id x.1 x.2 s) u) = .next v ∧
        (v.ctx n).pushes = [] ∧ (v.ctx n).claim = none ∧
        ((v.ctx n).pc, (v.ctx n).loops) = gLoopEnd (g.pc + 4) g.loops ∧
        mget {} (v.slot k).cos co = { r with next := (r.next + 1) % r.ns, free := r.free - 1,
                                             filled := r.filled ||| BitVec.twoPow 256 r.next } ∧
        (∀ j, j < o.units → ∀ i, i < (db j).length → byteAt (v.core (coreOf k)).sp ((db j).getD i 0)
          = heldByte ((s.inst g.org.task).seenBy g.org) ((sb j).getD i 0) (s.physByte ((sb j).getD i 0))) ∧
        (∀ b, (∀ j, j < o.units → b ∉ db j) → byteAt (v.core (coreOf k)).sp b = byteAt (s.core (coreOf k)).sp b) ∧
        (∀ d, d ≠ coreOf k → (v.core d).sp = (s.core d).sp) ∧ ∀ b, byteAt v.mem b = byteAt s.mem b

/-- R256: GPOST.WORD adds 1 to the word at its address and GFLAG stores its value there, each after the pushes of its context,
and neither changes another byte; GPOST.TGU signals a counter of its task's graph. -/
def Sys2Proof.Claim.GleanersPostAndFlag : Prop :=
  ∀ (v : Word) (i : BitVec 22) (c : BitVec 16) (pa : Nat) (e : Nat) (s : State),
    (Written s v pa → xlEngine (tierGlean (s.sel.ctx / 8)) s.myCtx.space v.toNat 8 .write s = (.inr (pa, e), s) → pteStr e = false →
      ∃ t, exec (.gpostWord v) s = .next t ∧ valueAt t pa 8 = (valueAt s pa 8 + 1) % 2 ^ 64 ∧ OutsideSame pa 8 s t ∧
        Behind 3 s t ∧ t.myCtx.pats = s.myCtx.pats) ∧
    (Written s v pa → ∃ t, exec (.gflag i v) s = .next t ∧ valueAt t pa 8 = i.toNat ∧ OutsideSame pa 8 s t ∧ Behind 3 s t ∧
      t.myCtx.pats = s.myCtx.pats) ∧
    (let t := s.inst s.myCtx.org.task
     s.myCtx.pushes = [] → c.toNat < ((s.graph? t.graph).getD {}).nctr →
      exec (.gpostTgu c) s = .next (gNext 1 (sendCtr s.myCtx.org t.graph t.replay c.toNat s)))

end
namespace Sys2Proof.Claim

open Sys2Proof.Machine

/-! ### NBU words (R263 to R274) -/

/-- Of the NBU only the present thread, the threads held by a cut and, where a word opens a row, the open rows differ; of the
rest of the machine nothing does. -/
def OnlyThread (s u : State) : Prop :=
  u = { s with nbus := u.nbus } ∧ (∀ m, m ≠ s.sel.nbu → u.nbu m = s.nbu m) ∧
    (∀ t, t ≠ s.sel.thread → u.thread s.sel.nbu t = s.thread s.sel.nbu t) ∧
    { u.nbu s.sel.nbu with threads := (s.nbu s.sel.nbu).threads, held := (s.nbu s.sel.nbu).held,
                           openRow := (s.nbu s.sel.nbu).openRow } = s.nbu s.sel.nbu
/-- The thread stands behind its word: at the next one, or at the start of a body that goes round again (R268). -/
def Onward (v w : NThread) : Prop := (w.pc, w.loops) = nLoopEnd v.pc v.loops
/-- The word does f to its thread, and moves it on. -/
def ThreadDoes (s : State) (i : Instr) (f : NThread → NThread) : Prop :=
  ∃ u, exec i s = .next u ∧ OnlyThread s u ∧ Onward s.myThread u.myThread ∧
    { u.myThread with pc := s.myThread.pc, loops := s.myThread.loops } = f s.myThread
/-- The word writes x to nd, which for n0 keeps its 0. -/
def WritesN (s : State) (i : Instr) (d : BitVec 4) (x : BitVec 32) : Prop :=
  ∃ u, exec i s = .next u ∧ OnlyThread s u ∧ Onward s.myThread u.myThread ∧
    (∀ r, u.myThread.rn r = if r = d ∧ d ≠ 0 then x else s.myThread.rn r) ∧
    { u.myThread with n := s.myThread.n, pc := s.myThread.pc, loops := s.myThread.loops } = s.myThread
/-- The thread goes to word p, out of the bodies that do not hold it. -/
def ThreadGoesTo (s : State) (i : Instr) (p : Int) : Prop :=
  0 ≤ p → ∃ u, exec i s = .next u ∧ OnlyThread s u ∧ (u.myThread.pc : Int) = p ∧
    u.myThread.loops = s.myThread.loops.dropWhile (fun l => !(decide ((l.1 : Int) ≤ p) && decide (p ≤ l.2.1))) ∧
    { u.myThread with pc := s.myThread.pc, loops := s.myThread.loops } = s.myThread
/-- The thread loses its turn: a bank it needs is not granted (R264, R280). -/
def LosesTurn (s : State) (i : Instr) : Prop :=
  ∃ u, exec i s = .next u ∧ OnlyThread s u ∧ u.myThread = s.myThread ∧
    (u.nbu s.sel.nbu).held = (s.nbu s.sel.nbu).held ||| BitVec.twoPow 16 s.sel.thread
/-- The words of R267 with their results. -/
def nbuScalars (d a b : BitVec 4) (i : BitVec 18) (j : BitVec 21) (v : NThread) : List (Instr × BitVec 32) :=
  [(.nadd d a b, v.rn a + v.rn b), (.nsub d a b, v.rn a - v.rn b), (.nand d a b, v.rn a &&& v.rn b), (.nor d a b, v.rn a ||| v.rn b),
   (.nshl d a b, v.rn a <<< ((v.rn b).toNat % 32)), (.nshr d a b, v.rn a >>> ((v.rn b).toNat % 32)),
   (.nmul d a b, v.rn a * v.rn b), (.naddi d a i, v.rn a + BitVec.ofInt 32 i.toInt), (.nli d 0 j, BitVec.ofInt 32 j.toInt),
   (.nli d 1 j, BitVec.ofNat 32 ((v.rn d).toNat % 2 ^ 21 + 2 ^ 21 * (j.toNat % 2 ^ 11)))]

/-- Weight i of a packed word: an 8-bit or, for .MI4, a 4-bit signed code (R72). -/
def weight (mi4 : Bool) (w : BitVec 256) (i : Nat) : Int :=
  if mi4 then (w.extractLsb' (4 * i) 4).toInt else (w.extractLsb' (8 * i) 8).toInt
/-- Activation code at a byte of the buffer. -/
def activation (v : NThread) (i : Nat) : Int := (byteAt v.act (i % 1024)).toInt
/-- The products of weights first + i with activations base + i, added up. -/
def dot (v : NThread) (mi4 : Bool) (w : BitVec 256) (first base : Nat) (is : List Nat) : Int :=
  (is.map fun i => weight mi4 w (first + i) * activation v (base + i)).sum
/-- Byte i of a register. -/
def byteOf {n : Nat} (x : BitVec n) (i : Nat) : Nat := x.toNat / 256 ^ i % 256
/-- What NDOT accumulates (R271). -/
def ndotSums (v : NThread) (q : Nat) (w : BitVec 256) (g : Nat) (mi4 : Bool) (sr : BitVec 4) (base : Nat) : List NAcc :=
  if mi4 then
    let n := 64 / g
    (List.range g).flatMap fun k => ([0, 1].map fun h => (h, (List.range n).filter fun i => (k * n + i) / 32 = h)).filterMap
      fun (h, is) => if is = [] then none
        else some { q := (q + k) % 8, p := dot v true w (k * n) base is, sc := some (byteOf (v.rn sr) h, byteOf (v.rn sr) 2) }
  else
    let n := 32 / g
    (List.range g).map fun k => { q := (q + k) % 8, p := dot v false w (k * n) base (List.range n) }
/-- What NDOTB accumulates for its 32 column words (R272). -/
def ndotbSums (v : NThread) (q l : Nat) (mi4 : Bool) (off : Nat) (er : BitVec 4) (w : Nat → BitVec 256) : List NAcc :=
  (List.range 32).flatMap fun j =>
    let qi := (q + j / 2 ^ l) % 8
    let base := 32 * off + (if mi4 then 64 else 32) * (j % 2 ^ l)
    if mi4 then [0, 1].map fun h =>
      { q := qi, p := dot v true (w j) (32 * h) (base + 32 * h) (List.range 32),
        sc := some (byteOf (v.rw (if 2 * j + h < 32 then 0 else 1)) ((2 * j + h) % 32), byteOf (v.rn er) 0) }
    else [{ q := qi, p := dot v false (w j) 0 base (List.range 32) }]
/-- ACCUM_I and ACCUM_MX (R271): what becomes of an accumulator, and the flags SAT, INX and NANS raised. -/
def accumulate (q : Int) (a : NAcc) : Int × BitVec 3 :=
  let top : Int := 2 ^ 63 - 1
  let add := fun (z : Int) (f : BitVec 3) =>
    if top < q + z then (top, f ||| 1) else if q + z < -top then (-top, f ||| 1) else (q + z, f)
  if q = -(2 : Int) ^ 63 then (q, 0)
  else match a.sc with
    | none => add a.p 0
    | some (e, eref) =>
      if e = 255 then (-(2 : Int) ^ 63, 4)
      else if eref ≤ e then add (a.p * 2 ^ (e - eref)) 0
      else
        let m : Int := 2 ^ (eref - e)
        let f := a.p / m
        let r := a.p % m
        if r = 0 then add f 0 else add (if 2 * r < m ∨ (2 * r = m ∧ f % 2 = 0) then f else f + 1) 2
/-- The column word behind a column of a thread's row of a bank, as 32 bytes of memory. -/
def columnAt (s : State) (b row c : Nat) : Nat := pmdBase + 32 * s.nCol b row c
def columnWord (s : State) (b row c : Nat) : BitVec 256 := BitVec.ofNat 256 (leNat (readBytes s.mem (columnAt s b row c) 32))
/-- The NBU has these banks, the thread points to these rows of them, and they are open. -/
def Points (s : State) (rs : List (Nat × Nat)) : Prop :=
  ∀ r ∈ rs, lookupN s.myThread.rows r.1 = some r.2 ∧ s.granted r.1 = true ∧ s.isOpen r.1 r.2 = true
/-- The thread loses its turn to the opening of a row (R264, R265): the NBU opens it in place of the bank's other row, or, where LP6
does not let it yet, leaves the bank as it is; nothing else differs but the number of free values taken. -/
def OpensRow (s : State) (i : Instr) (b row : Nat) : Prop :=
  ∃ u, exec i s = .next u ∧ u = { s with nbus := u.nbus, free := u.free } ∧ (∀ m, m ≠ s.sel.nbu → u.nbu m = s.nbu m) ∧
    { u.nbu s.sel.nbu with openRow := (s.nbu s.sel.nbu).openRow } = s.nbu s.sel.nbu ∧
    (∀ k, k ≠ b → lookupN (u.nbu s.sel.nbu).openRow k = lookupN (s.nbu s.sel.nbu).openRow k) ∧
    (lookupN (u.nbu s.sel.nbu).openRow b = some row ∨ (u.nbu s.sel.nbu).openRow = (s.nbu s.sel.nbu).openRow)
/-- A datapath word issues: its sums land lat nclk on, and the datapath is busy for so many. -/
def Feeds (s : State) (i : Instr) (busy lat : Nat) (sums : List NAcc) : Prop :=
  ∃ u, exec i s = .next u ∧ (∀ m, m ≠ s.sel.nbu → u.nbu m = s.nbu m) ∧ u.mem = s.mem ∧ u.slots = s.slots ∧
    (u.nbu s.sel.nbu).busy = s.nclk + busy ∧ Onward s.myThread u.myThread ∧
    { u.myThread with pc := s.myThread.pc, loops := s.myThread.loops }
      = { s.myThread with dp := s.myThread.dp ++ [{ due := s.nclk + lat, adds := sums }] }

end Sys2Proof.Claim

section

open Sys2Proof Sys2Proof.Machine Sys2Proof.Claim

/-- R267, R268, R274: the scalar words of a thread; NBNZ, NJMP and NLOOP; NLDA, which copies ws into its activation buffer;
NSYNC and NDONE, once its datapath words have landed: the thread goes on, or becomes idle. -/
def Sys2Proof.Claim.NbuScalarAndControlWords : Prop :=
  ∀ (d a b r : BitVec 4) (i f : BitVec 18) (j : BitVec 21) (l : BitVec 10) (w : BitVec 1) (o : BitVec 5) (s : State),
    let v := s.myThread
    let n := (v.rn a).toNat
    (∀ row ∈ nbuScalars d a b i j v, WritesN s row.1 d row.2) ∧
    (v.rn a ≠ 0 → ThreadGoesTo s (.nbnz a f) (v.pc + f.toInt)) ∧ (v.rn a = 0 → ThreadDoes s (.nbnz a f) id) ∧
    ThreadGoesTo s (.njmp f) (v.pc + f.toInt) ∧
    (n = 0 ∨ l = 0 → ∃ u, exec (.nloop r a l) s = .next u ∧ OnlyThread s u ∧
      (u.myThread.pc, u.myThread.loops) = nLoopEnd (v.pc + l.toNat) v.loops ∧
      { u.myThread with pc := v.pc, loops := v.loops } = v) ∧
    (n ≠ 0 → l ≠ 0 → v.loops.length < 2 → ∃ u, exec (.nloop r a l) s = .next u ∧ OnlyThread s u ∧
      u.myThread = { v with pc := v.pc + 1, loops := (v.pc + 1, v.pc + l.toNat, n) :: v.loops }) ∧
    (∃ u, exec (.nlda w o) s = .next u ∧ OnlyThread s u ∧ Onward v u.myThread ∧
      (∀ k, k < 32 → byteAt u.myThread.act (32 * o.toNat + k) = (v.rw w).extractLsb' (8 * k) 8) ∧
      (∀ k, k < 32 * o.toNat ∨ 32 * o.toNat + 32 ≤ k → byteAt u.myThread.act k = byteAt v.act k) ∧
      { u.myThread with act := v.act, pc := v.pc, loops := v.loops } = v) ∧
    (v.dp = [] → ThreadDoes s .nsync id) ∧ (v.dp ≠ [] → exec .nsync s = .next s) ∧
    (v.dp = [] → ∃ u, exec .ndone s = .next u ∧ u.myThread = { v with run := false, loops := [] } ∧ u.mem = s.mem ∧
      (∀ m, m ≠ s.sel.nbu → u.nbu m = s.nbu m) ∧ ∀ t, t ≠ s.sel.thread → u.thread s.sel.nbu t = s.thread s.sel.nbu t)

/-- R264, R265, R269, R270, R273: NACT of a bank that the NBU has loses turns while its row is being opened, and points the thread to
the row once it is open; NPRE closes the row of a bank if the thread points there; NRDW reads a column word of the pointed row into wd; NWRQ writes one from the accumulators,
saturated to 32 bits or whole, and clears them when asked. Without a bank each loses its turn. -/
def Sys2Proof.Claim.NbuBankWords : Prop :=
  ∀ (b : BitVec 2) (g w c x : BitVec 1) (a : BitVec 4) (i : BitVec 6) (q : BitVec 3) (row : Nat) (s : State), s.flips = [] →
    let v := s.myThread
    let n := s.sel.nbu
    let col := ((v.rn a).toNat + i.toNat) % 64
    let wcol := (v.rn a).toNat % 64
    let pa := columnAt s b.toNat row wcol
    let qs := (List.range (if w = 1 then 4 else 8)).map fun e => (q.toNat + e) % 8
    let qv := fun e => mget 0 v.q ((q.toNat + e) % 8)
    (s.granted b.toNat = false → LosesTurn s (.nact b a)) ∧
    (s.granted b.toNat = true → s.isOpen b.toNat ((v.rn a).toNat % 2 ^ 17) = false →
      OpensRow s (.nact b a) b.toNat ((v.rn a).toNat % 2 ^ 17)) ∧
    (s.granted b.toNat = true → s.isOpen b.toNat ((v.rn a).toNat % 2 ^ 17) = true →
      ∃ u, exec (.nact b a) s = .next u ∧ OnlyThread s u ∧ Onward v u.myThread ∧
        (∀ k, lookupN u.myThread.rows k = if k = b.toNat then some ((v.rn a).toNat % 2 ^ 17) else lookupN v.rows k) ∧
        (u.nbu n).openRow = (s.nbu n).openRow ∧ { u.myThread with rows := v.rows, pc := v.pc, loops := v.loops } = v) ∧
    ((∀ k, k < 4 → (g = 1 ∨ k = b.toNat) → s.granted k = true) →
      ∃ u, exec (.npre b g) s = .next u ∧ OnlyThread s u ∧ Onward v u.myThread ∧ u.myThread.rows = v.rows ∧
        ∀ r, r ∈ (u.nbu n).openRow ↔ r ∈ (s.nbu n).openRow ∧
          ¬ (r.1 < 4 ∧ (g = 1 ∨ r.1 = b.toNat) ∧ lookupN v.rows r.1 = some r.2)) ∧
    (lookupN v.rows b.toNat = some row → s.granted b.toNat = false → LosesTurn s (.nrdw b x a i)) ∧
    (lookupN v.rows b.toNat = some row → s.granted b.toNat = true → s.isOpen b.toNat row = false →
      OpensRow s (.nrdw b x a i) b.toNat row ∧ (s.isStriped n b.toNat row wcol = false → v.busyQ qs = false →
        OpensRow s (.nwrq b a q w c) b.toNat row)) ∧
    (Points s [(b.toNat, row)] → (s.isStriped n b.toNat row col = true ∨
        s.canAccess 16 [lineOf (columnAt s b.toNat row col)] = true) →
      ∃ u, exec (.nrdw b x a i) s = .next u ∧ OnlyThread s u ∧ Onward v u.myThread ∧
        u.myThread.rw x = columnWord s b.toNat row col ∧ (∀ y, y ≠ x → u.myThread.rw y = v.rw y) ∧
        { u.myThread with w := v.w, pc := v.pc, loops := v.loops } = v) ∧
    (Points s [(b.toNat, row)] → s.isStriped n b.toNat row wcol = false → v.busyQ qs = false →
      s.hostHolds [lineOf pa] = false → (∀ k, k < 32 → s.pclass (pa + k) = .pmd) →
      (s.inst ((s.eop? v.org).getD {}).org.task).frozen = false →
      ∃ u, exec (.nwrq b a q w c) s = .next u ∧ Onward v u.myThread ∧ OutsideSame pa 32 s u ∧ u.slots = s.slots ∧
        (w = 0 → ∀ e, e < 8 → valueAt u (pa + 4 * e) 4
          = ((max (-(2 : Int) ^ 31) (min (2 ^ 31 - 1) (qv e).toInt)) % 2 ^ 32).toNat) ∧
        (w = 1 → ∀ e, e < 4 → valueAt u (pa + 8 * e) 8 = (qv e).toNat) ∧
        (∀ k, mget 0 u.myThread.q k = if c = 1 ∧ k ∈ qs then 0 else mget 0 v.q k) ∧
        { u.myThread with q := v.q, pc := v.pc, loops := v.loops } = v)

/-- R264, R271, R272: NDOT and NDOTB, with the datapath free, capture their operands and issue sums that land 1 and 18 nclk on;
when the oldest have come due, each adds to its accumulator by ACCUM_I or ACCUM_MX in order, with its flags. -/
def Obligations.NbuDatapathWords : Prop :=
  ∀ (q : BitVec 3) (w f p : BitVec 1) (g : BitVec 2) (sr a e : BitVec 4) (o : BitVec 5) (l : BitVec 3) (r0 r1 n t : Nat)
    (x : NAcc) (d : NDp) (ds : List NDp) (s : State),
    let v := s.myThread
    let col := (v.rn a).toNat % 64
    let b := 2 * p.toNat
    ((s.nbu s.sel.nbu).busy ≤ s.nclk → g ≠ 3 →
      Feeds s (.ndot q w g f sr o) 1 1 (ndotSums v q.toNat (v.rw w) (2 ^ g.toNat) (f == 1) sr (32 * o.toNat))) ∧
    ((s.nbu s.sel.nbu).busy ≤ s.nclk → s.flips = [] → 2 ≤ l.toNat → l.toNat ≤ (if f = 1 then 4 else 5) → col ≤ 48 →
      Points s [(b, r0), (b + 1, r1)] →
      Feeds s (.ndotb q p a l f o e) 16 18 (ndotbSums v q.toNat l.toNat (f == 1) o.toNat e fun j =>
        columnWord s (b + j % 2) (if j % 2 = 0 then r0 else r1) (col + j / 2))) ∧
    ((s.thread n t).dp = d :: ds → d.due ≤ (s.nbu n).nclk → d.adds = [x] →
      ∃ u, exec (.nbuDatapathLand n t) s = .next u ∧ (u.thread n t).dp = ds ∧
        let r := accumulate (mget 0 (s.thread n t).q x.q).toInt x
        (mget 0 (u.thread n t).q x.q).toInt = r.1 ∧ (u.thread n t).flags = (s.thread n t).flags ||| r.2 ∧
        (∀ k, k ≠ x.q → mget 0 (u.thread n t).q k = mget 0 (s.thread n t).q k) ∧
        { u.thread n t with q := (s.thread n t).q, flags := (s.thread n t).flags, dp := (s.thread n t).dp } = s.thread n t ∧
        (∀ m, m ≠ n → u.nbu m = s.nbu m) ∧ u.mem = s.mem)

end
namespace Sys2Proof.Claim

open Sys2Proof.Machine

/-! ### The memory-command sequencers and the operations they carry out (R262, R275 to R281, R287, R288, R457, R462) -/

/-- The oldest command of the channel is sent: the others wait on. -/
def Sends (ch : Nat) (c : McsCmd) (cs : List McsCmd) (s u : State) : Prop :=
  (s.chan ch).cmds = c :: cs → (u.chan ch).cmds = cs ∧ (∀ j, j ≠ ch → u.chan j = s.chan j) ∧ (∀ b, byteAt u.mem b = byteAt s.mem b)
/-- Only NBU n differs among the NBUs, and of it nothing outside f. -/
def OnlyNbu (n : Nat) (f : Nbu → Nbu) (s u : State) : Prop :=
  u.nbu n = f (s.nbu n) ∧ ∀ m, m ≠ n → u.nbu m = s.nbu m
/-- A thread as a start leaves it (R278): n1 its index, n2 the NBU, n3 and n4 the argument, all else at its reset value. -/
def startedThread (n t entry : Nat) (arg : Word) (id : Nat) (act : Memory) (v : NThread) : Prop :=
  v = { run := true, pc := entry, org := id, act := act, n := v.n } ∧ v.rn 1 = BitVec.ofNat 32 t ∧ v.rn 2 = BitVec.ofNat 32 n ∧
    v.rn 3 = arg.extractLsb' 0 32 ∧ v.rn 4 = arg.extractLsb' 32 32 ∧ ∀ r, 4 < r.toNat → v.rn r = 0
/-- Commands join those of the channel. -/
def Queues (ch : Nat) (cs : List McsCmd) (s u : State) : Prop := (u.chan ch).cmds = (s.chan ch).cmds ++ cs
/-- One element of a reduction (R288): an integer sum modulo 2^32, or the tree of R82 in FP32 rounded to OFMT. -/
def reduced (ifmt ofmt : Nat) (xs : List Nat) : Nat := if ifmt = 3 then xs.sum % 2 ^ 32 else redElem ifmt ofmt xs

end Sys2Proof.Claim

section

open Sys2Proof Sys2Proof.Machine Sys2Proof.Claim

/-- R262, R278: PLOAD writes its words into the code store, and its PIMLD retires with the last of its NBUs; PACTB puts its bytes into the buffers of its threads, the rest 0;
PSTART starts its threads; PGRANT gives banks and PREVOKE takes them, their rows closed; PSTAT reads which threads are done,
their flags and the corrections. -/
def Sys2Proof.Claim.SequencerCommandsAreCarriedOut : Prop :=
  ∀ (ch n off id entry : Nat) (ws : List W32) (ts : BitVec 16) (bs : List Byte) (arg : Word) (banks : BitVec 4) (o : EOp)
    (cs : List McsCmd) (s : State),
    ((s.chan ch).cmds = .pload n off ws id :: cs → s.eop? id = some o → (o.todo.filter (· ≠ n)) ≠ [] →
      s.walkStop = none → ∃ u, exec (.pload ch) s = .next u ∧ Sends ch (.pload n off ws id) cs s u ∧
        (∀ i, mget 0 (u.nbu n).code i = if off ≤ i ∧ i < off + ws.length then ws.getD (i - off) 0 else mget 0 (s.nbu n).code i) ∧
        OnlyNbu n (fun v => { v with code := (u.nbu n).code }) s u ∧
        u.eop? id = some { o with todo := o.todo.filter (· ≠ n) }) ∧
    ((s.chan ch).cmds = .pload n off ws id :: cs → s.eop? id = some o → o.todo = [n] →
      s.retireWaits { o with todo := [] } = false →
      let load := fun (v : Nbu) => { v with code := (ws.zipIdx).foldl (fun m w => mset 0 m (off + w.2) w.1) v.code }
      Goes (.pload ch) s (eRetire id { o with todo := [] }
        ((s.setChan ch { s.chan ch with cmds := cs }).setNbu n (load (s.nbu n))))) ∧
    ((s.chan ch).cmds = .pactb n ts bs :: cs → ∃ u, exec (.pactb ch) s = .next u ∧ Sends ch (.pactb n ts bs) cs s u ∧
      (∀ t, t < 16 → u.thread n t = if ts.getLsbD t then { s.thread n t with act := (u.thread n t).act } else s.thread n t) ∧
      (∀ t i, t < 16 → ts.getLsbD t = true → byteAt (u.thread n t).act i = if i < bs.length then bs.getD i 0 else 0) ∧
      ∀ m, m ≠ n → u.nbu m = s.nbu m) ∧
    ((s.chan ch).cmds = .pstart n ts entry arg id :: cs → ∃ u, exec (.pstart ch) s = .next u ∧
      Sends ch (.pstart n ts entry arg id) cs s u ∧ (∀ m, m ≠ n → u.nbu m = s.nbu m) ∧
      ∀ t, t < 16 → (ts.getLsbD t = true → startedThread n t entry arg id (s.thread n t).act (u.thread n t)) ∧
        (ts.getLsbD t = false → u.thread n t = s.thread n t)) ∧
    ((s.chan ch).cmds = .pgrant n banks :: cs → ∃ u, exec (.pgrant ch) s = .next u ∧ Sends ch (.pgrant n banks) cs s u ∧
      OnlyNbu n (fun v => { v with grant := v.grant ||| banks, since := v.nclk }) s u) ∧
    ((s.chan ch).cmds = .prevoke n banks :: cs → ∃ u, exec (.prevoke ch) s = .next u ∧ Sends ch (.prevoke n banks) cs s u ∧
      OnlyNbu n (fun (v : Nbu) => { v with grant := v.grant &&& ~~~banks, revoke := none,
                                           openRow := v.openRow.filter fun r => !banks.getLsbD r.1 }) s u) ∧
    ((s.chan ch).cmds = .pstat n :: cs → ∃ u, exec (.pstat ch) s = .next u ∧ Sends ch (.pstat n) cs s u ∧ u.nbus = s.nbus ∧
      (∀ t, t < 16 → (u.chan ch).stat.1.getLsbD t = !(s.thread n t).run) ∧ (u.chan ch).stat.2.2 = (s.nbu n).corr)

/-- R280, R281, R462, R457: a cut withdraws granted banks and counts; a regrant gives back what the NBU lacks; a refresh closes
the rows of its channel; an NBU that does not acknowledge in 64 nclk loses the banks and its running threads, and a held thread
that issues nothing in 8 192 nclk stops; the patrol corrects a single wrong bit and goes on. -/
def Sys2Proof.Claim.CutsRefreshTimeoutsAndPatrol : Prop :=
  ∀ (ch n p : Nat) (banks : BitVec 4) (s : State),
    let v := s.nbu n
    let col := (s.chan ch).patrol / 8 * 256 + ch * 8 + (s.chan ch).patrol % 8
    let ctl := (s.reg (0x100018 + 0x100 * ch)).toNat
    (nbuChan s.z128 n = ch → n < s.nnbu → v.revoke = none →
      (v.grant &&& banks ≠ 0 → ∃ u, exec (.mcsLatencyCut ch n banks) s = .next u ∧ Queues ch [.prevoke n (v.grant &&& banks)] s u ∧
        (u.chan ch).cuts = (s.chan ch).cuts + 1 ∧
        OnlyNbu n (fun v => { v with revoke := some banks, since := v.nclk }) s u) ∧
      (v.grant ≠ 0xF → ∃ u, exec (.mcsBankRegrant ch n) s = .next u ∧ Queues ch [.pgrant n (~~~v.grant)] s u ∧ u.nbus = s.nbus)) ∧
    (∃ u, exec (.mcsRefresh ch) s = .next u ∧
      ∀ m, u.nbu m = if nbuChan s.z128 m = ch then { s.nbu m with openRow := [] } else s.nbu m) ∧
    (v.revoke = some banks → v.since + 64 ≤ v.nclk → ∃ u, exec (.nbuRevokeTimeout n) s = .next u ∧ (u.nbu n).revoke = none ∧
      (u.nbu n).grant = v.grant &&& ~~~banks ∧ (u.nbu n).held = 0 ∧ (∀ t, t < 16 → (u.thread n t).run = false) ∧
      ∀ m, m ≠ n → u.nbu m = s.nbu m) ∧
    (s.runsAt n v.held ≠ [] → v.grant = 0xF → v.since + 8192 ≤ v.nclk → ∃ u, exec (.nbuStallTimeout n) s = .next u ∧
      (u.nbu n).grant = 0 ∧ (u.nbu n).held = 0 ∧ (∀ t, t < 16 → v.held.getLsbD t = true → (u.thread n t).run = false) ∧
      ∀ m, m ≠ n → u.nbu m = s.nbu m) ∧
    (ctl / 256 % 256 ≠ 0 → ch < 32 → s.pkg.power < 2 → mget [] s.flips col = [] ∨ (mget [] s.flips col = [p] ∧ p ≤ 265 ∧ ctl % 2 = 1) →
      ∃ u, exec (.patrolScrub ch) s = .next u ∧ (u.chan ch).patrol = ((s.chan ch).patrol + 1) % (s.cap / 1024) ∧
        mget [] u.flips col = [] ∧ (∀ b, byteAt u.mem b = byteAt s.mem b) ∧
        (∀ c, c ≠ col → mget [] u.flips c = mget [] s.flips c) ∧ u.fq = s.fq)

/-- R275 to R277, R448: an operation of the matrix of memory reads its block once: PIMLD its words and the NBUs it selects, PIMRUN the
places of its activations and of its results, REDUCE the places of its buffers and of its result. PIMLD and PIMRUN then reach the
sequencers of their channels. -/
def Sys2Proof.Claim.MemorySideBlocksAreRead : Prop :=
  ∀ (ch id q : Nat) (o : EOp) (bs ws : List Byte) (rs ds : List (Nat × Nat × Nat × Bool)) (a b c : State) (s : State),
    s.eop? id = some o →
    let r := { o with blk := bs }
    let ns := a.selected (r.f 8 4) (r.f 12 1)
    let runs := if r.f 38 2 = 0 then [] else a.selected (r.f 32 4) (r.f 36 1)
    let acts := if r.f 8 8 = 0 ∨ r.f 42 2 = 0 then [] else runs.map fun n => (r.prAct a.z128 n, r.f 42 2, 1)
    let outs := [r.f 56 8, r.f 16 8].filterMap fun x => if x = 0 then none else some (x, 8, 8)
    (o.kind = .pimld → o.read = false → s.onTheWay .pimld ch = [id] → (s.chan ch).waiting = [] →
      eRead o o.org.block.toNat 16 16 s = .val bs a → r.f 13 3 % 2 ^ 11 + r.f 13 3 / 2 ^ 11 % 2 ^ 12 ≤ 2048 →
      r.f 13 3 / 2 ^ 11 % 2 ^ 12 ≠ 0 → eRead r (r.f 0 8) (4 * (r.f 13 3 / 2 ^ 11 % 2 ^ 12)) 4 a = .val ws b →
      ns ≠ [] →
      Goes (.pimldApply ch) s (setEop id { r with read := true, data := ws, todo := ns, chans := b.chansOf ns } b)) ∧
    (o.kind = .pimrun → o.read = false → s.onTheWay .pimrun ch = [id] → (s.chan ch).waiting = [] →
      eRead o o.org.block.toNat 64 64 s = .val bs a → (r.f 44 1 % 2 = 1 → r.f 37 1 ≤ 63) → r.f 42 2 ≤ 1024 → r.f 42 2 % 32 = 0 →
      eSides r .read acts a = (none, rs, b) → eSides r .write outs b = (none, ds, c) →
      Goes (.pimRunStart ch) s
        (setEop id { r with read := true, dsts := ds ++ rs, todo := runs, chans := c.chansOf runs } c)) ∧
    (o.kind = .reduce → o.read = false → (mget [] s.redQ q).head? = some id → eRead o o.org.block.toNat 64 64 s = .val bs a →
      let n := r.f 24 4
      let size := fun (f : Nat) => if f = 0 ∨ f = 3 then 4 else 2
      n ≤ 2 ^ 24 → 1 ≤ r.f 28 1 → r.f 28 1 ≤ 16 → r.f 29 1 ≤ 3 → r.f 30 1 ≤ 3 → (r.f 29 1 = 3 ↔ r.f 30 1 = 3) → r.f 31 1 % 2 = 0 →
      eSides r .read (if n = 0 then [] else r.buffers.map fun b => (b, n * size (r.f 29 1), size (r.f 29 1))) a = (none, rs, b) →
      eSides r .write ((if n = 0 then [] else [(r.f 0 8, n * size (r.f 30 1), size (r.f 30 1))]) ++
        if r.f 32 8 = 0 then [] else [(r.f 32 8, 8, 8)]) b = (none, ds, c) →
      Goes (.reduceComplete q false) s (setEop id { r with read := true, dsts := rs ++ ds } c)) ∧
    (∀ kind, (kind = .pimld ∨ kind = .pimrun) → s.onTheWay kind ch = [id] → (s.chan ch).waiting = [] → o.kind = kind →
      o.read = true → o.chans.getLsbD ch = true → ch < 32 → s.walkStop = none →
      ∃ t, exec (if kind = .pimld then .pimldApply ch else .pimRunStart ch) s = .next t ∧ t.onTheWay kind ch = [] ∧
        (t.chan ch).waiting = [id] ∧ (t.chan ch).cmds = (s.chan ch).cmds ∧
        t.eop? id = some { o with chans := o.chans &&& ~~~(BitVec.twoPow 32 ch) })

/-- R276, R278, R279, R288: with no other on its way, a PIMLD sends its words to the idle NBUs of its channel, and a PIMRUN
without activations starts its threads there; once none of its threads runs it writes its status word, then SEQ, and retires; a
REDUCE writes the reduction of element n of its buffers to element n of its destination. -/
def Sys2Proof.Claim.MemorySideOperationsProceed : Prop :=
  ∀ (ch id e n : Nat) (rest : List Nat) (o : EOp) (u : State) (s : State), s.eop? id = some o → s.walkStop = none →
    (o.kind = .pimld → s.onTheWay .pimld ch = [] → (s.chan ch).waiting = id :: rest →
      (∀ m ∈ o.todo, nbuChan s.z128 m = ch → s.idleThreads ch m 0xFFFF = true) →
      ∃ t, exec (.pimldApply ch) s = .next t ∧ (t.chan ch).waiting = rest ∧
        Queues ch ((o.todo.filter fun m => nbuChan s.z128 m == ch).map fun m => .pload m (o.f 13 3 % 2 ^ 11)
          ((List.range (o.f 13 3 / 2 ^ 11 % 2 ^ 12)).map fun i => BitVec.ofNat 32 (leNat ((o.data.drop (4 * i)).take 4))) id) s t) ∧
    (o.kind = .pimrun → s.onTheWay .pimrun ch = [] → (s.chan ch).waiting = id :: rest → o.parked = false → o.region = none →
      o.todo = [n] → nbuChan s.z128 n = ch → (s.reg (0x100000 + 0x100 * ch)).toNat.testBit (24 + nbuLocal s.z128 n) = true →
      s.idleThreads ch n (BitVec.ofNat 16 (o.f 38 2)) = true → o.f 8 8 = 0 →
      ∃ t, exec (.pimRunStart ch) s = .next t ∧ (t.chan ch).waiting = rest ∧
        Queues ch [.pactb n (BitVec.ofNat 16 (o.f 38 2)) [],
          .pstart n (BitVec.ofNat 16 (o.f 38 2)) (o.f 40 2 % 2048) (BitVec.ofNat 64 (o.f 0 8)) id] s t ∧
        t.eop? id = some { o with todo := [], started := o.started ++ [n] }) ∧
    (o.kind = .pimrun → o.read = true → o.parked = false → o.stops = [] → o.todo = [] → s.runIdle id = true → s.retireWaits o = false →
      let done := fun (u : State) =>
        eRetire id o { u with mcs := u.mcs.map fun c => (c.1, { c.2 with runs := c.2.runs.filter (· ≠ id) }) }
      (o.phase = 0 → o.f 56 8 ≠ 0 → eWrite o (o.f 56 8) (leBytes (o.flags.toNat + min o.corr 65535 * 2 ^ 16) 8) s = (true, u) →
        Goes (.pimRunComplete id) s (setEop id { o with phase := 1 } u)) ∧
      (o.phase ≠ 0 ∨ o.f 56 8 = 0 → o.f 16 8 ≠ 0 → eWrite o (o.f 16 8) (leBytes (o.f 24 8) 8) s = (true, u) →
        Goes (.pimRunComplete id) s (done u)) ∧
      (o.phase ≠ 0 ∨ o.f 56 8 = 0 → o.f 16 8 = 0 → Goes (.pimRunComplete id) s (done s))) ∧
    (mget [] s.redQ e = id :: rest → o.read = true → o.f 28 1 ≤ 16 →
      let i := o.f 29 1
      let f := o.f 30 1
      let size := fun (f : Nat) => if f = 0 ∨ f = 3 then 4 else 2
      let places := o.buffers.map fun b => (o.dst (b + o.phase * size i) (size i)).map fun pa => (pa, 1, 0)
      let x := reduced i f (places.map fun r => leNat (s.eBytes o r))
      (o.phase < o.f 24 4 → s.canAccess 16 ((places.flatten.map fun r => lineOf r.1).eraseDups) = true →
        ePoison places.flatten s = (none, s) → eWrite o (o.f 0 8 + o.phase * size f) (leBytes x (size f)) s = (true, u) →
        Goes (.reduceComplete e false) s (setEop id { o with phase := o.phase + 1 } u)) ∧
      (o.f 24 4 ≤ o.phase → o.f 32 8 ≠ 0 → s.retireWaits o = false → eWrite o (o.f 32 8) (leBytes (o.f 40 8) 8) s = (true, u) →
        Goes (.reduceComplete e false) s (eRetire id o u)) ∧
      (o.f 24 4 ≤ o.phase → o.f 32 8 = 0 → s.retireWaits o = false → Goes (.reduceComplete e false) s (eRetire id o s)))

end
namespace Sys2Proof.Claim

open Sys2Proof.Machine

/-! ### Attention, sampling and winnow (R290 to R310, R471) -/

/-- Operation o is the request at the head of the winnow engine, read, with this operation code. -/
def WinnowHead (s : State) (id : Nat) (o : EOp) (op : Nat) : Prop :=
  s.winQ.head? = some id ∧ s.eop? id = some o ∧ o.read = true ∧ o.f 0 1 = op
/-- A field of a grammar descriptor (R307). -/
def gramField (g b n : Nat) : Nat := g / 256 ^ b % 256 ^ n
/-- The fields of a descriptor lie in the ranges of R307. -/
def gramSound (g : Nat) : Prop :=
  1 ≤ gramField g 0 4 ∧ gramField g 0 4 ≤ 262144 ∧ 1 ≤ gramField g 4 2 ∧ gramField g 4 2 ≤ 4096 ∧ 1 ≤ gramField g 6 2 ∧
    gramField g 6 2 ≤ 256 ∧ 1 ≤ gramField g 8 2 ∧ gramField g 8 2 ≤ 256 ∧ 1 ≤ gramField g 10 1 ∧ gramField g 10 1 ≤ 64 ∧
    gramField g 12 2 < gramField g 4 2 ∧ gramField g 32 8 % 64 = 0
/-- The step of R309 by token t: the mask of the context's state and top allows it, its class is read, and the entry of the
transition table names this state and stack. Reading may leave translations and mask lines behind: u. -/
def StepsBy (s : State) (o : EOp) (g t : Nat) (c c' : WCtx) (u : State) : Prop :=
  ∃ m cl e v w, maskOf o (c.slot.getD 0) g c.state c.top s = .val m v ∧ t < gramField g 0 4 ∧ m.testBit t = true ∧
    pRead o (gramField g 16 8 + t) 1 1 v = .val cl w ∧ cl < gramField g 8 2 ∧
    pRead o (gramField g 24 8 + 4 * (c.state * gramField g 8 2 + cl)) 4 4 w = .val e u ∧
    e % 4096 < gramField g 4 2 ∧ c'.slot = c.slot ∧ c'.state = e % 4096 ∧
    match e / 4096 % 4 with
    | 0 => c'.stack = c.stack
    | 1 => c.stack.length < gramField g 10 1 ∧ 0 < e / 2 ^ 14 % 256 ∧ e / 2 ^ 14 % 256 < gramField g 6 2 ∧
        c'.stack = e / 2 ^ 14 % 256 :: c.stack
    | 2 => c.stack ≠ [] ∧ c'.stack = c.stack.tail
    | _ => False
/-- The status word (R309). -/
def winnowStatus (c : WCtx) (m v : Nat) (nostep : Bool) : Nat :=
  let n := ((List.range v).filter fun i => m.testBit i).length
  c.state % 4096 + c.stack.length % 128 * 2 ^ 12 + c.stack.headD 0 % 256 * 2 ^ 19 + (if n = 1 then 2 ^ 32 else 0) +
    (if n = 0 then 2 ^ 33 else 0) + (if nostep then 2 ^ 34 else 0) + n % 2 ^ 24 * 2 ^ 40
/-- The result word of SAMPLE (R304). -/
def sampleWord (tok : Nat) (forced drawn empty : Bool) (n : Nat) : Nat :=
  tok % 2 ^ 32 + 2 ^ 32 * forced.toNat + 2 ^ 33 * drawn.toNat + 2 ^ 34 * empty.toNat + 2 ^ 40 * (n % 2 ^ 24)
/-- Token t's logit among the bytes read. -/
def logit (lf n : Nat) (bs : List Byte) (t : Nat) : FV := (redFmt lf).value false (leNat ((bs.drop (n * t)).take n))

end Sys2Proof.Claim

section

open Sys2Proof Sys2Proof.Machine Sys2Proof.Claim

/-- R298, R300, R471: an ATTN whose blocks are all present writes its merged triple and retires; one that meets an absent block
waits there, and each retry counts, ending the wait once the block is present; past the limit the operation parks with cause
0x3D, the address, and the block and retries in INFO. The triple over no position is the identity: −∞, 0 and zeros. -/
def Obligations.AttentionMergesOrWaits : Prop :=
  ∀ (id va : Nat) (o : EOp) (x : Trip) (ds : List (Nat × Nat × Nat × Bool)) (u v w : State) (s : State), s.eop? id = some o →
    o.kind = .attn → o.parked = false → o.read = true →
    (o.absentAt = none → aResult o s = .val x u → eSides o .write [(o.f 56 8, 8 + 4 * o.f 36 2, 8)] u = (none, ds, v) →
      eWrite { o with dsts := ds } (o.f 56 8) (aBytes o x) v = (true, w) →
      v.retireWaits o = false → Goes (.attnComplete id false) s (eRetire id { o with dsts := ds } w)) ∧
    (o.f 24 4 = o.f 28 4 → aResult o s
      = .val (Trip.mk (.inf true) (.fin false 0 0) (List.replicate (o.f 36 2) (.fin false 0 0))) s) ∧
    (o.absentAt = none → aResult o s = .absent va u →
      Goes (.attnComplete id false) s (setEop id { o with absentAt := some u.clk, tried := u.clk } u)) ∧
    (∀ c, o.absentAt = some c →
      (aResult o s = .absent va u → Goes (.attnAbsentRetry id) s (setEop id { o with retries := o.retries + 1, tried := u.clk } u)) ∧
      (aResult o s = .val x u → Goes (.attnAbsentRetry id) s (setEop id { o with retries := o.retries + 1, absentAt := none } s)) ∧
      (let lim := (s.reg 0x130030).toNat / 2 ^ 12 % 16
       aResult o s = .absent va u → lim ≠ 0 → c + 2 ^ (lim + 12) ≤ s.clk → s.fq.full = false → u.fq = s.fq → u.walkStop = none →
        ∃ t e, exec (.attnAbsentTimeout id) s = .next t ∧ mget ({}, .none) t.fq.recs s.fq.tail.toNat = (e, .eop id) ∧
          e.cause = 0x3D ∧ e.kind = 1 ∧ e.src = 8 ∧ e.val = BitVec.ofNat 64 va ∧
          e.info.toNat / 2 ^ 32 = o.retries % 2 ^ 32 ∧ t.fq.tail = s.fq.tail + 1))

/-- R302 to R304: a SAMPLE with its mask and logits read answers EMPTY when no token is allowed, FORCED when one is, and else
the choice of R303, with the counter written back when it has drawn; then it writes its result and retires. -/
def Obligations.SamplingChoosesAToken : Prop :=
  ∀ (id m : Nat) (rest : List Nat) (o : EOp) (bs : List Byte) (ds : List (Nat × Nat × Nat × Bool)) (a b c u : State) (s : State),
    s.sampQ = id :: rest → s.eop? id = some o → o.read = true →
    let v := o.f 8 4
    let n := if o.f 12 1 = 0 then 4 else 2
    let l := ((List.range v).filter m.testBit).map fun t => (t, logit (o.f 12 1) n bs t)
    let out := (o.f 56 8, 8, 8)
    let chosen := fun (ds : List (Nat × Nat × Nat × Bool)) (w : Nat) => { o with dsts := ds, data := leBytes w 8, phase := 1 }
    (o.phase = 0 → sampleMask o s = .val m a → eRead o (o.f 0 8) (n * v) n a = .val bs b →
      (l = [] → eSides o .write [out] b = (none, ds, c) →
        Goes .sampleComplete s (setEop id (chosen ds (sampleWord 0xFFFFFFFF false false true 0)) c)) ∧
      (∀ t x, l = [(t, x)] → eSides o .write [out] b = (none, ds, c) →
        Goes .sampleComplete s (setEop id (chosen ds (sampleWord t true false false 1)) c)) ∧
      (∀ x, x = chooseToken (fp32.value false (o.f 16 4)) (fp32.value false (o.f 20 4)) (o.f 24 4) (BitVec.ofNat 64 (o.f 32 8))
          (BitVec.ofNat 64 (o.f 40 8)) l → 2 ≤ l.length →
        (x.drawn = true → eSides o .write [out, (o.org.block.toNat + 40, 8, 8)] b = (none, ds, c) →
          eWrite (chosen ds x.word) (o.org.block.toNat + 40) (leBytes (o.f 40 8 + 1) 8) c = (true, u) →
          Goes .sampleComplete s (setEop id (chosen ds x.word) u)) ∧
        (x.drawn = false → eSides o .write [out] b = (none, ds, c) →
          Goes .sampleComplete s (setEop id (chosen ds x.word) c)))) ∧
    (o.phase ≠ 0 → s.retireWaits o = false → eWrite o (o.f 56 8) o.data s = (true, u) →
      Goes .sampleComplete s (eRetire id o u))

/-- R306 to R310: GRAM loads a sound descriptor into its slot and drops its cached lines; INIT binds a context at START; STEP by
an allowed token goes to the entry's state, its stack pushed, popped or kept; STEPR steps by the sample's token, and makes no step
when the sample is EMPTY. The new context takes effect with the mask and the status word that are asked for; a step makes a guarded task irrevocable first. -/
def Obligations.WinnowStepsItsContexts : Prop :=
  ∀ (id g r m : Nat) (o : EOp) (bs : List Byte) (c' : WCtx) (ds : List (Nat × Nat × Nat × Bool)) (ns irr : Bool) (a b v : State)
    (s : State),
    let slot := o.f 2 1
    let c := s.wctxOf (o.f 1 1)
    (WinnowHead s id o 0 → eRead o (o.f 8 8) 64 64 s = .val bs a → gramSound (leNat bs) →
      a.retireWaits o = false → ∃ u, Goes .gram s (eRetire id o u) ∧ u.gram slot = some (leNat bs % 2 ^ 512) ∧
        (∀ k, k ≠ slot → u.gram k = a.gram k) ∧ (∀ x ∈ u.mcache, x.1 ≠ slot ∧ x ∈ a.mcache) ∧ u.wctx = a.wctx ∧ u.mem = a.mem) ∧
    (WinnowHead s id o 1 → s.gram slot = some g →
      Goes .initW s (wEffect id o slot g { slot := some slot, state := gramField g 12 2 } false false s)) ∧
    (WinnowHead s id o 2 → s.gram (c.slot.getD 0) = some g → StepsBy s o g (o.f 4 4) c c' a →
      Goes .stepW s (wEffect id o (c.slot.getD 0) g c' false true a)) ∧
    (WinnowHead s id o 3 → s.gram (c.slot.getD 0) = some g → pRead o (o.f 8 8) 8 8 s = .val r b → b.wctx = s.wctx → b.grams = s.grams →
      (r.testBit 34 = false → StepsBy b o g (r % 2 ^ 32) c c' a →
        Goes .steprW s (wEffect id o (c.slot.getD 0) g c' false true a)) ∧
      (r.testBit 34 = true → Goes .steprW s (wEffect id o (c.slot.getD 0) g c true true b))) ∧
    (maskOf o slot g c'.state c'.top s = .val m a →
      v.putWaits o.org.task (ds.flatMap fun d => linesOf d.2.1 d.2.2.1) = false → v.retireWaits { o with dsts := ds } = false →
      let wr := (o.f 3 1).testBit 0
      let lines := (gramField g 0 4 + 511) / 512
      eSides o .write ((if wr then [(o.f 16 8, 64 * lines, 64)] else []) ++ if o.f 24 8 = 0 then [] else [(o.f 24 8, 8, 8)]) a
        = (none, ds, v) →
      let p := { o with dsts := ds }
      let v := if irr then becomeIrrevocable o.org.task 4 v else v
      let u := { v with wctx := mset {} v.wctx (o.f 1 1) c' }
      let u := if wr then (eWrite p (o.f 16 8) (leBytes m (64 * lines)) u).2 else u
      let u := if o.f 24 8 = 0 then u else
        (eWrite p (o.f 24 8) (leBytes (winnowStatus c' m (gramField g 0 4) ns) 8) u).2
      wEffect id o slot g c' ns irr s = eRetire id p u)

/-- R275, R287 to R289: a REDUCE alone at its engine runs to its end: its block is read, each of its n elements is reduced and written,
from the first on, its flag is written if it has one, and it retires. -/
def Sys2Proof.Claim.ReduceRunsToItsEnd : Prop :=
  ∀ (tk : BitVec 4) (a : BitVec 5) (t : BitVec 1) (c : BitVec 6) (e : QEnt) (bs : List Byte)
    (rs ds : List (Nat × Nat × Nat × Bool)) (b d f w : State) (st : Nat → State) (s : State), Issues s e tk → Signals s t c →
    let id := s.nextEop
    let q := clusterOf s.sel.slot
    let size := fun (f : Nat) => if f = 0 ∨ f = 3 then 4 else 2
    s.eop? id = none → mget [] s.redQ q = [] →
    Starts s (.reduce tk a t c) e (origin s e tk t c) .reduce fun u o =>
      let r := { o with blk := bs }
      let n := r.f 24 4
      let p := { r with read := true, dsts := rs ++ ds }
      let i := p.f 29 1
      let z := p.f 30 1
      let places := fun (j : Nat) => p.buffers.map fun b => (p.dst (b + j * size i) (size i)).map fun pa => (pa, 1, 0)
      eRead o o.org.block.toNat 64 64 u = .val bs b →
      n ≤ 2 ^ 24 → 1 ≤ r.f 28 1 → r.f 28 1 ≤ 16 → i ≤ 3 → z ≤ 3 → (i = 3 ↔ z = 3) → r.f 31 1 % 2 = 0 →
      eSides r .read (if n = 0 then [] else r.buffers.map fun b => (b, n * size i, size i)) b = (none, rs, d) →
      eSides r .write ((if n = 0 then [] else [(r.f 0 8, n * size z, size z)]) ++ if r.f 32 8 = 0 then [] else [(r.f 32 8, 8, 8)]) d
        = (none, ds, f) →
      st 0 = setEop id p f →
      (∀ j, j < n → ∃ v, (st j).canAccess 16 (((places j).flatten.map fun r => lineOf r.1).eraseDups) = true ∧
        ePoison (places j).flatten (st j) = (none, st j) ∧
        eWrite { p with phase := j } (p.f 0 8 + j * size z)
          (leBytes (reduced i z ((places j).map fun r => leNat ((st j).eBytes p r))) (size z)) (st j) = (true, v) ∧
        st (j + 1) = setEop id { p with phase := j + 1 } v) →
      (∀ j, j ≤ n → (st j).walkStop = none) → (st n).retireWaits { p with phase := n } = false →
      (if p.f 32 8 = 0 then w = st n else eWrite { p with phase := n } (p.f 32 8) (leBytes (p.f 40 8) 8) (st n) = (true, w)) →
      (eRetire id { p with phase := n } w).walkStop = none →
        After (n + 2) (.reduceComplete q false) u (eRetire id { p with phase := n } w)

/-- R275 to R278: a PIMLD for one NBU, alone at its channel, runs to its end: its words stand in the code store from its offset on, and
it retires; a PIMRUN without activations for one NBU starts its threads there at its entry. Each has read its block once. -/
def Sys2Proof.Claim.LoadsAndRunsReachTheirUnit : Prop :=
  ∀ (tk : BitVec 4) (a : BitVec 5) (t : BitVec 1) (c : BitVec 6) (e : QEnt) (ch m : Nat) (bs ws : List Byte)
    (ds : List (Nat × Nat × Nat × Bool)) (b d : State) (s : State), Issues s e tk → Signals s t c →
    let id := s.nextEop
    let g := origin s e tk t c
    s.eop? id = none → (s.chan ch).waiting = [] → (s.chan ch).cmds = [] → nbuChan s.z128 m = ch → ch < 32 → s.walkStop = none →
    b.walkStop = none → d.walkStop = none → (∀ x, x < 16 → (s.thread m x).run = false) →
    (s.onTheWay .pimld ch = [] → s.slotOf g = some s.sel.slot →
      (t = 1 → g.cfg.toNat / 2 ^ 61 = 1) → Starts s (.pimld tk a t c) e g .pimld fun u o =>
      let r := { o with blk := bs }
      let off := r.f 13 3 % 2 ^ 11
      let n := r.f 13 3 / 2 ^ 11 % 2 ^ 12
      eRead o o.org.block.toNat 16 16 u = .val bs b → off + n ≤ 2048 → n ≠ 0 →
      eRead r (r.f 0 8) (4 * n) 4 b = .val ws d → b.selected (r.f 8 4) (r.f 12 1) = [m] →
      ∃ v w, After 3 (.pimldApply ch) u v ∧ exec (.pload ch) v = .next w ∧
        (∀ i, mget 0 (w.nbu m).code i
          = if off ≤ i ∧ i < off + n then BitVec.ofNat 32 (leNat ((ws.drop (4 * (i - off))).take 4)) else mget 0 (s.nbu m).code i) ∧
        w.eop? id = none ∧ (∀ j, j ≠ m → w.nbu j = s.nbu j) ∧ ∀ x, byteAt w.mem x = byteAt s.mem x) ∧
    (s.onTheWay .pimrun ch = [] → Starts s (.pimrun tk a t c) e g .pimrun fun u o =>
      let r := { o with blk := bs }
      eRead o o.org.block.toNat 64 64 u = .val bs b → r.f 44 1 % 2 = 0 → r.f 8 8 = 0 → r.f 42 2 ≤ 1024 → r.f 42 2 % 32 = 0 →
      r.f 38 2 ≠ 0 → b.selected (r.f 32 4) (r.f 36 1) = [m] →
      eSides r .write ([r.f 56 8, r.f 16 8].filterMap fun x => if x = 0 then none else some (x, 8, 8)) b = (none, ds, d) →
      (s.reg (0x100000 + 0x100 * ch)).toNat.testBit (24 + nbuLocal s.z128 m) = true →
      ∃ v w x, After 3 (.pimRunStart ch) u v ∧ exec (.pactb ch) v = .next w ∧ exec (.pstart ch) w = .next x ∧
        (∀ j, j < 16 → (bit (r.f 38 2) j = true →
            startedThread m j (r.f 40 2 % 2048) (BitVec.ofNat 64 (r.f 0 8)) id (x.thread m j).act (x.thread m j) ∧
              ∀ i, byteAt (x.thread m j).act i = 0) ∧
          (bit (r.f 38 2) j = false → x.thread m j = s.thread m j)) ∧
        (∀ j, j ≠ m → x.nbu j = s.nbu j) ∧ ∀ y, byteAt x.mem y = byteAt s.mem y)

/-- R275, R290, R300, R303, R304, R306 to R309: an ATTN whose blocks are present, a SAMPLE and the winnow operations, each first at its
engine, run to their end: the block is read once, what R300, R303 and R309 make of it is written or takes effect, and the operation
retires. -/
def Sys2Proof.Claim.EngineWordsRunToTheirEnd : Prop :=
  ∀ (tk : BitVec 4) (a : BitVec 5) (t : BitVec 1) (c : BitVec 6) (e : QEnt) (bs ls : List Byte) (m y : Nat) (x : Trip) (k : WCtx)
    (ds : List (Nat × Nat × Nat × Bool)) (b d f h i w : State) (s : State), Issues s e tk → Signals s t c →
    let id := s.nextEop
    let g := origin s e tk t c
    s.eop? id = none →
    Starts s (.attn tk a t c) e g .attn (fun u o =>
      let r := { o with blk := bs }
      let p := { r with read := true }
      let q := { p with dsts := ds }
      eRead o o.org.block.toNat 64 64 u = .val bs b → r.f 24 4 ≤ r.f 28 4 → r.f 36 2 % 32 = 0 → 32 ≤ r.f 36 2 → r.f 36 2 ≤ 256 →
      r.f 38 1 % 4 ≠ 3 → r.f 38 1 / 4 % 4 ≠ 3 → aPathBad r b = .val false d → aResult p (setEop id p d) = .val x f →
      eSides p .write [(p.f 56 8, 8 + 4 * p.f 36 2, 8)] f = (none, ds, h) → h.retireWaits q = false →
      eWrite q (p.f 56 8) (aBytes q x) h = (true, w) →
        Way [(.attnComplete id false, setEop id p d), (.attnComplete id false, eRetire id q w)] u) ∧
    (s.sampQ = [] → Starts s (.sample tk a t c) e g .sample fun u o =>
      let r := { o with blk := bs }
      let p := { r with read := true }
      let v := r.f 8 4
      let n := if r.f 12 1 = 0 then 4 else 2
      let l := ((List.range v).filter m.testBit).map fun t => (t, logit (r.f 12 1) n ls t)
      let x := chooseToken (fp32.value false (r.f 16 4)) (fp32.value false (r.f 20 4)) (r.f 24 4) (BitVec.ofNat 64 (r.f 32 8))
        (BitVec.ofNat 64 (r.f 40 8)) l
      let ctr := o.org.block.toNat + 40
      let q := { p with dsts := ds, data := leBytes x.word 8, phase := 1 }
      eRead o o.org.block.toNat 64 64 u = .val bs b → 1 ≤ v → v ≤ 262144 → r.f 12 1 ≤ 2 → r.f 13 1 ≤ 2 → r.f 14 1 ≤ 63 →
      (r.f 13 1 = 2 → (b.wctxOf (r.f 14 1)).slot ≠ none) → r.f 24 4 ≤ 262144 → sampleMask p (setEop id p b) = .val m d →
      eRead p (p.f 0 8) (n * v) n d = .val ls f →
      eSides p .write ((p.f 56 8, 8, 8) :: if x.drawn then [(ctr, 8, 8)] else []) f = (none, ds, h) →
      (if x.drawn then eWrite q ctr (leBytes (p.f 40 8 + 1) 8) h = (true, i) else i = h) →
      (setEop id q i).retireWaits q = false → eWrite q (q.f 56 8) q.data (setEop id q i) = (true, w) →
        Way [(.sampleComplete, setEop id p b), (.sampleComplete, setEop id q i), (.sampleComplete, eRetire id q w)] u) ∧
    (s.winQ = [] → Starts s (.wnstep tk a t c) e g .wnstep fun u o =>
      let p := { o with blk := bs, read := true }
      let z := setEop id p b
      eRead o o.org.block.toNat 32 32 u = .val bs b → p.f 1 1 ≤ 63 →
      (p.f 0 1 = 0 → p.f 2 1 ≤ 15 → eRead p (p.f 8 8) 64 64 z = .val ls d → gramSound (leNat ls) → d.retireWaits p = false →
        ∃ v, Way [(.gram, z), (.gram, eRetire id p v)] u ∧ v.gram (p.f 2 1) = some (leNat ls % 2 ^ 512)) ∧
      (p.f 0 1 = 1 → p.f 2 1 ≤ 15 → b.gram (p.f 2 1) = some y → Way [(.initW, z), (.initW,
        wEffect id p (p.f 2 1) y { slot := some (p.f 2 1), state := gramField y 12 2 } false false z)] u) ∧
      (p.f 0 1 = 2 → (b.wctxOf (p.f 1 1)).slot ≠ none → b.gram ((b.wctxOf (p.f 1 1)).slot.getD 0) = some y →
        StepsBy z p y (p.f 4 4) (b.wctxOf (p.f 1 1)) k d →
        Way [(.stepW, z), (.stepW, wEffect id p ((b.wctxOf (p.f 1 1)).slot.getD 0) y k false true d)] u))

end
namespace Sys2Proof.Claim

open Sys2Proof.Machine

/-! ### The task graph unit (R311 to R335, R415, R473 to R488) -/

/-- A request of the host reaches the chip: clocks run, the link is up, the firmware is ready, the package is in S0. -/
def HostReaches (s : State) : Prop :=
  s.pkg.stopped = false ∧ s.pkg.linkUp = true ∧ s.pkg.boot = 3 ∧ s.pkg.power = 0
/-- The next entry of the fault queue, which has room, is record e, whose action is on tgt. -/
def NextRecord (s t : State) (e : FRec) (tgt : FTarget) : Prop :=
  mget ({}, .none) t.fq.recs s.fq.tail.toNat = (e, tgt) ∧ t.fq.tail = s.fq.tail + 1
/-- A replay of graph g has begun (R320, R321, R327): the next number, the bank of a publish request or the current one, and
the token pool filled. -/
def ReplayBegun (s t : State) (g : Nat) (gr : Graph) : Prop :=
  let cur := if gr.pubreq then !gr.cur else gr.cur
  t.graph? g = some { gr with cur := cur, pubreq := false, count := gr.count + 1, pool := gr.poolInit } ∧
    (∃ r, t.replay? g gr.count = some r ∧ r.bank = cur) ∧ t.slots = s.slots ∧ t.mem = s.mem
/-- The register file of a task's member as it starts (R30). -/
def StartsAt (s t : State) (x member : Nat) (k : Nat) : Prop :=
  let i := s.inst x
  let ty := s.typeEnt i.type
  let v := t.slot k
  v.task = some x ∧ v.st = 1 ∧ v.member = member ∧ v.asq.pc = BitVec.ofNat 64 (tCode ty) ∧ v.esq.pc = v.asq.pc ∧
    v.asq.ended = false ∧ v.esq.ended = false ∧ v.a = v.x ∧ v.ra 1 = BitVec.ofNat 64 i.x ∧ v.ra 2 = BitVec.ofNat 64 i.y ∧
    v.ra 3 = BitVec.ofNat 64 i.z ∧ v.ra 6 = BitVec.ofNat 64 member ∧ v.ra 7 = BitVec.ofNat 64 (tMembers ty) ∧
    ∀ r, 8 ≤ r.toNat → v.ra r = 0

end Sys2Proof.Claim

section

open Sys2Proof Sys2Proof.Machine Sys2Proof.Claim

/-- R315, R319, R320, R335: a launch record for a loaded graph joins the queue; the graph's first launch becomes active, and its
replays begin one after another while STOP is clear, each in a clk in which nothing that comes later has been done (R324); a replay whose tasks have retired settles; a counter signal counts down,
at 1 makes its target ready and reloads, and at 0 is reported. -/
def Obligations.LaunchesReplaysAndCounters : Prop :=
  ∀ (rec : BitVec 512) (g n idx : Nat) (gr : Graph) (l : Launch) (r : Replay) (o : Origin) (rest : List (Origin × Nat × Nat × Nat))
    (u : State) (s : State), s.graph? g = some gr → gr.aborted = false →
    let byte := fun (i n : Nat) => rec.toNat / 256 ^ i % 256 ^ n
    (HostReaches s → byte 0 1 % 64 = g → s.tgu.launches.length < 64 → s.tgu.port = [] →
      ∃ t, exec (.launchWrite rec) s = .next t ∧ t.tgu.launches = s.tgu.launches ++
          [{ graph := g, publish := (byte 1 1).testBit 0, irq := (byte 1 1).testBit 1, nrep := byte 4 4, stop := byte 8 8,
             done := byte 16 8 }] ∧
        t.graph? g = some { gr with pubreq := gr.pubreq || (byte 1 1).testBit 0 } ∧ t.slots = s.slots ∧ t.mem = s.mem) ∧
    (s.pkg.stopped = false → s.tguMay 4 = true → s.activeLaunch g = none → s.tgu.launches.find? (·.graph == g) = some l →
      s.replay? g gr.count = none →
      ∃ t, exec (.launchActivate g) s = .next t ∧ ReplayBegun s t g gr ∧
        t.activeLaunch g = some { l with active := true, started := l.started + 1 }) ∧
    (s.pkg.stopped = false → s.tguMay 4 = true → s.walkStop = none → s.activeLaunch g = some l → l.closed = false →
      (l.nrep = 0 ∨ l.started < l.nrep) → s.lowestStarted gr g (gr.count - 1) = true →
      (l.stop = 0 → s.replay? g gr.count = none → ∃ t, exec (.replayStart g) s = .next t ∧ ReplayBegun s t g gr ∧
        t.activeLaunch g = some { l with started := l.started + 1 }) ∧
      (readStop gr l.stop s = .val true u → Goes (.replayStart g) s (endLaunch g (setLaunch g { l with closed := true } u)))) ∧
    (s.pkg.stopped = false → s.walkStop = none → s.activeLaunch g = some l → s.replay? g n = some r → s.replayDone gr g n = true → l.done = 0 →
      l.closed = false → (l.nrep = 0 ∨ l.started < l.nrep) →
      ∃ t, exec (.replaySettle g n) s = .next t ∧ t.activeLaunch g = some { l with settled := l.settled + 1 } ∧
        t.replay? g n = none ∧ t.pkg.msix = (if l.irq then 0 :: s.pkg.msix else s.pkg.msix)) ∧
    (s.tgu.sigs = (o, g, n, idx) :: rest →
      let off := 0x200000 + 16 * (gr.ctr0 + idx)
      let w := (s.reg off).toNat
      (2 ≤ w % 2 ^ 32 → ∃ t, exec .tguCounterSignal s = .next t ∧ t.tgu.sigs = rest ∧ (t.reg off).toNat = w - 1) ∧
      (w % 2 ^ 32 = 1 → s.replay? g n = some r → ∃ t, exec .tguCounterSignal s = .next t ∧ t.tgu.sigs = rest ∧
        (t.reg off).toNat = w / 2 ^ 32 * (2 ^ 32 + 1) ∧ ∃ q, t.replay? g n = some q ∧ idx ∈ q.counters) ∧
      (w % 2 ^ 32 = 0 → s.fq.full = false → ∃ t e, exec .tguCounterSignal s = .next t ∧ t.tgu.sigs = rest ∧ t.reg off = s.reg off ∧
        NextRecord s t e .none ∧ e.cause = 0x17 ∧ e.src = 12 ∧ e.info.toNat = 0x40))

/-- R29, R30, R324, R326: the one task in the pool, ready and with a place, starts on its slots with its registers as R30 says,
no other slot touched; a task of an engine class becomes one operation of its engine. -/
def Obligations.DispatchStartsATask : Prop :=
  ∀ (pick x : Nat) (ps : List Spot) (s : State), s.pkg.stopped = false → aftermath s = s → s.poolOrder = [x] → s.dispatched < 4 →
    (s.inst x).st = .pooled → s.outFree (s.inst x) = true →
    let i := s.inst x
    let ty := s.typeEnt i.type
    (tClass ty = 0 → s.place ty pick = some ps → (ps.map (·.slot)).Nodup → i.images = [] →
      ∃ t, exec (.tguDispatch pick) s = .next t ∧ (t.inst x).st = .running ∧ (t.inst x).slots = ps.map (·.slot) ∧
        (∀ j p, ps[j]? = some p → StartsAt s t x j p.slot) ∧ (∀ k, k ∉ ps.map (·.slot) → t.slot k = s.slot k) ∧
        ∀ b, byteAt t.mem b = byteAt s.mem b) ∧
    (tClass ty ≠ 0 → s.engineAccepts (tClass ty) = true → ∃ t o, exec (.tguDispatch pick) s = .next t ∧
      t.eops = s.eops ++ [(s.nextEop, o)] ∧ o.org.task = x ∧ o.org.bySlot = false ∧ o.read = false ∧
      (t.inst x).st = .engine ∧ (t.inst x).op = some s.nextEop ∧ t.slots = s.slots)

/-- R32, R407, R473, R475, R487: a running task whose member is done retires, and its slot is Free; the checkpoint of a halted
slot stores its image in free chunks and frees the slot, and the task waits in the pool, or for an action after a fault; a
restored task runs again and its chunks are free. -/
def Obligations.TasksRetireAndAreSavedAndRestored : Prop :=
  ∀ (k x : Nat) (xs : List (List Byte × List Nat)) (u : State) (s : State), s.pkg.stopped = false → (∀ ls, s.hostHolds ls = false) →
    let i := s.inst x
    ((s.slot k).task = some x → i.st = .running → i.slots = [k] → s.memberDone x k = true → s.tguMay 0 = true → i.guarded = false → i.held = [] →
      i.nextCut = none → tTlen (s.typeEnt i.type) = 0 → (s.slot k).drainFor = none → s.tgu.replays = [] →
      (∀ p ∈ s.tgu.insts, p.2.st ≠ .parked) →
      ∃ t, exec (.taskRetire k) s = .next t ∧ (t.inst x).st = .retired ∧ t.slot k = {} ∧ (∀ j, j ≠ k → t.slot j = s.slot j) ∧
        ∀ b, byteAt t.mem b = byteAt s.mem b) ∧
    ((s.slot k).task = some x → (s.slot k).st = 5 → i.st ≠ .restoring → i.slots = [k] → (s.slot k).member = 0 → i.images = [] →
      s.saveReady k = true → chunksFor (s.rawLen k (s.cuts k).length) ≤ s.freeChunks.length → 0 < s.freeChunks.length →
      ∃ t, exec (.checkpoint k) s = .next t ∧ t.slot k = {} ∧ (t.inst x).st = (if i.faulted then .stopped else .pooled) ∧
        (t.inst x).slots = [] ∧ (t.inst x).images = [s.chunkAt (s.freeChunks.headD 0)] ∧
        (x, s.freeChunks.headD 0) ∈ t.tgu.used ∧ (∀ j, j ≠ k → t.slot j = s.slot j)) ∧
    (i.st = .restoring → (∀ j ∈ i.slots, s.coreRuns (coreOf j) = true) → s.canAccess 16 (s.imageLines x) = true →
      readAll i.images s = (.inr xs, u) →
      ∃ t, exec (.taskRestore x 0) s = .next t ∧ (t.inst x).st = .running ∧ (t.inst x).faulted = false ∧
        (t.inst x).images = [] ∧ ∀ p ∈ t.tgu.used, p.1 ≠ x)

/-- R485, R486: the body of an image comes back from its coded stream whole: literal runs, runs of zeros and runs of equal
granules. -/
def Obligations.ImageBodiesSurviveTheirCoding : Prop :=
  ∀ l : List Nat, l.length < 2 ^ 40 → decodeBody ((codeBody l).length + 1) (codeBody l) = some l

/-- R24, R368, R416: a woken core runs; a slot without progress for a watchdog period is reported once and goes on; LOAD of a
sound descriptor binds its graph with FREE of each edge at SLOTS, of an unsound one reports a finding; UNLOAD and PUBLISH end
with RESULT 0, or 0x20 for an unbound id. -/
def Obligations.WakingWatchdogAndGraphCommands : Prop :=
  ∀ (c k g : Nat) (w : Word) (gr : Graph) (s : State), s.pkg.stopped = false →
    let result := fun (t : State) (r : Nat) => t.tgu.gcmd = none ∧ t.tgu.gcmdst = BitVec.ofNat 64 (g * 256 + r)
    ((s.core c).waking = true → c < 16 → ∃ t, exec (.coreWakeComplete c) s = .next t ∧ (t.core c).waking = false ∧
      t.pkg.gated.getLsbD c = false ∧ (∀ j, j ≠ c → t.core j = s.core j) ∧ t.slots = s.slots) ∧
    (let p := (s.reg 0x130000).toNat / 2 ^ 20 % 16
     p ≠ 0 → (s.slot k).task.isSome = true → (s.slot k).reported = false →
      (s.slot k).lastAct + 2 ^ (p + 12) ≤ s.clk → s.fq.full = false →
      ∃ t e, exec (.watchdogExpire k) s = .next t ∧ NextRecord s t e .none ∧ e.cause = 0x48 ∧ e.place = k % 64 + 0x8000 ∧
        t.slot k = { s.slot k with reported := true } ∧ (∀ j, j ≠ k → t.slot j = s.slot j)) ∧
    (s.tgu.gcmd = some w → w.toNat % 64 = g →
      (w.toNat / 2 ^ 56 = 1 → (s.graph? g = none ∨ ∃ q, s.graph? g = some q ∧ q.aborted = true) →
        (s.loadFaults s.staged = [] → ∃ t, exec .loadG s = .next t ∧ result t 0 ∧ t.graph? g = some s.staged ∧
          (∀ j, j ≠ g → t.graph? j = s.graph? j) ∧
          ∀ p ∈ s.edgesOf s.staged, mget 0 t.tgu.edgeFree (s.staged.edge0 + p.1) = eSlots p.2) ∧
        (s.loadFaults s.staged ≠ [] → s.fq.full = false → ∃ t e, exec .loadG s = .next t ∧ NextRecord s t e .none ∧
          e.cause = 0x17 ∧ (∃ f ∈ s.loadFaults s.staged, result t f.1 ∧ e.info = BitVec.ofNat 64 (f.1 + f.2 % 65536 * 256)) ∧
          t.graph? g = s.graph? g)) ∧
      (w.toNat / 2 ^ 56 = 2 → s.graph? g = some gr → (∀ l ∈ s.tgu.launches, l.graph ≠ g) →
        ∃ t, exec .unloadG s = .next t ∧ result t 0 ∧ t.graph? g = none ∧ ∀ j, j ≠ g → t.graph? j = s.graph? j) ∧
      (w.toNat / 2 ^ 56 = 2 → s.graph? g = none → ∃ t, exec .unloadG s = .next t ∧ result t 0x20) ∧
      (w.toNat / 2 ^ 56 = 3 → s.graph? g = some gr → s.tguMay 3 = true → ∃ t, exec .publishG s = .next t ∧ result t 0 ∧
        t.graph? g = some { gr with pubreq := true }) ∧
      (w.toNat / 2 ^ 56 = 3 → s.graph? g = none → ∃ t, exec .publishG s = .next t ∧ result t 0x20))

end
section

open Sys2Proof Sys2Proof.Machine Sys2Proof.Claim

/-- R100, R105, R442: a walk, of whose entries the host holds none modified, gives every slot that waits for the page its leaf, or its
failure, and an invalid space entry fails with 0x55; a tier may drop a translation. R352, R369: a write of TINVCMD removes from every tier what its mode covers and ends the waits on words that found theirs through it, a write
while BUSY nothing, and an invalidation completes once the accesses it waits for are performed. -/
def Obligations.WalksFillTheTiersAndInvalidationsEmptyThem : Prop :=
  ∀ (space va tier i : Nat) (leaf : TlbEnt) (c q : Nat) (v : Word) (z : BitVec 2 × Nat × Nat) (s : State), s.pkg.stopped = false →
    let wait := fun (k : Nat) => k < 64 ∧ (s.slot k).waits space (va / 4096) = true
    let mine := fun (m : Miss) => m.space == space && m.page == va / 4096
    let fail := fun (m : Miss) => if mine m ∧ m.failed = none then { m with failed := some (c, q) } else m
    (bit (s.reg (0x010000 + 8 * space)).toNat 0 = false → s.walk space va = .bad 0x20 0x55) ∧
    ((∃ k, wait k) → s.canAccess 16 (s.walkLines space va) = true → s.walk space va = .leaf leaf → ∃ t, exec (.pageWalk space va) s = .next t ∧
      t = { s with tlbs := t.tlbs, slots := t.slots } ∧
      (∀ k, wait k → (mget [] t.tlbs (tierSlot k)).head? = some leaf ∧
        t.slot k = { s.slot k with misses := (s.slot k).misses.filter fun m => !mine m }) ∧
      ∀ k, ¬ wait k → t.slot k = s.slot k) ∧
    ((∃ k, wait k) → s.canAccess 16 (s.walkLines space va) = true → s.walk space va = .bad c q → ∃ t, exec (.pageWalk space va) s = .next t ∧ t = { s with slots := t.slots } ∧
      (∀ k, wait k → t.slot k = { s.slot k with misses := (s.slot k).misses.map fail }) ∧
      ∀ k, ¬ wait k → t.slot k = s.slot k) ∧
    (∃ t, exec (.tlbEvict tier i) s = .next t ∧ t = { s with tlbs := t.tlbs } ∧
      mget [] t.tlbs tier = (mget [] s.tlbs tier).eraseIdx i ∧ ∀ j, j ≠ tier → mget [] t.tlbs j = mget [] s.tlbs j) ∧
    (HostReaches s → s.tinvCmd = none → v.toNat / 2 ^ 16 % 4 ≠ 3 →
      let m := v.toNat / 2 ^ 16 % 4
      let a := (s.reg 0x020020).toNat
      let sp := v.toNat % 4096
      ∃ t, exec (.tinvcmdWrite v) s = .next t ∧ t.tinvCmd = some (BitVec.ofNat 2 m, a, sp) ∧ t.mem = s.mem ∧
        (∀ k, k < 64 → t.slot k = if (s.slot k).st = 1 ∨ (s.slot k).st = 2 ∨ (s.slot k).st = 3
          then ((s.slot k).rewait .asq).rewait .esq else s.slot k) ∧
        t.tinv = s.tinv ∧ ∀ tier ∈ t.tlbs, ∀ e ∈ tier.2, (m = 0 → e.covers sp a = false) ∧ (m = 1 → e.space ≠ sp) ∧ m ≠ 2) ∧
    (HostReaches s → s.tinvCmd.isSome → exec (.tinvcmdWrite v) s = .next s) ∧
    (s.tinvCmd = some z → s.tinvDone z = true → ∃ t, exec .tinvComplete s = .next t ∧ t.tinvCmd = none ∧ t.slots = s.slots) ∧
    (s.tinv = some z → s.tinvDone z = true → ∃ t, exec .tinvComplete s = .next t ∧ t.tinv = none ∧ t.slots = s.slots)

/-- R355, R358 to R360: a host read within a line answers with the bytes of memory, and a copy asked for is granted; beyond
the capacity it answers poison, with a record. A host write stores its bytes and no other. A snoop of a line of host memory
gathers its tokens and answers with its bytes. A back-invalidation answered ends the host's copy, or leaves it one
that it has not modified; the data of a modified one are written. -/
def Obligations.HostReadsAndWritesMemory : Prop :=
  ∀ (off n line : Nat) (cached : Option Bool) (m : Bool) (data : List Byte) (s : State), HostReaches s → s.pkg.fenced = false →
    s.pkg.cxlOld = false → s.flips = [] →
    s.poison = [] →
    let pa := pmdBase + off
    let stored := fun (t : State) (p : Nat) =>
      ∀ a, byteAt t.mem a = if p ≤ a ∧ a < p + data.length then data.getD (a - p) 0 else byteAt s.mem a
    (0 < n → off % 64 + n ≤ 64 → off + n ≤ s.cap → s.pkg.hostFilter.length < 131072 →
      ∃ t, exec (.hostMemRead false off n cached) s = .next t ∧ t.pkg.reads = (off, s.physRead pa n, false) :: s.pkg.reads ∧
        t.mem = s.mem ∧ t.slots = s.slots ∧ t.cores = s.cores ∧
        (cached = some m → s.lostReg.contains (regionOf (pa / 64)) = false → (t.lineCo (pa / 64)).host = true ∧
          (t.lineCo (pa / 64)).hostMod = m ∧ pa / 64 ∈ t.pkg.hostFilter)) ∧
    (0 < n → off % 64 + n ≤ 64 → s.cap ≤ off → off < 2 ^ 56 → s.fq.full = false →
      ∃ t e, exec (.hostMemRead false off n cached) s = .next t ∧ t.pkg.reads = (off, [], true) :: s.pkg.reads ∧
        NextRecord s t e .none ∧ e.cause = 0x30 ∧ e.src = 14 ∧ e.val = BitVec.ofNat 64 pa ∧ t.mem = s.mem ∧ t.slots = s.slots) ∧
    (data ≠ [] → off % 64 + data.length ≤ 64 → off + data.length ≤ s.cap → s.runHolds (linesOf pa data.length) = false →
      ∃ t, exec (.hostMemWrite false off data) s = .next t ∧ stored t pa ∧ t = { s with mem := t.mem, lines := t.lines } ∧
        (t.lineCo (pa / 64)).tok = []) ∧
    (s.pclass (64 * line) = .host → ∃ t, exec (.hostSnoop line) s = .next t ∧ t.mem = s.mem ∧ t.slots = s.slots ∧
      t.pkg.reads = (64 * line, s.physRead (64 * line) 64, false) :: s.pkg.reads ∧
      (t.lineCo line).tok = [] ∧ (t.lineCo line).owner = none) ∧
    ((s.lineCo line).bisnp = true →
      (∃ t, exec (.bisnpResponse line none) s = .next t ∧ (t.lineCo line).host = false ∧ (t.lineCo line).bisnp = false ∧
        line ∉ t.pkg.hostFilter ∧ t.mem = s.mem ∧ t.slots = s.slots) ∧
      ((s.lineCo line).hostMod = true → data.length = 64 → pmdBase ≤ 64 * line → 64 * line + 64 ≤ pmdBase + s.cap →
        ∃ t, exec (.bisnpResponse line (some data)) s = .next t ∧ (t.lineCo line).host = false ∧ (t.lineCo line).bisnp = false ∧
          line ∉ t.pkg.hostFilter ∧ stored t (64 * line) ∧ t.slots = s.slots)) ∧
    ((s.lineCo line).bisnp = false → (s.lineCo line).bisnpD = true → (s.lineCo line).hostMod = true → data.length = 64 →
      pmdBase ≤ 64 * line → 64 * line + 64 ≤ pmdBase + s.cap →
      ∃ t, exec (.bisnpResponse line (some data)) s = .next t ∧ (t.lineCo line).host = (s.lineCo line).host ∧
        (t.lineCo line).hostMod = false ∧ (t.lineCo line).bisnpD = false ∧ t.pkg = s.pkg ∧ stored t (64 * line) ∧
        t.slots = s.slots)

/-- R361 to R364, R498: a core that has missed for 512 clk, or has retried in vain, registers its request behind those there; an offered copy is taken with one token
within the quota of its window by a core that is neither gated nor dead, and else counted as refused; a hint of one bit may be
dropped, but not while drops are held, for 150000 clk. -/
def Obligations.SharersQuotasAndStorms : Prop :=
  ∀ (line c i slice st : Nat) (o : Offer) (s : State), s.pkg.stopped = false →
    let l := s.lineCo line
    let v := s.core o.core
    let d := (s.reg (0x080000 + 0x1000 * o.core)).toNat
    let win := s.clk / (d / 2 ^ 12 % 4096)
    let got := if v.dlvWin = win then v.dlvAccepted else 0
    let takes := got < d % 256 ∧ s.pkg.gated.getLsbD o.core = false ∧ s.pkg.deadCores.getLsbD o.core = false ∧
      s.lostReg.contains (regionOf o.line) = false ∧ (s.lineCo o.line).away ≤ 16 ∧ s.transientWays o.core o.line < 8
    let room := ((s.dir.map (·.1)).filter fun r => dirSlice r == dirSlice (regionOf o.line)).length < 8192 ∧
      ((s.filt.map (·.1)).filter fun r => r % 4 == filtKey o.line (o.core / 4) % 4).length < 16384
    (c < 16 → s.missing c line = true → (s.missLong c line = true ∨ c ∈ l.retried) → s.pkg.deadCores.getLsbD c = false → (∀ r ∈ l.preq, r.1 ≠ c) →
      ∃ t, exec (.persistentRequest line c) s = .next t ∧ (∃ before, (t.lineCo line).preq = before ++ [(c, s.clk)] ∧
        before = l.preq.filter fun r => s.missing r.1 line) ∧ (∀ j, j ≠ line → t.lineCo j = s.lineCo j) ∧
        t = { s with lines := t.lines }) ∧
    (s.offers[i]? = some o → o.core < 16 →
      (∀ p ∈ s.offers, p.core = o.core → p.clk = o.clk → o.issuer ≤ p.issuer ∧ (p.issuer = o.issuer → o.line ≤ p.line)) →
      (takes → room → ∃ t, exec (.deliveredCopyOffer i) s = .next t ∧ t.offers = s.offers.eraseIdx i ∧
        t.core o.core = { v with dlvAccepted := got + 1, dlvWin := win } ∧ 0 < (t.lineCo o.line).held o.core ∧
        (mget 0 t.dir (regionOf o.line)).getLsbD (o.core / 4) = true ∧
        (mget 0 t.filt (filtKey o.line (o.core / 4))).getLsbD (o.core % 4) = true ∧ t.mem = s.mem ∧ t.slots = s.slots) ∧
      (¬ takes → ∃ t, exec (.deliveredCopyOffer i) s = .next t ∧ t.offers = s.offers.eraseIdx i ∧
        t.core o.core = { v with dlvRefused := v.dlvRefused + 1 } ∧ t.lines = s.lines ∧ t.mem = s.mem ∧ t.slots = s.slots)) ∧
    (o.core < 16 → v.dlvWin ≠ win → ∃ t, exec (.dlvqWindowStart o.core) s = .next t ∧ t = { s with cores := t.cores } ∧
      t.core o.core = { v with dlvAccepted := 0, dlvWin := win } ∧ ∀ j, j ≠ o.core → t.core j = s.core j) ∧
    (s.pkg.stormAt = none →
      (slice < 32 → ∃ t, exec (.discoveryStormHold slice) s = .next t ∧ t.pkg = { s.pkg with stormAt := some s.clk } ∧
        t = { s with pkg := t.pkg }) ∧
      (mget 0 s.dir (regionOf line) = 1#4 <<< c → c < 4 → s.lostReg.contains (regionOf line) = false →
        ∃ t, exec (.directorySilentDrop none (regionOf line)) s = .next t ∧ mget 0 t.dir (regionOf line) = 0 ∧
          t = { s with dir := t.dir } ∧ ∀ j, j ≠ regionOf line → mget 0 t.dir j = mget 0 s.dir j) ∧
      (mget 0 s.filt (filtKey line c) = 1#4 <<< i → i < 4 → c < 4 →
        ∃ t, exec (.directorySilentDrop (some c) line) s = .next t ∧ mget 0 t.filt (filtKey line c) = 0 ∧
          t = { s with filt := t.filt } ∧ ∀ j, j ≠ filtKey line c → mget 0 t.filt j = mget 0 s.filt j)) ∧
    (s.pkg.stormAt = some st →
      (st + 150000 ≤ s.clk → exec .discoveryStormEnd s = .next { s with pkg := { s.pkg with stormAt := none } }) ∧
      (s.clk < st + 150000 → exec .discoveryStormEnd s = .next s) ∧
      ∀ cl, exec (.directorySilentDrop cl line) s = .next s)

end
namespace Sys2Proof.Claim

open Sys2Proof.Machine

/-- Only the state of the package differs. -/
def OnlyPkg (s t : State) : Prop := t = { s with pkg := t.pkg }
/-- The mailbox runs command op, which has not been carried out. -/
def MailRuns (s : State) (op : Nat) : Prop :=
  s.pkg.stopped = false ∧ s.pkg.mbBusy = true ∧ s.pkg.mbDone = false ∧ s.pkg.mbCmd.toNat / 2 ^ 56 = op
/-- The command has been carried out with result r. -/
def MailDone (t : State) (r : BitVec 8) : Prop := t.pkg.mbDone = true ∧ t.pkg.mbResult = r
/-- The firmware of an image runs (R376): MR0 is the image's digest. -/
def FirmwareRuns (t : State) (img : List Byte) : Prop :=
  t.pkg.boot = 2 ∧ mget 0 t.pkg.mr 0 = sha256 img ∧ t.pkg.fwver = Config.imageVersion img
/-- A register of measurement extended by a digest (R376). -/
def Extended (s t : State) (n : Nat) (d : BitVec 256) : Prop :=
  mget 0 t.pkg.mr n = sha256 (leBytes (mget 0 s.pkg.mr n).toNat 32 ++ leBytes d.toNat 32) ∧
    ∀ j, j ≠ n → mget 0 t.pkg.mr j = mget 0 s.pkg.mr j
/-- The logic die stands as at power-on, host memory as it was, and the PMDs' bytes as they were or as nothing written (R499,
R500); what an L1 held dirty is lost (the model's reading, log entry 55). -/
def ResetTo (s t : State) (cause : BitVec 8) (pmd : Bool) : Prop :=
  t = { State.reset with z128 := s.z128, clk := s.clk, mem := t.mem, flips := t.flips, sched := s.sched, choice := s.choice,
                         free := s.free, pkg := { State.reset.pkg with rstcause := cause } } ∧
    (pmd = true → t.flips = s.flips) ∧
    ((∀ p ∈ s.lines, p.2.home = none) → (pmd = true → t.mem = s.mem) ∧
      ∀ a, (a < pmdBase ∨ pmdBase + s.cap ≤ a) → byteAt t.mem a = byteAt s.mem a) ∧
    ∀ n l h, s.lines = [(n, l)] → l.home = some h → h.length = 64 → pmdBase ≤ 64 * n → 64 * n + 64 ≤ pmdBase + s.cap →
      pmd = true → ∀ a, byteAt t.mem a = if 64 * n ≤ a ∧ a < 64 * n + 64 then h.getD (a - 64 * n) 0 else byteAt s.mem a
/-- A response over DOE, with vector 3, and nothing else (R356, R377). -/
def DoeAnswer (s : State) (i : Instr) (n : Nat) (bs : List Byte) : Prop :=
  exec i s = .next { s with pkg := { s.pkg with spdm := (n, bs) :: s.pkg.spdm, msix := 3 :: s.pkg.msix } }
/-- Core c is declared dead (R496, R497): its tokens are back at each home, no hint names it, it has a new epoch, and a record
with src 13 names it at place at of the fault queue. -/
def CoreDeclared (s t : State) (c : Nat) (place : BitVec 8) : Prop :=
  t.pkg.deadCores = s.pkg.deadCores ||| BitVec.twoPow 16 c ∧ (t.core c).epoch = (s.core c).epoch + 1 ∧
    (∀ l, (t.lineCo l).held c = 0 ∧ (∀ j, j ≠ c → (t.lineCo l).held j = (s.lineCo l).held j) ∧
      (mget 0 t.filt (filtKey l (c / 4))).getLsbD (c % 4) = false ∧
      ((s.lineCo l).owner = some c → (t.lineCo l).owner = none ∧ (t.lineCo l).home = none ∧ regionOf l ∈ t.lostReg) ∧
      ((s.lineCo l).owner ≠ some c → (t.lineCo l).owner = (s.lineCo l).owner)) ∧
    ∃ e, mget ({}, .none) t.fq.recs place.toNat = (e, .none) ∧ e.cause = 0x52 ∧ e.kind = 1 ∧ e.src = 13 ∧ e.place = 0 ∧
      e.info = BitVec.ofNat 64 c
/-- The host is declared dead (R496, R497): it is fenced, holds no line, and its record is the next. -/
def HostDeclared (s t : State) : Prop :=
  t.pkg.fenced = true ∧ t.pkg.hostEpoch = s.pkg.hostEpoch + 1 ∧ t.pkg.hostFilter = [] ∧ (∀ l, (t.lineCo l).host = false ∧ (t.lineCo l).bisnp = false) ∧
    (mwf ({} : LineCo) s.lines = true → ∀ l, (t.lineCo l).tok = (s.lineCo l).tok ∧ (t.lineCo l).owner = (s.lineCo l).owner) ∧
    (∃ e, NextRecord s t e .none ∧ e.cause = 0x52 ∧ e.src = 14 ∧ e.info = 0xFFFF) ∧ t.mem = s.mem ∧ t.slots = s.slots

end Sys2Proof.Claim

section

open Sys2Proof Sys2Proof.Machine Sys2Proof.Claim

/-- R371 to R375, R500: an idle package enters a state that its latency tolerance allows, every core gated and its L1 written
back; a launch, or an exit, brings it back to S0; an idle core is gated; the average power of a window moves the duty; a sag is
counted; a critical supply stops the clocks with all state kept, and their restart is recorded. -/
def Obligations.PowerStatesDutyAndSupply : Prop :=
  ∀ (c avg : Nat) (rec : BitVec 512) (s : State), s.pkg.stopped = false →
    let ctl := (s.reg 0x120000).toNat
    let d := s.pkg.duty
    let lim := ctl / 2 ^ 8 % 256
    let duty := if lim < avg then max 1 (d - 1) else if avg + 2 < lim then min 16 (d + 1) else d
    (s.idle = true → s.pkg.exiting = false → s.pkg.boot = 3 → s.pkg.power = 0 →
      ∃ t, exec .powerStateEnter s = .next t ∧ 1 ≤ t.pkg.power ∧ t.pkg.power ≤ 3 ∧ t.pkg.gated = 0xFFFF ∧
        (2 ≤ t.pkg.power → 4 ≤ ctl / 2 ^ 32 % 2 ^ 16 ∧ s.tgu.launches = []) ∧ (t.pkg.power = 3 → 40 ≤ ctl / 2 ^ 32 % 2 ^ 16 ∧ s.pkg.l12 = true) ∧
        (∀ j l, j < 16 → (t.lineCo l).held j = 0) ∧ t.mem = s.mem ∧ t.slots = s.slots) ∧
    (s.pkg.power ≠ 0 →
      exec .powerStateExit s = .next { s with pkg := { s.pkg with exiting := true } } ∧
      (s.pkg.linkUp = true → s.pkg.boot = 3 →
        exec (.launchWrite rec) s = .next { s with pkg := { s.pkg with exiting := true } })) ∧
    (s.pkg.exiting = true → exec .powerExitComplete s = .next { s with pkg := { s.pkg with power := 0, exiting := false } }) ∧
    (c < 16 → s.pkg.gated.getLsbD c = false → (s.core c).waking = false → (∀ i, i < 4 → (s.slot (4 * c + i)).task = none) →
      (s.core c).l1 = [] → (s.core c).xops = [] → (s.core c).idleSince + ctl / 2 ^ 16 % 256 * 1500 ≤ s.clk →
      ∃ t, exec (.coreGate c) s = .next t ∧ t.pkg = { s.pkg with gated := s.pkg.gated ||| BitVec.twoPow 16 c } ∧
        (∀ l, (t.lineCo l).held c = 0 ∧ ∀ j, j ≠ c → (t.lineCo l).held j = (s.lineCo l).held j) ∧
        t = { s with pkg := t.pkg, lines := t.lines }) ∧
    exec (.powerLimitWindow avg) s = .next { s with pkg := { s.pkg with duty := duty, thr := decide (duty < 16) } } ∧
    (s.pkg.sag = false → exec .supplySag s = .next { s with pkg := { s.pkg with sag := true, sagcnt := s.pkg.sagcnt + 1 } }) ∧
    exec .sagEnd s = .next { s with pkg := { s.pkg with sag := false } } ∧
    exec .supplyCritical s = .next { s with pkg := { s.pkg with stopped := true } } ∧
    (s.fq.full = false → ∃ t e, exec .clockRestart { s with pkg := { s.pkg with stopped := true } } = .next t ∧
      NextRecord s t e .none ∧ e.cause = 0x51 ∧ e.info = 1 ∧ e.place = 0 ∧ t.pkg.stopped = false ∧ t.mem = s.mem ∧
      t.slots = s.slots)

/-- R376, R499 to R501: power-on boot runs the flash image if it verifies and stays in recovery if not; the trained firmware
extends MR1 and is ready, an untrained one leaves status 5; a hot reset or a supply below retention leaves the logic die as at
power-on, with its cause. -/
def Sys2Proof.Claim.BootAndResets : Prop :=
  ∀ (flash : List Byte) (trained held : Bool) (digest : BitVec 256) (s : State),
    (s.pkg.boot = 0 → s.pkg.stopped = false → ∃ t, exec (.powerOnBoot flash) s = .next t ∧ t = { s with pkg := t.pkg, free := t.free } ∧ t.pkg.linkUp = true ∧
      t.pkg.bootst.toNat % 256 = (imageState flash).toNat ∧ (imageState flash = 0 → FirmwareRuns t flash) ∧
      (imageState flash ≠ 0 → t.pkg.boot = 1 ∧ t.pkg.mr = s.pkg.mr)) ∧
    imageState [] = 1 ∧
    (s.pkg.boot = 2 → s.pkg.stopped = false → s.pkg.bootst.toNat % 256 = 0 →
      ∃ t, exec (.firmwareReady trained digest) s = .next t ∧ OnlyPkg s t ∧
        (trained = true → t.pkg.boot = 3 ∧ Extended s t 1 digest) ∧
        (trained = false → t.pkg.boot = 2 ∧ t.pkg.mr = s.pkg.mr ∧ t.pkg.bootst.toNat % 256 = 5)) ∧
    (s.pkg.boot ≠ 0 → ∃ t, exec .hotReset s = .next t ∧ ResetTo s t 2 true) ∧
    (∃ t, exec (.supplyRetentionLoss held) s = .next t ∧ ResetTo s t 1 held)

/-- R367: each mailbox command that runs is carried out with its result, an image like that of boot, a digest into MR2 or MR3;
then BUSY clears and vector 2 is sent, with result 1 for an OP that names none. -/
def Sys2Proof.Claim.MailboxCommandsAreCarriedOut : Prop :=
  ∀ (readOk : Bool) (s : State),
    let addr := (s.reg 0x000008).toNat % 2 ^ 57
    let len := (s.reg 0x000018).toNat % 2 ^ 32
    let img := readBytes s.mem addr len
    (MailRuns s 1 → ∃ t, exec (.fwload readOk) s = .next t ∧ OnlyPkg s t ∧
      (s.pkg.boot ≠ 1 → s.tasksAbout = true → MailDone t 2 ∧ t.pkg.mr = s.pkg.mr ∧ t.pkg.boot = s.pkg.boot) ∧
      ((s.pkg.boot = 1 ∨ s.tasksAbout = false) →
        ((readOk = false ∨ 2 ^ 52 < addr + len) → MailDone t 4 ∧ t.pkg.mr = s.pkg.mr ∧ t.pkg.boot = s.pkg.boot) ∧
        (readOk = true → addr + len ≤ 2 ^ 52 → t.pkg.bootst.toNat % 256 = (imageState img).toNat ∧
          (imageState img = 0 → MailDone t 0 ∧ FirmwareRuns t img) ∧
          (imageState img ≠ 0 → MailDone t 3 ∧ t.pkg.mr = s.pkg.mr ∧ t.pkg.boot = s.pkg.boot)))) ∧
    (MailRuns s 2 → ∃ t, exec (.mrextend readOk) s = .next t ∧ OnlyPkg s t ∧
      ((readOk = false ∨ 2 ^ 52 < addr + 32) → MailDone t 4 ∧ t.pkg.mr = s.pkg.mr) ∧
      (readOk = true → addr + 32 ≤ 2 ^ 52 → MailDone t 0 ∧
        Extended s t (2 + s.pkg.mbCmd.toNat % 2) (BitVec.ofNat 256 (leNat (readBytes s.mem addr 32))))) ∧
    (MailRuns s 3 → exec .nopM s = .next { s with pkg := { s.pkg with mbDone := true, mbResult := 0 } }) ∧
    (s.pkg.stopped = false → s.pkg.mbBusy = true →
      (s.pkg.mbDone = true → exec .mailboxCommandDone s
        = .next { s with pkg := { s.pkg with mbBusy := false, mbDone := false, msix := 2 :: s.pkg.msix } }) ∧
      (s.pkg.mbDone = false → (s.pkg.mbCmd.toNat / 2 ^ 56 = 0 ∨ 3 < s.pkg.mbCmd.toNat / 2 ^ 56) → exec .mailboxCommandDone s
        = .next { s with pkg := { s.pkg with mbBusy := false, mbResult := 1, msix := 2 :: s.pkg.msix } }))

/-- R377, R501: each SPDM request is answered over DOE; certificates are the identity chain alone in recovery, a digest is the
SHA-256 of the chain, and an answer signed with the alias key of MR0 covers the nonce and the measurements, with ERROR in recovery. -/
def Obligations.SpdmRequestsAreAnswered : Prop :=
  ∀ (nonce : BitVec 256) (s : State), s.pkg.stopped = false → s.pkg.linkUp = true → s.pkg.boot ≠ 0 → s.pkg.power = 0 →
    let mrs := [mget 0 s.pkg.mr 0, mget 0 s.pkg.mr 1, mget 0 s.pkg.mr 2, mget 0 s.pkg.mr 3]
    let key := Config.deriveAlias Config.fusedSecret (mget 0 s.pkg.mr 0)
    let sign := Config.spdmSign key nonce mrs
    let chain := if s.pkg.boot = 1 then Config.certChain else Config.certChain ++ Config.aliasCert key
    DoeAnswer s .getVersion 0 (Config.spdmBody 0) ∧ DoeAnswer s .getCapabilities 1 (Config.spdmBody 1) ∧
    DoeAnswer s .negotiateAlgorithms 2 (Config.spdmAlgorithms [.ecdsaP256, .sha256]) ∧ DoeAnswer s .getDigests 3 (leBytes (sha256 chain).toNat 32) ∧
    DoeAnswer s .getCertificate 4 chain ∧
    (s.pkg.boot = 1 → DoeAnswer s (.challenge nonce) 7 [] ∧ DoeAnswer s (.getMeasurements nonce) 7 []) ∧
    (s.pkg.boot ≠ 1 → DoeAnswer s (.challenge nonce) 5 (Config.spdmBody 5 ++ sign) ∧
      DoeAnswer s (.getMeasurements nonce) 6 ((mrs.flatMap fun m => leBytes m.toNat 32) ++ sign))

/-- R493 to R497: a lease that has passed probes the agents that may hold the line, and one that has not answered within a
second lease is declared dead where the mode of its class watches leases; a core that misses its polls is declared dead. The
task of a dead core stops without an image, with a record; a line it owned has the home's bytes again, in a LOST region. -/
def Sys2Proof.Claim.AgentsThatDoNotAnswerAreDeclaredDead : Prop :=
  ∀ (line c x k req t0 : Nat) (answered : BitVec 17) (agents : List Nat) (h : List Byte) (s : State), s.pkg.stopped = false →
    let ctl := (s.reg 0x130060).toNat
    let lease := 2 ^ (ctl / 2 ^ 12 % 16 + 10)
    let alone := s.fq.head = s.fq.tail ∧ c < 16 ∧ s.pkg.deadCores.getLsbD c = false
    ((s.lineCo line).preq.find? (fun r => s.missing r.1 line) = some (req, t0) → (s.lineCo line).probe = none →
      t0 + lease ≤ s.clk → ∃ t as, exec (.leaseProbe line) s = .next t ∧ (t.lineCo line).probe = some (s.clk, as) ∧
        (∀ j, j < 16 → j ≠ req → s.pkg.deadCores.getLsbD j = false → 0 < (s.lineCo line).held j → j ∈ as) ∧
        t = { s with lines := t.lines } ∧ ∀ l, l ≠ line → t.lineCo l = s.lineCo l) ∧
    ((s.lineCo line).probe = some (t0, agents) → t0 + lease ≤ s.clk →
      (c ∈ agents → alone → ctl % 2 = 1 →
        ((∀ p ∈ s.tgu.insts, ∀ j ∈ p.2.slots, j / 4 ≠ c) → ∃ t, exec (.leaseExpire line c) s = .next t ∧
          CoreDeclared s t c s.fq.tail ∧ t.slots = s.slots ∧
          ((∀ l, l ≠ line → (s.lineCo l).owner ≠ some c) → (s.lineCo line).owner = some c → (s.lineCo line).home = some h →
            h.length = 64 → pmdBase ≤ 64 * line → 64 * line + 64 ≤ pmdBase + s.cap →
            ∀ i, i < 64 → byteAt t.mem (64 * line + i) = h.getD i 0)) ∧
        ((s.inst x).slots = [k] → k / 4 = c → (∀ p ∈ s.tgu.insts, p.1 ≠ x → ∀ j ∈ p.2.slots, j / 4 ≠ c) →
          ∃ t e, exec (.leaseExpire line c) s = .next t ∧
            CoreDeclared s t c (s.fq.tail + 1) ∧ (t.inst x).st = .stopped ∧ (t.inst x).faulted = true ∧
            (t.inst x).images = [] ∧ (t.inst x).slots = [] ∧ t.slot k = {} ∧ (∀ j, j ≠ k → t.slot j = s.slot j) ∧
            mget ({}, .none) t.fq.recs s.fq.tail.toNat = (e, .task x) ∧ e.cause = 0x52 ∧ e.kind = 1 ∧ e.src = 12 ∧
            e.gstat / 8 % 2 = 1)) ∧
      (c ∈ agents → c < 16 → ctl % 2 = 0 → exec (.leaseExpire line c) s = .next s) ∧
      (16 ∈ agents → s.fq.full = false → s.pkg.fenced = false → ctl / 4 % 2 = 1 →
        ∃ t, exec (.leaseExpire line 16) s = .next t ∧ HostDeclared s t)) ∧
    (ctl / 2 % 2 = 1 → ctl / 8 % 2 = 0 → (∀ j, j < 16 → j ≠ c → answered.getLsbD j = true) → answered.getLsbD c = false →
      (∀ j, j < 16 → j ≠ c → (s.core j).mute = false) → alone → s.pkg.gated.getLsbD c = false → (s.core c).waking = false →
      ((s.core c).hbMissed + 1 < ctl / 2 ^ 28 % 16 → ∃ t, exec (.heartbeatPoll answered) s = .next t ∧
        t.core c = { s.core c with hbMissed := (s.core c).hbMissed + 1 } ∧ t = { s with cores := t.cores } ∧
        ∀ j, j < 16 → j ≠ c → s.pkg.deadCores.getLsbD j = false → s.pkg.gated.getLsbD j = false → (s.core j).waking = false →
          t.core j = { s.core j with hbMissed := 0 }) ∧
      (ctl / 2 ^ 28 % 16 ≤ (s.core c).hbMissed + 1 → (∀ p ∈ s.tgu.insts, ∀ j ∈ p.2.slots, j / 4 ≠ c) →
        ∃ t, exec (.heartbeatPoll answered) s = .next t ∧ CoreDeclared s t c s.fq.tail))

/-- R499: a corrected flit error is counted; a link that goes down comes back with one retraining counted, or beyond its limit
leaves a record and, where a mode watches the host, a dead host; a read of host memory that times out is handled as poison. -/
def Sys2Proof.Claim.LinkErrorsAreCountedAndReported : Prop :=
  ∀ (line t0 : Nat) (s : State), s.pkg.stopped = false →
    let ctl := (s.reg 0x130060).toNat
    (s.pkg.linkUp = true →
      exec .flitError s = .next { s with pkg := { s.pkg with corr := s.pkg.corr + 1 } } ∧
      exec .linkDown s = .next { s with pkg := { s.pkg with linkUp := false, downAt := some s.clk } }) ∧
    (s.pkg.linkUp = false → s.pkg.boot ≠ 0 → ∃ t, exec .linkRetrained s = .next t ∧ t = { s with free := t.free, pkg :=
      { s.pkg with linkUp := true, downAt := none, retrain := s.pkg.retrain + 1, cxlOld := t.pkg.cxlOld } }) ∧
    (s.pkg.downAt = some t0 → t0 + ctl / 2 ^ 32 % 256 * 1500000 ≤ s.clk → s.fq.head = s.fq.tail →
      ∃ t e, exec .linkDownTimeout s = .next t ∧ t.pkg.downAt = none ∧ e.cause = 0x50 ∧ e.info = 1 ∧ e.src = 14 ∧
        mget ({}, .none) t.fq.recs s.fq.tail.toNat = (e, .none) ∧ t.mem = s.mem ∧ t.slots = s.slots ∧
        (ctl / 4 % 4 ≠ 0 → s.pkg.fenced = false → t.pkg.fenced = true ∧ ∃ d, d.cause = 0x52 ∧ d.info = 0xFFFF ∧
          mget ({}, .none) t.fq.recs (s.fq.tail + 1).toNat = (d, .none)) ∧
        (ctl / 4 % 4 = 0 → t.pkg.fenced = s.pkg.fenced)) ∧
    (s.pclass (64 * line) = .host → ∃ t, exec (.cxlCacheTimeout line) s = .next t ∧ OnlyPkg s t ∧
      (t.pkg.hostPoison.find? (·.1 == line)) = some (line, 3) ∧
      ∀ l, l ≠ line → t.pkg.hostPoison.find? (·.1 == l) = s.pkg.hostPoison.find? (·.1 == l))

end
namespace Sys2Proof.Claim

open Sys2Proof.Machine

/-- Record r of the fault queue is not consumed, and its action is on f. -/
def Names (s : State) (r : Nat) (f : FTarget) : Prop :=
  r < 256 ∧ (BitVec.ofNat 8 r - s.fq.head).toNat < (s.fq.tail - s.fq.head).toNat ∧ (mget ({}, .none) s.fq.recs r).2 = f
/-- The record has been acted on: it names nothing any more, and no other entry of the queue has changed. -/
def Used (s t : State) (r : Nat) : Prop :=
  mget ({}, .none) t.fq.recs r = ((mget ({}, .none) s.fq.recs r).1, .none) ∧ t.fq.badact = s.fq.badact
/-- The write has no effect but BADACT. -/
def BadAction (i : Instr) (s : State) : Prop := exec i s = .next { s with fq := { s.fq with badact := true } }
/-- Cells hold bytes, in order, and no other byte of memory has changed. -/
def CellsHold (s t : State) (cells : List Nat) (bs : List Byte) : Prop :=
  (∀ p ∈ cells.zip bs, byteAt t.mem p.1 = p.2) ∧ ∀ a, a ∉ cells → byteAt t.mem a = byteAt s.mem a
/-- Cells of the PMDs, none twice. -/
def GoodCells (s : State) (cells : List Nat) : Prop := cells.Nodup ∧ ∀ a ∈ cells, pmdBase ≤ a ∧ a < pmdBase + s.cap
/-- The head command c of the layout engine, of kind cmd, stands before a page, and nothing holds it up: no run names its
regions before the first page, the host holds no line, and every word is sound. -/
def AtPage (s : State) (c : LCmd) (cs : List LCmd) (cmd : Nat) : Prop :=
  s.pkg.stopped = false ∧ s.layout.cmds = c :: cs ∧ c.cmd = cmd ∧ c.page < s.layPages c ∧
    (c.page = 0 → s.runsOn c.g = false ∧ (2 ≤ cmd → s.runsOn c.g2 = false)) ∧
    layBad (s.layDesc c.g) = false ∧ (2 ≤ cmd → layBad (s.layDesc c.g2) = false) ∧ s.flips = [] ∧
    s.poison = [] ∧
    ∀ l, (s.lineCo l).host = false
/-- The command stands before its next page. -/
def NextPage (s t : State) (c : LCmd) (cs : List LCmd) : Prop :=
  t.layout.cmds = { c with page := c.page + 1 } :: cs ∧ t.layout.done = s.layout.done ∧ t.slots = s.slots ∧ t.cores = s.cores

end Sys2Proof.Claim

section

open Sys2Proof Sys2Proof.Machine Sys2Proof.Claim

/-- R412, R413, R415, R447: RESUME requeues a stopped task with its image and lets a parked operation go on; REQUEUE of a guarded
task puts a new instance of its record into the pool without its writes; ABORT ends its graph. A record that names nothing that
waits, or cannot take the action, sets BADACT and does nothing else. FQHEAD consumes records, and a waiting one enters. -/
def Obligations.FaultQueueActions : Prop :=
  ∀ (r x c id n : Nat) (f : FTarget) (v : Word) (gr : Graph) (w : FRec × FTarget) (s : State), HostReaches s →
    (Names s r f → s.targetWaits f = false → BadAction (.resumeA r) s ∧ BadAction (.requeueA r) s ∧ BadAction (.abortA r) s) ∧
    (Names s r f → f = .task x → (s.inst x).faulted = true → (s.inst x).st = .stopped →
      ((s.inst x).images ≠ [] → ∃ t, exec (.resumeA r) s = .next t ∧ Used s t r ∧
        t.inst x = { s.inst x with st := .pooled, faulted := false } ∧ (∀ y, y ≠ x → t.inst y = s.inst y) ∧ t.slots = s.slots ∧
        t.mem = s.mem) ∧
      ((s.inst x).images = [] → BadAction (.resumeA r) s) ∧
      ((s.inst x).guarded = true → (s.inst x).irrevocable = false → (∀ p ∈ s.tgu.insts, p.1 < s.tgu.nextInst) →
        let m := s.tgu.nextInst
        let i := s.inst x
        ∃ t, exec (.requeueA r) s = .next t ∧ (t.inst x).st = .gone ∧ (t.inst m).st = .pooled ∧ (t.inst m).held = [] ∧
          (t.inst m).images = [] ∧ (t.inst m).entry = i.entry ∧ (t.inst m).graph = i.graph ∧ (t.inst m).type = i.type ∧
          (t.inst m).replay = i.replay ∧ (t.inst m).x = i.x ∧ (t.inst m).y = i.y ∧ (t.inst m).z = i.z ∧ (t.inst m).cut = i.cut ∧
          (∀ k ∈ i.slots, t.slot k = {}) ∧ t.mem = s.mem) ∧
      (((s.inst x).guarded = false ∨ (s.inst x).irrevocable = true) → BadAction (.requeueA r) s) ∧
      (s.graph? (s.inst x).graph = some gr → s.tgu.port = [] → ∃ t, exec (.abortA r) s = .next t ∧
        t.graph? (s.inst x).graph = some { gr with aborted := true } ∧
        (∀ l ∈ t.tgu.launches, l.graph ≠ (s.inst x).graph) ∧ (∀ q ∈ t.tgu.replays, q.graph ≠ (s.inst x).graph) ∧
        (∀ y, (s.inst y).graph = (s.inst x).graph → (t.inst y).st = .gone ∨ (t.inst y).st = .retired) ∧ t.mem = s.mem)) ∧
    (Names s r f → f = .xfer c id → c < 16 → s.targetWaits f = true → ∃ t, exec (.resumeA r) s = .next t ∧ Used s t r ∧
      t.core c = { s.core c with xops := (s.core c).xops.map fun o => if o.id = id then { o with parked := false } else o } ∧
      (∀ j, j ≠ c → t.core j = s.core j) ∧ t.slots = s.slots ∧ t.mem = s.mem) ∧
    (Names s r f → f = .mop c id → c < 64 → s.targetWaits f = true → ∃ t, exec (.resumeA r) s = .next t ∧ Used s t r ∧
      t.slot c = { s.slot c with mops := (s.slot c).mops.map fun o =>
                                   if o.id = id then { o with parked := false, resumed := true } else o } ∧
      (∀ j, j ≠ c → t.slot j = s.slot j) ∧ t.cores = s.cores ∧ t.mem = s.mem) ∧
    (Names s r f → f = .ctx n → (s.ctx n).stopped = true → ∃ t, exec (.resumeA r) s = .next t ∧ Used s t r ∧
      t.ctx n = { s.ctx n with stopped := false } ∧ (∀ j, j ≠ n → t.ctx j = s.ctx j) ∧ t.slots = s.slots ∧ t.mem = s.mem) ∧
    (s.fq.waiting = [] → ∃ t, exec (.fqheadWrite v) s = .next t ∧ t.fq = { s.fq with head := v.setWidth 8 } ∧
      t.pkg.msix = (if s.fq.tail ≠ v.setWidth 8 ∧ (s.reg 0x130000).toNat % 2 = 1 then 1 :: s.pkg.msix else s.pkg.msix) ∧
      t.slots = s.slots ∧ t.mem = s.mem) ∧
    (s.fq.waiting = [w] → s.fq.tail + 1 ≠ v.setWidth 8 → ∃ t, exec (.fqheadWrite v) s = .next t ∧
      t.fq.head = v.setWidth 8 ∧ t.fq.tail = s.fq.tail + 1 ∧ t.fq.waiting = [] ∧
      mget ({}, .none) t.fq.recs s.fq.tail.toNat = w)

/-- R366, R369, R373, R468, R478, R497, R502: an aligned host write sets the bytes of a table word, and only the fields of a
register that are writable, within their bounds; one that is not aligned, or to BAR2, has no effect; a ring of DOORBELL starts
the command. DEADACK clears one region's flag, ARRDIS enables the sections written as 1, and SAVEPOOL takes a pool while no image
is stored. -/
def Obligations.HostWritesOfRegisters : Prop :=
  ∀ (bar2 : Bool) (off n cl : Nat) (v : Word) (s : State), HostReaches s →
    let x := v.toNat
    ((bar2 = true ∨ n ∉ [1, 2, 4, 8] ∨ off % n ≠ 0) → exec (.registerWrite bar2 off n v) s = .next s) ∧
    (0x010000 ≤ off → off < 0x018000 → off % 8 = 0 →
      exec (.registerWrite false off 8 v) s = .next (s.setReg off v) ∧
      exec (.registerWrite false (off + 4) 4 v) s = .next (s.setReg off (v.setWidth 32 ++ (s.reg off).setWidth 32))) ∧
    (∃ t, exec (.registerWrite false 0x120000 8 v) s = .next t ∧
      let w := (t.reg 0x120000).toNat
      w / 2 ^ 32 % 2 ^ 16 = x / 2 ^ 32 % 2 ^ 16 ∧ w / 2 ^ 16 % 256 = max 1 (x / 2 ^ 16 % 256) ∧
        w / 2 ^ 8 % 256 = min 150 (max 45 (x / 2 ^ 8 % 256)) ∧ w % 256 = (s.reg 0x120000).toNat % 256 ∧
        (∀ o, o / 8 ≠ 0x120000 / 8 → t.reg o = s.reg o) ∧ t = { s with priv := t.priv }) ∧
    (cl < 16 → ∃ t, exec (.registerWrite false (0x080000 + 0x1000 * cl) 8 v) s = .next t ∧
      let w := (t.reg (0x080000 + 0x1000 * cl)).toNat
      w % 256 = x % 256 ∧ w / 2 ^ 12 % 4096 = max 16 (x / 2 ^ 12 % 4096) ∧ t = { s with priv := t.priv }) ∧
    (∃ t, exec (.registerWrite false 0x120008 8 v) s = .next t ∧ t = { s with priv := t.priv } ∧ ∀ o, t.reg o = s.reg o) ∧
    (x % 2 = 1 → s.pkg.mbBusy = false → exec (.registerWrite false 0x000020 8 v) s
      = .next { s with mgmt := { s.mgmt with halted := false },
                       pkg := { s.pkg with mbBusy := true, mbDone := false, mbCmd := s.reg 0 } }) ∧
    ((x % 2 = 0 ∨ s.pkg.mbBusy = true) → exec (.registerWrite false 0x000020 8 v) s = .next s) ∧
    exec (.deadackWrite v) s = .next { s with lostReg := s.lostReg.filter (· ≠ x / 2 ^ 9 % 2 ^ 48) } ∧
    (cl < 4 → ∃ t, exec (.arrdisWrite cl v) s = .next t ∧ t = { s with clusters := t.clusters } ∧
      (t.cluster cl).arrdis = (s.cluster cl).arrdis &&& ~~~(v.setWidth 4) ∧
      (∀ i, i < 4 → t.sec cl i = if v.getLsbD i ∧ (s.cluster cl).arrdis.getLsbD i then { s.sec cl i with recal := true }
        else s.sec cl i) ∧ ∀ j, j ≠ cl → t.cluster j = s.cluster j) ∧
    (s.tgu.used = [] → exec (.savepoolWrite v) s
      = .next { s with tgu := { s.tgu with savepool := v &&& 0x01FFFFFFFFFFFFFF } }) ∧
    (s.tgu.used ≠ [] → exec (.savepoolWrite v) s = .next s)

/-- R282 to R286, R463, R465: each command of the layout engine moves one page of 4096 bytes a step, into the cells of its
descriptor or out of them, RESTRIPE with the scales, REQUANT as codes quantised by MXQUANT; after the last page it is over, and
RESTRIPE has moved the mapping. A descriptor outside R282 stops the command with ERR set and record 0x3B, reason 3. -/
def Obligations.LayoutCommandsMovePages : Prop :=
  ∀ (c : LCmd) (cs : List LCmd) (a b as bs : List Nat) (cmd : Nat) (s : State),
    let d := s.layDesc c.g
    let e := s.layDesc c.g2
    let plain := c.addr + 4096 * c.page
    let plains := (List.range 4096).map (plain + ·)
    let done := fun (t : State) => t.layout.cmds = cs ∧ t.layout.done = s.layout.done + 1 ∧ t.mem = s.mem ∧ t.slots = s.slots
    let turn := fun (cmd : Nat) => if cmd = 0 then Instr.stripe else if cmd = 1 then .unstripe else if cmd = 2 then .restripe
      else .requant
    (AtPage s c cs 0 → s.pageCells d c.page = some a → GoodCells s a →
      ∃ t, exec .stripe s = .next t ∧ NextPage s t c cs ∧ CellsHold s t a (plains.map s.cellByte)) ∧
    (AtPage s c cs 1 → s.pageCells d c.page = some a → GoodCells s plains →
      ∃ t, exec .unstripe s = .next t ∧ NextPage s t c cs ∧ CellsHold s t plains (a.map s.cellByte)) ∧
    (AtPage s c cs 2 → (∀ r ∈ s.layout.gen, r.1 = c.g → r.2.1 = c.g2 → r.2.2 ≤ c.page) → s.pageCells d c.page = some a →
      s.pageScales d c.page = some as → s.pageCells e c.page = some b → s.pageScales e c.page = some bs →
      dFmt d = dFmt e → GoodCells s (b ++ bs) →
      ∃ t, exec .restripe s = .next t ∧ NextPage s t c cs ∧ CellsHold s t (b ++ bs) ((a ++ as).map s.cellByte) ∧
        t.layout.gen.find? (·.1 == c.g) = some (c.g, c.g2, c.page + 1)) ∧
    (AtPage s c cs 3 → dFmt d = 0 → dFmt e = 1 → s.pageCells d (2 * c.page) = some a →
      (if 2 * c.page + 1 < dLen d then s.pageCells d (2 * c.page + 1) else some []) = some as → s.pageCells e c.page = some b → s.pageScales e c.page = some bs →
      GoodCells s (b ++ bs) →
      let codes := (a ++ as).map s.cellByte
      let q := quantBlocks (codes ++ List.replicate (8192 - codes.length) 0) 256
      ∃ t, exec .requant s = .next t ∧ NextPage s t c cs ∧ CellsHold s t (b ++ bs) (q.2 ++ q.1) ∧
        ∃ m, t.layout.zero.find? (·.1 == c.g2) = some (c.g2, m) ∧ c.page < m) ∧
    (s.pkg.stopped = false → s.layout.cmds = c :: cs → c.cmd = cmd → cmd < 4 →
      (c.page = 0 → s.runsOn c.g = false ∧ (2 ≤ cmd → s.runsOn c.g2 = false)) →
      (layBad d = false → (2 ≤ cmd → layBad e = false) → (cmd = 3 → dFmt d = 0 ∧ dFmt e = 1) → s.layPages c ≤ c.page →
        ∃ t, exec (turn cmd) s = .next t ∧ done t ∧
          (cmd = 2 → c.g < 64 → c.g2 < 64 → c.g ≠ c.g2 → dLbase (t.layDesc c.g2) = dLbase d ∧ dLen (t.layDesc c.g2) = dLen d ∧
            dSbase (t.layDesc c.g2) = dSbase d ∧ dPairs (t.layDesc c.g2) = dPairs e ∧ dValid (t.layDesc c.g2) = true ∧
            dValid (t.layDesc c.g) = false)) ∧
      (layBad (if cmd < 2 then d else e) = true → (cmd = 0 ∨ cmd = 1 ∨ layBad d = false) → s.fq.full = false →
        ∃ t w, exec (turn cmd) s = .next t ∧ done t ∧ NextRecord s t w .none ∧ w.cause = 0x3B ∧ w.src = 11 ∧
          w.info.toNat % 256 = 3 ∧ dErr (t.layDesc (if cmd < 2 then c.g else c.g2)) = true))

end
namespace Sys2Proof.Claim

open Sys2Proof.Machine

/-- It is the turn of party p of slot k, which may take a word; its pc translates by l to sound lines that no host has changed,
and w is the word there. No other party's cause would be reported before one of this party, and no asynchronous cause of the slot has
been recorded in this clk (R408, R409). -/
def Meets (k : Nat) (p : Party) (l : TlbEnt) (w : W32) (rest : List Turn) (s : State) : Prop :=
  let pc := (s.slot k).pcOf p
  s.sched = .seq k p :: rest ∧ k < 64 ∧ (s.slot k).canFetch p = true ∧ s.pkg.stopped = false ∧
    s.pkg.gated.getLsbD (coreOf k) = false ∧ (s.core (coreOf k)).waking = false ∧ s.pkg.deadCores.getLsbD (coreOf k) = false ∧
    s.xlSlot k pc.toNat 4 .fetch = .hit l ∧ s.flips = [] ∧ s.poison = [] ∧ w = BitVec.ofNat 32 (s.physLe (l.pa pc.toNat) 4) ∧
    (∀ a ∈ linesOf (l.pa pc.toNat) 4, (s.lineCo a).hostMod = false) ∧ s.asyncNow k = false ∧ s.linkWaits (linesOf (l.pa pc.toNat) 4) = false ∧
    ∀ q, (s.slot k).ranksBefore q p = true →
      stopsSlot k { s with sched := rest } (takeTurn (.seq k q) { s with sched := rest }) = false
/-- The word is a V word that an exposed ESQ is ready to issue (R59). -/
def Pipes (k : Nat) (p : Party) (w : W32) (rest : List Turn) (s : State) : Bool :=
  p == .esq && wordTag w == 3 && (s.slot k).exposed && State.pipeCan { s with sched := rest } k
/-- The state in which party p of slot k is about to take word w; the vector engine has then chosen an exposed slot (R53, R59). -/
def taking (k : Nat) (p : Party) (w : W32) (rest : List Turn) (s : State) : State :=
  let u := { s with sched := rest, sel := { slot := k, party := p, word := w } }
  if Pipes k p w rest s then engineTook k 0 u else u
/-- No private word's span is broken by a word here, the slip stays within its window, and no cause of the slot's own handler is
pending (R37, R404, R424). -/
def Undisturbed (k : Nat) (p : Party) (w : W32) (takes : Bool) (s : State) : Prop :=
  let sl := s.slot k
  (p = .asq → spanBroken sl.asq sl.esq w takes = none ∧ sl.slipHeld w = false) ∧
    (p = .esq → spanBroken sl.esq sl.asq w takes = none) ∧ sl.upend = []
/-- The vector engine takes the slot's V word, where the slot is exposed (R53, R59). -/
def Chosen (k : Nat) (p : Party) (w : W32) (rest : List Turn) (s : State) : Prop :=
  Pipes k p w rest s = true → State.engineTakes { s with sched := rest } k 0 = true
/-- The words of the command at the pc of the turn's context: those read when it began, or those in memory (R255, R258). A level
outside its limits stops the context before the extension words (R421). -/
def ListWords (u : State) (ws : List W32) (v : State) : Prop :=
  let c := u.myCtx
  (c.cmd = some ws ∧ v = u) ∨
    (c.cmd = none ∧ ∃ w u1, gFetch 1 c.pc.toNat [] u = .inr ([w], u1) ∧
      ((gLevelBad w = true ∧ ws = [w] ∧ v = u1) ∨
       (gLevelBad w = false ∧ gFetch ((decodeGlean [w]).2 - 1) (c.pc.toNat + 4) [w] u1 = .inr (ws, v))))

end Sys2Proof.Claim

section

open Sys2Proof Sys2Proof.Machine Sys2Proof.Claim

/-- R33, R35, R42, R47, R135, R258, R264, R353, R408, R409: a step at which a party of a slot meets a word it takes runs the instruction
that the word decodes to, or the rejection of one that decodes to none; a word it does not take is passed. So do a queue's head
at its turn, a gleaner context, an NBU thread and the management core with theirs (of that core's words: log entry 58), and an event
with no word at all. An exposed slot's V word waits while the vector engine takes another slot's. Of causes that parties of a slot
meet in one clk the helper's, else that of the lowest walk index, is the step's outcome; a clk in which an asynchronous cause of the
slot has been recorded is over for them. -/
def Obligations.AStepRunsTheDecodedInstruction : Prop :=
  ∀ (k n r q : Nat) (p b : Party) (l : TlbEnt) (w : W32) (i : Instr) (e : QEnt) (ws : List W32) (rest : List Turn)
    (v s : State),
    let u := { s with sched := rest }
    (Meets k p l w rest s → p ≠ .helper → takesWord p w = true → Undisturbed k p w true s → Chosen k p w rest s →
      (wordTag w = 6 → p = .esq ∧ (s.slot k).rendezvous = true) →
      (decodeCore w = .ok i → step s = exec i (taking k p w rest s)) ∧
      (decodeCore w = .bad r → followsWord p w = false → step s = exec (.notAnInstruction r) (taking k p w rest s))) ∧
    (Meets k p l w rest s → Undisturbed k p w true s → Pipes k p w rest s = true → u.engineTakes k 0 = false →
      (∃ i, decodeCore w = .ok i) → step s = .next u) ∧
    (Meets k p l w rest s → p ≠ .helper → takesWord p w = false → wordTag w ≠ 7 → Undisturbed k p w false s →
      step s = .next (passWord k p w { u with sel := { slot := k, party := p, word := w } })) ∧
    (Meets k p l w rest s → wordTag w = 7 → (p = .helper ∨ Undisturbed k p w (takesWord p w) s) →
      step s = exec (.hint (w.extractLsb' 0 29)) (taking k p w rest s)) ∧
    (Meets k .helper l w rest s → wordTag w ≠ 7 → helperWord w = true → decodeCore w = .ok i →
      step s = exec i (taking k .helper w rest s)) ∧
    (s.sched = .issue k :: rest → (s.slot k).issuing = some (e, q) → s.pkg.stopped = false → decodeCore e.word = .ok i →
      step s = exec i { s with sched := rest, sel := { slot := k, issue := true, word := e.word, party :=
        if q = 2 then .asq else if q = 3 then .helper else .esq } }) ∧
    (s.sched = .glean n :: rest → n < 256 → (s.ctx n).run = true → (s.ctx n).stopped = false → (s.ctx n).claim = none →
      s.pkg.stopped = false → ListWords { u with sel := { kind := .glean, ctx := n } } ws v → (decodeGlean ws).1 = .ok i →
      step s = exec i (modCtx (fun g => { g with cmd := some ws }) { v with sel := { v.sel with word := ws.headD 0 } })) ∧
    (s.sched = .nbu n :: rest → n < s.nnbu → s.pkg.stopped = false →
      let v := s.nbu n
      let th := mget {} v.threads (v.nclk % 16)
      th.run = true → th.pc < 2048 → decodeNbu (mget 0 v.code th.pc) = .ok i →
      step s = exec i { s.setNbu n { v with nclk := v.nclk + 1 } with
        sched := rest, sel := { kind := .nbu, nbu := n, thread := v.nclk % 16, word := mget 0 v.code th.pc } }) ∧
    (s.sched = .mgmt :: rest → s.mgmt.halted = false → s.tinv = none → s.pkg.stopped = false → s.pkg.boot ≠ 0 →
      s.canAccess 16 (linesOf s.mgmt.pc.toNat 4) = true → w = BitVec.ofNat 32 (s.physLe s.mgmt.pc.toNat 4) → wordTag w ≠ 7 →
      (privWord w = true ∨ mgmtWord w i = true) → decodeCore w = .ok i →
      step s = exec i { u with sel := { kind := .mgmt, party := .esq, word := w } }) ∧
    (s.sched = .event i :: rest → encode i = [] → (∀ r, i ≠ .notAnInstruction r) → s.pkg.stopped = false →
      step s = exec i { u with sel := {} }) ∧
    (s.sched = .seq k p :: rest → u.asyncNow k = false → stopsSlot k u (takeTurn (.seq k p) u) = true →
      stopsSlot k u (takeTurn (.seq k b) u) = true →
      (∀ c, c ≠ b → stopsSlot k u (takeTurn (.seq k c) u) = true → (s.slot k).ranksBefore b c = true) →
      step s = takeTurn (.seq k b) u) ∧
    (s.sched = .seq k p :: rest → u.asyncNow k = true → stopsSlot k u (takeTurn (.seq k p) u) = true → step s = .next u)

/-- R136 to R150, R255, R266: words that the spec writes out with their fields decode to the instructions they stand for. -/
def Obligations.WordsDecodeAsTheirLayoutsSay : Prop :=
  decodeCore 0x00A40004 = .ok (.addiA 9 0 4) ∧ decodeCore 0x400C8500 = .ok (.addX 3 4 5) ∧
  decodeCore 0x099CAC00 = .ok (.stg 7 5 3 0) ∧ decodeCore 0x0D80005C = .ok (.fence 1 3 4) ∧
  decodeCore 0xB00A7FFE = .ok (.br 2 1 9 0x3FFE) ∧ decodeCore 0xA2CC9000 = .ok (.waitv 0 6 9 0) ∧
  decodeCore 0xC0810202 = .ok (.csrw 0 8 0x101) ∧ decodeCore 0xC48C8000 = .ok (.fget 3 4) ∧
  decodeCore 0x6A088640 = .ok (.vadd 5 2 3 4 0) ∧ decodeCore 0x61684000 = .ok (.vaccr 0 1 0) ∧
  decodeCore 0x80424800 = .ok (.mstep 0 2 9 0) ∧ decodeCore 0x8C586000 = .ok (.mcommit 6 1 3) ∧
  decodeCore 0x20034045 = .ok (.copy 0 3 8 0 0 1 5) ∧ decodeCore 0x20650044 = .ok (.attn 0 10 1 4) ∧
  decodeNbu 0x30180000 = .ok (.nact 0 6) ∧ decodeNbu 0x40028000 = .ok (.ndotb 0 0 0 5 0 0 0) ∧
  decodeGlean [0x00000100] = (.ok (.gnest 0 0 0 256 0), 1) ∧ decodeGlean [0x40040006] = (.ok (.gloop 2 6), 1)

/-- R363, R368, R373, R412, R413, R493: what reset leaves: every slot free with its registers at 0 (where the spec
gives no value, the model's choice: log entry 1), no word listed in memory, the fault queue empty, every core gated, and the
registers at the reset columns of their maps. -/
def Obligations.ResetLeavesTheRegisterMapsValues : Prop :=
  let s := State.reset
  Memory.wf s.mem = true ∧ s.mem = [] ∧ (∀ k, s.slot k = {}) ∧ s.clk = 0 ∧ s.fq.head = s.fq.tail ∧ s.pkg.gated = 0xFFFF ∧
    s.pkg.power = 0 ∧ s.pkg.boot = 0 ∧ s.pkg.rstcause = 0 ∧ s.tgu.launches = [] ∧
    (∀ c, c < 16 → s.reg (0x080000 + 0x1000 * c) = BitVec.ofNat 64 (256 * 2 ^ 12 + 64)) ∧
    s.reg 0x020000 = BitVec.ofNat 64 (15000 * 2 ^ 32) ∧ s.reg 0x120000 = BitVec.ofNat 64 (10 * 2 ^ 16 + 120 * 2 ^ 8) ∧
    s.reg 0x130060 = BitVec.ofNat 64 (100 * 2 ^ 32 + 3 * 2 ^ 28 + 10 * 2 ^ 16 + 6 * 2 ^ 12 + 4 + 1) ∧
    s.regView 0x130008 = 0 ∧ s.regView 0x120008 = BitVec.ofNat 64 (0xFFFF * 2 ^ 16)

/-- R135 to R150, R255, R266: for every well-formed instruction, the decoder of its own text reads it back from the words that
encode it, with every operand at every value. -/
def Obligations.EveryEncodingIsRecovered : Prop := ∀ i : Instr, Laws.Encode.Statement i

/-- R260 gives every address of memory one byte; of the model's own form of it (log entry 2): memory stays canonical through
every step, whosever turn it is. -/
def Obligations.EveryStepKeepsMemoryCanonical : Prop :=
  ∀ s t : State, Memory.wf s.mem = true → step s = .next t → Memory.wf t.mem = true

/-- R500: while the logic-die clocks are stopped, a step retains every state: nothing but the turn itself goes by, until the
clocks restart or a reset comes. -/
def Obligations.StoppedClocksRetainEverything : Prop :=
  ∀ s : State, s.pkg.stopped = true →
    let u := s.popTurn
    (∀ c b, u.1 ≠ .flip c b) →
    (∀ i, u.1 = .event i → i ≠ .clockRestart ∧ i ≠ .hotReset ∧ ∀ b, i ≠ .supplyRetentionLoss b) →
    step s = .next u.2 ∨ step s = .fault .noSuchUnit

end

section

open Sys2Proof.Claim

/-- R57, R58, R158 to R160: the scalar words of the ESQ write their x register at once in interlocked mode, and after their
latency in ticks in exposed mode. -/
def Obligations.EsqScalarWordsInBothModes : Prop :=
  ScalarWordsOfTheEsqInterlocked ∧ ScalarWordsOfTheEsqExposed

/-- R57, R58, R194: results land when they are due: at a tick in exposed mode, oldest first in interlocked mode. -/
def Obligations.ResultsInFlightLand : Prop :=
  TickWritesTheResultsDue ∧ OldestResultLands

/-- R45, R163 to R165: each word of the ASQ that reads or writes a scratchpad, global memory or a queue issues its one memory
event, and nothing else happens yet. -/
def Obligations.AccessWordsIssueTheirEvents : Prop :=
  ScratchpadWordsIssueTheirEvent ∧ GlobalWordsIssueTheirEvent ∧ DeliveredStoreIssuesItsEvent ∧ QueueWordsIssueTheirEvent

/-- R46, R53, R162, R163: a scratchpad load, performed, writes its register; a store writes its bytes. -/
def Obligations.ScratchpadAccessesArePerformed : Prop :=
  ScratchpadLoadWritesItsRegister ∧ ScratchpadStoreWritesItsBytes

/-- R92, R110, R122, R127, R162 to R165: a global load, performed, writes its register with the bytes its task sees; a store
is seen first by its own core, then by all. An access is performed unit by unit, and every load and store word, with nothing
before it, completes. -/
def Obligations.GlobalAccessesArePerformed : Prop :=
  GlobalLoadWritesItsRegister ∧ StoreIsSeenByItsCoreFirst ∧ VisibleStoreWritesItsBytes ∧ AccessesArePerformedUnitByUnit ∧
    LoadsComplete ∧ StoresComplete

/-- R111, R113, R118 to R121, R123, R167 to R170: atomic words and fences issue their events, and a fence, when it retires,
passes on and takes over the stores that its scope covers. -/
def Obligations.AtomicAndFenceWordsIssueTheirEvents : Prop :=
  AtomicWordsIssueTheirEvent ∧ FenceJoinsThePendingEvents ∧ FencesPassStoresOn

/-- R127, R167 to R169: AMO, CAS and REDW read and write their cell in one step. -/
def Obligations.AtomicsReadAndWriteOnce : Prop :=
  AmoReturnsTheOldValueAndStoresTheNew ∧ CasStoresOnlyOnEquality ∧ RedwAppliesWithoutAnAnswer

/-- R48, R137, R141, R176 to R179, R187: branches, calls, returns, loops, BRNONE, ends and hints. -/
def Obligations.ControlWordsMoveTheSequencers : Prop :=
  BranchesAndCallsGoWhereTheySay ∧ LoopsEndsAndHints

/-- R173, R185, R186, R250: ABFREE frees the oldest filled ring slots; waits on counters and ring slots pass once their
condition is met. -/
def Obligations.RingsFreeAndCountersAreWaitedFor : Prop :=
  AbfreeFreesFilledSlotsInOrder ∧ CounterAndRingWaits

/-- R54, R184, R185, R404: a wait on a word of memory passes on its comparison, is read again, and ends when its condition is
met. -/
def Obligations.WaitsOnWordsPassOnTheirComparison : Prop :=
  WordWaitPassesOnItsComparison ∧ WaitEndsWhenItsConditionIsMet ∧ WaitedWordIsReadAgain

/-- R51, R126, R182, R183: barrier words arrive, wait and complete, a barrier flips after its last arrival, and a global
barrier counts its arrivals in memory and is passed after the last. -/
def Obligations.BarriersFlipAfterTheirLastArrival : Prop :=
  BarrierWordsArriveAndWait ∧ BarrierFlipsAfterTheLastArrival ∧ GlobalBarrierCountsItsArrivals ∧ BarrierWordsComplete ∧
    GlobalBarrierCompletes

/-- R35, R57, R190, R239, R337, R338, R404: a Y word moves both sequencers; CSR words read and write their registers, and a
write held for quiet is done. -/
def Obligations.RendezvousAndCsrWords : Prop :=
  RendezvousMovesBothSequencers ∧ CsrWordsReadAndWrite ∧ HeldCsrWritesAreDone

/-- R343 to R347, R351: futures are read and filled; PRIO, YIELD, SPAWN and PARAMPUBLISH do what they say. -/
def Obligations.FuturesPriorityAndSpawnWords : Prop :=
  FuturesAreReadAndFilled ∧ PriorityAndSpawnWords

/-- R194, R199, R200, R202 to R205: vector words that write whole registers, convert or quantise; VARGMAX finds the lowest
index of the greatest. -/
def Obligations.PlainVectorWords : Prop :=
  WholeRegisterVectorWords ∧ InsertConvertAndQuantise ∧ ArgmaxIsTheLowestOfTheGreatest

/-- R42, R57, R172, R209, R223, R242: V words in queued form, M words and T words join their queue and take effect later. -/
def Obligations.WordsJoinTheirQueues : Prop :=
  VectorWordsJoinTheVQueue ∧ MatrixAndTransferWordsJoinTheirQueues

/-- R75, R80, R211, R213, R218, R219, R222, R226, R228, R232 to R235: matrix words begin their operations, which run to their
end, and MWAITB and MSTAT answer. -/
def Obligations.MatrixOperationsBeginAndReport : Prop :=
  MatrixOperationsBegin ∧ MatrixWaitAndStatus ∧ PlanesDrainsAndZeroesComplete ∧ IntegerStepsComplete

/-- R47, R242 to R248, R253, R254, R275, R287: transfer, helper, gleaner and engine words begin their operations. -/
def Obligations.TransferWordsBeginTheirOperations : Prop :=
  TransfersBegin ∧ HelpersGleanersAndEnginesBegin

/-- R92, R240, R242 to R248, R250, R257: pieces carry their bytes; operations run to their end, retire, signal and fill rings.
-/
def Obligations.TransfersCarryAndRetire : Prop :=
  PiecesCarryTheirBytes ∧ TransfersRetireAndRingsFill ∧ ScratchpadTransfersRunToTheirEnd

/-- R250, R253, R254, R256, R257: gleaner command words set patterns, wait, link, loop, post and flag, and a push runs to its
end. -/
def Obligations.GleanerCommandsRun : Prop :=
  GleanerPatternsAreSet ∧ GleanerWaitsLinksAndLoops ∧ GleanersPostAndFlag ∧ GleanerPushesRunToTheirEnd

/-- R264, R265, R267 to R270, R273, R274: the scalar, control and bank words of an NBU. -/
def Obligations.NbuScalarAndBankWords : Prop :=
  NbuScalarAndControlWords ∧ NbuBankWords

/-- R275 to R281, R288, R448, R457, R462: cuts, refresh, timeouts and patrol at a channel; memory-side operations read their
blocks and proceed. -/
def Obligations.ChannelEventsAndOperationsProceed : Prop :=
  CutsRefreshTimeoutsAndPatrol ∧ MemorySideOperationsProceed ∧ MemorySideBlocksAreRead

/-- R367, R376, R499 to R501: boot, resets and the management mailbox. -/
def Obligations.BootResetsAndMailbox : Prop :=
  BootAndResets ∧ MailboxCommandsAreCarriedOut

/-- R493 to R497, R499: agents that do not answer are declared dead; link errors are counted and reported. -/
def Obligations.DeadAgentsAndLinkErrors : Prop :=
  AgentsThatDoNotAnswerAreDeclaredDead ∧ LinkErrorsAreCountedAndReported

/-- R141, R159, R160, R176 to R178, R352, R353, R431: the privileged words at the management core, and its scalar and control
words (its use of these: log entry 58). -/
def Obligations.ManagementCoreWords : Prop :=
  PrivilegedWordsOfTheManagementCore ∧ ScalarWordsOfTheManagementCore ∧ ControlWordsOfTheManagementCore

/-- R330, R334, R348 to R350: CUTPOST, CUTSTOP and CUTGET publish, vote on and read cuts, and the last vote freezes the
producer. -/
def Obligations.CutWords : Prop :=
  CutWordsDoTheirWork ∧ VotesFreezeTheProducer

/-- R262, R275 to R278, R287 to R290, R300, R303, R304, R306 to R309: the commands of a channel reach the unit they name;
loads, runs, reductions, attention, sampling and winnow operations run to their end. -/
def Obligations.SequencerCommandsReachTheirUnit : Prop :=
  SequencerCommandsAreCarriedOut ∧ LoadsAndRunsReachTheirUnit ∧ ReduceRunsToItsEnd ∧ EngineWordsRunToTheirEnd

end
end

