-- ==== Sys2Proof/Laws/Sparse.lean ====
section
/-! SUPPORT. Sparse maps: a read after a write, and the canonical form that a write keeps. -/

namespace Sys2Proof.Machine

variable {α : Type}

@[simp] theorem mget_nil (d : α) (k : Nat) : mget d [] k = d := rfl

theorem mget_merase (d : α) (m : Map α) (k j : Nat) :
    mget d (merase m k) j = if j = k then d else mget d m j := by
  induction m with
  | nil => simp [merase, mget]
  | cons p m ih =>
    obtain ⟨i, v⟩ := p
    by_cases h : k = i <;> by_cases h' : j = i <;> simp_all [merase, mget]
    intro h2; simp_all

theorem mget_mput (d : α) (m : Map α) (k j : Nat) (v : α) (h : ∀ w, (k, w) ∉ m) :
    mget d (mput m k v) j = if j = k then v else mget d m j := by
  induction m with
  | nil => simp [mput, mget]
  | cons p m ih =>
    obtain ⟨i, w⟩ := p
    have hk : k ≠ i := fun e => h w (by simp [e])
    have := ih (fun w hw => h w (List.mem_cons_of_mem _ hw))
    by_cases hlt : k < i
    · simp [mput, hlt, mget]
    · by_cases h' : j = i
      · subst h'; simp [mput, hlt, mget, Ne.symm hk]
      · simp [mput, hlt, mget, h', this]

theorem not_mem_merase (m : Map α) (k : Nat) (w : α) : (k, w) ∉ merase m k := by
  induction m with
  | nil => simp [merase]
  | cons p m ih =>
    obtain ⟨i, v⟩ := p
    by_cases h : k = i <;> simp [merase, h, ih]
    · subst h; exact ih

theorem merase_of_not_mem (m : Map α) (k : Nat) (h : ∀ w, (k, w) ∉ m) : merase m k = m := by
  induction m with
  | nil => rfl
  | cons p m ih =>
    obtain ⟨i, v⟩ := p
    have hk : k ≠ i := fun e => h v (by simp [e])
    simp only [merase, hk, if_false]
    rw [ih fun w hw => h w (List.mem_cons_of_mem _ hw)]

theorem merase_mput (m : Map α) (k : Nat) (v : α) (h : ∀ w, (k, w) ∉ m) : merase (mput m k v) k = m := by
  induction m with
  | nil => simp [mput, merase]
  | cons p m ih =>
    obtain ⟨i, w⟩ := p
    have hk : k ≠ i := fun e => h w (by simp [e])
    have hm : ∀ w, (k, w) ∉ m := fun w hw => h w (List.mem_cons_of_mem _ hw)
    by_cases hlt : k < i
    · simp [mput, hlt, merase, hk, merase_of_not_mem m k hm]
    · simp [mput, hlt, merase, hk, ih hm]

variable [DecidableEq α]

/-- Of two writes at one key the later stands. -/
theorem mset_mset (d : α) (m : Map α) (k : Nat) (v w : α) : mset d (mset d m k v) k w = mset d m k w := by
  have h : merase (mset d m k v) k = merase m k := by
    unfold mset
    split
    · exact merase_of_not_mem _ _ (not_mem_merase m k)
    · exact merase_mput _ _ _ (not_mem_merase m k)
  show (if w = d then merase (mset d m k v) k else mput (merase (mset d m k v) k) k w) = _
  rw [h]; rfl

/-- A read after a write of a map. -/
theorem mget_mset (d : α) (m : Map α) (k j : Nat) (v : α) :
    mget d (mset d m k v) j = if j = k then v else mget d m j := by
  unfold mset
  split
  · next h => simp only [mget_merase, h]
  · rw [mget_mput _ _ _ _ _ (not_mem_merase m k), mget_merase]
    split <;> rfl

@[simp] theorem mget_mset_self (d : α) (m : Map α) (k : Nat) (v : α) : mget d (mset d m k v) k = v := by
  simp [mget_mset]

theorem mget_mset_ne (d : α) (m : Map α) (k j : Nat) (v : α) (h : j ≠ k) : mget d (mset d m k v) j = mget d m j := by
  simp [mget_mset, h]

/-! ### The canonical form -/

/-- Every key of the map is above k. -/
def keysAbove (k : Nat) (m : Map α) : Prop := ∀ p ∈ m, k < p.1

omit [DecidableEq α] in
@[simp] theorem keysAbove_nil (k : Nat) : keysAbove k ([] : Map α) := by simp [keysAbove]

theorem mwf_cons (d : α) (j : Nat) (v : α) (m : Map α) :
    mwf d ((j, v) :: m) = true ↔ v ≠ d ∧ keysAbove j m ∧ mwf d m = true := by
  induction m generalizing j v with
  | nil => simp [mwf]
  | cons p m ih =>
    obtain ⟨i, w⟩ := p
    have := ih i w
    simp only [mwf, Bool.and_eq_true, decide_eq_true_eq, and_assoc]
    constructor
    · rintro ⟨hv, hj, hm⟩
      refine ⟨hv, ?_, hm⟩
      have hi := (this.mp hm).2.1
      intro p hp
      rcases List.mem_cons.mp hp with rfl | hp
      · exact hj
      · exact Nat.lt_trans hj (hi p hp)
    · rintro ⟨hv, hj, hm⟩
      exact ⟨hv, hj (i, w) (by simp), hm⟩

omit [DecidableEq α] in
theorem keysAbove_merase {i k : Nat} {m : Map α} (h : keysAbove i m) : keysAbove i (merase m k) := by
  induction m with
  | nil => simp [merase]
  | cons p m ih =>
    obtain ⟨j, v⟩ := p
    have hm : keysAbove i m := fun q hq => h q (List.mem_cons_of_mem _ hq)
    by_cases hk : k = j
    · simpa [merase, hk] using ih hm
    · simp only [merase, hk, if_false]
      intro q hq
      rcases List.mem_cons.mp hq with rfl | hq
      · exact h (j, v) (by simp)
      · exact ih hm q hq

omit [DecidableEq α] in
theorem keysAbove_mput {i k : Nat} {v : α} {m : Map α} (h : keysAbove i m) (hk : i < k) :
    keysAbove i (mput m k v) := by
  induction m with
  | nil => simpa [mput, keysAbove] using hk
  | cons p m ih =>
    obtain ⟨j, w⟩ := p
    have hm : keysAbove i m := fun q hq => h q (List.mem_cons_of_mem _ hq)
    by_cases hlt : k < j
    · simp only [mput, hlt, if_true]
      intro q hq
      rcases List.mem_cons.mp hq with rfl | hq
      · exact hk
      · exact h q hq
    · simp only [mput, hlt, if_false]
      intro q hq
      rcases List.mem_cons.mp hq with rfl | hq
      · exact h (j, w) (by simp)
      · exact ih hm q hq

theorem mwf_merase {d : α} {m : Map α} (k : Nat) (h : mwf d m = true) : mwf d (merase m k) = true := by
  induction m with
  | nil => simp [merase, mwf]
  | cons p m ih =>
    obtain ⟨j, v⟩ := p
    have h' := (mwf_cons d j v m).mp h
    by_cases hk : k = j
    · simpa [merase, hk] using ih h'.2.2
    · simp only [merase, hk, if_false]
      exact (mwf_cons d j v _).mpr ⟨h'.1, keysAbove_merase h'.2.1, ih h'.2.2⟩

theorem mwf_mput {d : α} {m : Map α} {k : Nat} {v : α} (h : mwf d m = true) (hv : v ≠ d) (hk : ∀ w, (k, w) ∉ m) :
    mwf d (mput m k v) = true := by
  induction m with
  | nil => simp [mput, mwf, hv]
  | cons p m ih =>
    obtain ⟨j, w⟩ := p
    have h' := (mwf_cons d j w m).mp h
    have hne : k ≠ j := fun e => hk w (by simp [e])
    by_cases hlt : k < j
    · simp only [mput, hlt, if_true]
      refine (mwf_cons d k v _).mpr ⟨hv, ?_, h⟩
      intro q hq
      rcases List.mem_cons.mp hq with rfl | hq
      · exact hlt
      · exact Nat.lt_trans hlt (h'.2.1 q hq)
    · simp only [mput, hlt, if_false]
      exact (mwf_cons d j w _).mpr ⟨h'.1, keysAbove_mput h'.2.1 (by omega),
        ih h'.2.2 fun w hw => hk w (List.mem_cons_of_mem _ hw)⟩

/-- A write keeps the canonical form. -/
theorem mwf_mset {d : α} {m : Map α} (k : Nat) (v : α) (h : mwf d m = true) : mwf d (mset d m k v) = true := by
  unfold mset
  split
  · exact mwf_merase k h
  · next hv => exact mwf_mput (mwf_merase k h) hv (not_mem_merase m k)

omit [DecidableEq α] in
theorem keysAbove_filter {k : Nat} {m : Map α} {f : Nat × α → Bool} (h : keysAbove k m) :
    keysAbove k (m.filter f) := fun p hp => h p (List.mem_filter.mp hp).1

/-- Leaving entries out keeps the canonical form. -/
theorem mwf_filter {d : α} {m : Map α} (f : Nat × α → Bool) (h : mwf d m = true) : mwf d (m.filter f) = true := by
  induction m with
  | nil => simp [mwf]
  | cons p m ih =>
    obtain ⟨j, v⟩ := p
    have h' := (mwf_cons d j v m).mp h
    by_cases hf : f (j, v)
    · simp only [List.filter_cons, hf, if_true]
      exact (mwf_cons d j v _).mpr ⟨h'.1, keysAbove_filter h'.2.1, ih h'.2.2⟩
    · simpa [List.filter_cons, hf] using ih h'.2.2

end Sys2Proof.Machine
end

