-- ==== Sys2Proof/Laws/Memory.lean ====
section
/-! SUPPORT. Bytes of memory: a read after a write, what a run of bytes leaves alone, and the canonical form that every
memory operation keeps. -/

namespace Sys2Proof.Machine

theorem byteAt_setByte (m : Memory) (a b : Nat) (v : Byte) :
    byteAt (setByte m a v) b = if b = a then v else byteAt m b := mget_mset _ _ _ _ _

theorem wf_setByte {m : Memory} (a : Nat) (v : Byte) (h : Memory.wf m = true) : Memory.wf (setByte m a v) = true :=
  mwf_mset a v h

theorem wf_writeBytes {m : Memory} (a : Nat) (bs : List Byte) (h : Memory.wf m = true) :
    Memory.wf (writeBytes m a bs) = true := by
  induction bs generalizing m a with
  | nil => exact h
  | cons b bs ih => exact ih (a + 1) (wf_setByte a b h)

theorem wf_writeLe {m : Memory} (a n v : Nat) (h : Memory.wf m = true) : Memory.wf (writeLe m a n v) = true :=
  wf_writeBytes a _ h

/-- What a run of bytes leaves alone, and what it writes. -/
theorem byteAt_writeBytes (m : Memory) (a b : Nat) (bs : List Byte) :
    byteAt (writeBytes m a bs) b = if a ≤ b ∧ b < a + bs.length then bs.getD (b - a) 0 else byteAt m b := by
  induction bs generalizing m a with
  | nil => rw [if_neg (by rw [List.length_nil]; omega)]; rfl
  | cons v bs ih =>
    rw [writeBytes, ih, byteAt_setByte]
    by_cases h : b = a
    · subst h
      rw [if_neg (by omega), if_pos rfl, if_pos (by rw [List.length_cons]; omega), Nat.sub_self]; rfl
    · by_cases h1 : a + 1 ≤ b ∧ b < a + 1 + bs.length
      · have h2 : a ≤ b ∧ b < a + (v :: bs).length := by simp; omega
        have h3 : b - a = (b - (a + 1)) + 1 := by omega
        rw [if_pos h1, if_pos h2, h3]; rfl
      · have h2 : ¬ (a ≤ b ∧ b < a + (v :: bs).length) := by simp; omega
        rw [if_neg h1, if_neg h2, if_neg h]

theorem leBytes_length (v n : Nat) : (leBytes v n).length = n := by
  induction n generalizing v with
  | zero => rfl
  | succ n ih => simp [leBytes, ih]

@[simp] theorem readBytes_length (m : Memory) (a n : Nat) : (readBytes m a n).length = n := by
  induction n generalizing a with
  | zero => rfl
  | succ n ih => simp [readBytes, ih]

/-- The little-endian bytes of a number give the number back. -/
theorem leNat_leBytes (v n : Nat) : leNat (leBytes v n) = v % 256 ^ n := by
  induction n generalizing v with
  | zero => simp [leBytes, leNat, Nat.mod_one]
  | succ n ih =>
    simp only [leBytes, leNat, ih, BitVec.toNat_ofNat]
    rw [show 256 ^ (n + 1) = 256 * 256 ^ n by rw [Nat.pow_succ, Nat.mul_comm], Nat.mod_mul]

/-- A run of bytes just written reads back. -/
theorem readBytes_writeBytes (m : Memory) (a : Nat) (bs : List Byte) : readBytes (writeBytes m a bs) a bs.length = bs := by
  have key : ∀ (n : Nat) (m' : Memory) (b : Nat) (l : List Byte), l.length = n →
      (∀ i, i < n → byteAt m' (b + i) = l.getD i 0) → readBytes m' b n = l := by
    intro n
    induction n with
    | zero => intro m' b l hl _; simpa [readBytes] using (List.length_eq_zero_iff.mp hl).symm
    | succ n ih =>
      intro m' b l hl h
      match l, hl with
      | x :: xs, hl =>
        have h0 := h 0 (by omega)
        have := ih m' (b + 1) xs (by simpa using hl) (fun i hi => by
          have := h (i + 1) (by omega)
          rw [show b + 1 + i = b + (i + 1) by omega, this]; simp)
        simp [readBytes, this] at h0 ⊢
        exact h0
  refine key bs.length _ a bs rfl fun i hi => ?_
  rw [byteAt_writeBytes, if_pos (by omega)]
  simp

end Sys2Proof.Machine
end

