-- ==== Sys2Proof/Laws/State.lean ====
section
/-! SUPPORT. The updates of the state, field by field: each changes the one field it names, and the accessors of the
units read what was written last. -/

namespace Sys2Proof.Machine

/-! ### setSlot -/

@[simp] theorem State.setSlot_z128 (s : State) (k : Nat) (v : Slot) : (s.setSlot k v).z128 = s.z128 := rfl
@[simp] theorem State.setSlot_clk (s : State) (k : Nat) (v : Slot) : (s.setSlot k v).clk = s.clk := rfl
@[simp] theorem State.setSlot_mem (s : State) (k : Nat) (v : Slot) : (s.setSlot k v).mem = s.mem := rfl
@[simp] theorem State.setSlot_flips (s : State) (k : Nat) (v : Slot) : (s.setSlot k v).flips = s.flips := rfl
@[simp] theorem State.setSlot_poison (s : State) (k : Nat) (v : Slot) : (s.setSlot k v).poison = s.poison := rfl
@[simp] theorem State.setSlot_lines (s : State) (k : Nat) (v : Slot) : (s.setSlot k v).lines = s.lines := rfl
@[simp] theorem State.setSlot_dir (s : State) (k : Nat) (v : Slot) : (s.setSlot k v).dir = s.dir := rfl
@[simp] theorem State.setSlot_filt (s : State) (k : Nat) (v : Slot) : (s.setSlot k v).filt = s.filt := rfl
@[simp] theorem State.setSlot_lostReg (s : State) (k : Nat) (v : Slot) : (s.setSlot k v).lostReg = s.lostReg := rfl
@[simp] theorem State.setSlot_offers (s : State) (k : Nat) (v : Slot) : (s.setSlot k v).offers = s.offers := rfl
@[simp] theorem State.setSlot_cores (s : State) (k : Nat) (v : Slot) : (s.setSlot k v).cores = s.cores := rfl
@[simp] theorem State.setSlot_clusters (s : State) (k : Nat) (v : Slot) : (s.setSlot k v).clusters = s.clusters := rfl
@[simp] theorem State.setSlot_gctx (s : State) (k : Nat) (v : Slot) : (s.setSlot k v).gctx = s.gctx := rfl
@[simp] theorem State.setSlot_nbus (s : State) (k : Nat) (v : Slot) : (s.setSlot k v).nbus = s.nbus := rfl
@[simp] theorem State.setSlot_mcs (s : State) (k : Nat) (v : Slot) : (s.setSlot k v).mcs = s.mcs := rfl
@[simp] theorem State.setSlot_eops (s : State) (k : Nat) (v : Slot) : (s.setSlot k v).eops = s.eops := rfl
@[simp] theorem State.setSlot_nextEop (s : State) (k : Nat) (v : Slot) : (s.setSlot k v).nextEop = s.nextEop := rfl
@[simp] theorem State.setSlot_redQ (s : State) (k : Nat) (v : Slot) : (s.setSlot k v).redQ = s.redQ := rfl
@[simp] theorem State.setSlot_sampQ (s : State) (k : Nat) (v : Slot) : (s.setSlot k v).sampQ = s.sampQ := rfl
@[simp] theorem State.setSlot_winQ (s : State) (k : Nat) (v : Slot) : (s.setSlot k v).winQ = s.winQ := rfl
@[simp] theorem State.setSlot_grams (s : State) (k : Nat) (v : Slot) : (s.setSlot k v).grams = s.grams := rfl
@[simp] theorem State.setSlot_wctx (s : State) (k : Nat) (v : Slot) : (s.setSlot k v).wctx = s.wctx := rfl
@[simp] theorem State.setSlot_mcache (s : State) (k : Nat) (v : Slot) : (s.setSlot k v).mcache = s.mcache := rfl
@[simp] theorem State.setSlot_tlbs (s : State) (k : Nat) (v : Slot) : (s.setSlot k v).tlbs = s.tlbs := rfl
@[simp] theorem State.setSlot_tinv (s : State) (k : Nat) (v : Slot) : (s.setSlot k v).tinv = s.tinv := rfl
@[simp] theorem State.setSlot_nextMiss (s : State) (k : Nat) (v : Slot) : (s.setSlot k v).nextMiss = s.nextMiss := rfl
@[simp] theorem State.setSlot_walkStop (s : State) (k : Nat) (v : Slot) : (s.setSlot k v).walkStop = s.walkStop := rfl
@[simp] theorem State.setSlot_tinvCmd (s : State) (k : Nat) (v : Slot) : (s.setSlot k v).tinvCmd = s.tinvCmd := rfl
@[simp] theorem State.setSlot_tgu (s : State) (k : Nat) (v : Slot) : (s.setSlot k v).tgu = s.tgu := rfl
@[simp] theorem State.setSlot_layout (s : State) (k : Nat) (v : Slot) : (s.setSlot k v).layout = s.layout := rfl
@[simp] theorem State.setSlot_fq (s : State) (k : Nat) (v : Slot) : (s.setSlot k v).fq = s.fq := rfl
@[simp] theorem State.setSlot_priv (s : State) (k : Nat) (v : Slot) : (s.setSlot k v).priv = s.priv := rfl
@[simp] theorem State.setSlot_pkg (s : State) (k : Nat) (v : Slot) : (s.setSlot k v).pkg = s.pkg := rfl
@[simp] theorem State.setSlot_mgmt (s : State) (k : Nat) (v : Slot) : (s.setSlot k v).mgmt = s.mgmt := rfl
@[simp] theorem State.setSlot_sched (s : State) (k : Nat) (v : Slot) : (s.setSlot k v).sched = s.sched := rfl
@[simp] theorem State.setSlot_choice (s : State) (k : Nat) (v : Slot) : (s.setSlot k v).choice = s.choice := rfl
@[simp] theorem State.setSlot_free (s : State) (k : Nat) (v : Slot) : (s.setSlot k v).free = s.free := rfl
@[simp] theorem State.setSlot_sel (s : State) (k : Nat) (v : Slot) : (s.setSlot k v).sel = s.sel := rfl

/-! ### setCore -/

@[simp] theorem State.setCore_z128 (s : State) (k : Nat) (v : Core) : (s.setCore k v).z128 = s.z128 := rfl
@[simp] theorem State.setCore_clk (s : State) (k : Nat) (v : Core) : (s.setCore k v).clk = s.clk := rfl
@[simp] theorem State.setCore_mem (s : State) (k : Nat) (v : Core) : (s.setCore k v).mem = s.mem := rfl
@[simp] theorem State.setCore_flips (s : State) (k : Nat) (v : Core) : (s.setCore k v).flips = s.flips := rfl
@[simp] theorem State.setCore_poison (s : State) (k : Nat) (v : Core) : (s.setCore k v).poison = s.poison := rfl
@[simp] theorem State.setCore_lines (s : State) (k : Nat) (v : Core) : (s.setCore k v).lines = s.lines := rfl
@[simp] theorem State.setCore_dir (s : State) (k : Nat) (v : Core) : (s.setCore k v).dir = s.dir := rfl
@[simp] theorem State.setCore_filt (s : State) (k : Nat) (v : Core) : (s.setCore k v).filt = s.filt := rfl
@[simp] theorem State.setCore_lostReg (s : State) (k : Nat) (v : Core) : (s.setCore k v).lostReg = s.lostReg := rfl
@[simp] theorem State.setCore_offers (s : State) (k : Nat) (v : Core) : (s.setCore k v).offers = s.offers := rfl
@[simp] theorem State.setCore_slots (s : State) (k : Nat) (v : Core) : (s.setCore k v).slots = s.slots := rfl
@[simp] theorem State.setCore_clusters (s : State) (k : Nat) (v : Core) : (s.setCore k v).clusters = s.clusters := rfl
@[simp] theorem State.setCore_gctx (s : State) (k : Nat) (v : Core) : (s.setCore k v).gctx = s.gctx := rfl
@[simp] theorem State.setCore_nbus (s : State) (k : Nat) (v : Core) : (s.setCore k v).nbus = s.nbus := rfl
@[simp] theorem State.setCore_mcs (s : State) (k : Nat) (v : Core) : (s.setCore k v).mcs = s.mcs := rfl
@[simp] theorem State.setCore_eops (s : State) (k : Nat) (v : Core) : (s.setCore k v).eops = s.eops := rfl
@[simp] theorem State.setCore_nextEop (s : State) (k : Nat) (v : Core) : (s.setCore k v).nextEop = s.nextEop := rfl
@[simp] theorem State.setCore_redQ (s : State) (k : Nat) (v : Core) : (s.setCore k v).redQ = s.redQ := rfl
@[simp] theorem State.setCore_sampQ (s : State) (k : Nat) (v : Core) : (s.setCore k v).sampQ = s.sampQ := rfl
@[simp] theorem State.setCore_winQ (s : State) (k : Nat) (v : Core) : (s.setCore k v).winQ = s.winQ := rfl
@[simp] theorem State.setCore_grams (s : State) (k : Nat) (v : Core) : (s.setCore k v).grams = s.grams := rfl
@[simp] theorem State.setCore_wctx (s : State) (k : Nat) (v : Core) : (s.setCore k v).wctx = s.wctx := rfl
@[simp] theorem State.setCore_mcache (s : State) (k : Nat) (v : Core) : (s.setCore k v).mcache = s.mcache := rfl
@[simp] theorem State.setCore_tlbs (s : State) (k : Nat) (v : Core) : (s.setCore k v).tlbs = s.tlbs := rfl
@[simp] theorem State.setCore_tinv (s : State) (k : Nat) (v : Core) : (s.setCore k v).tinv = s.tinv := rfl
@[simp] theorem State.setCore_nextMiss (s : State) (k : Nat) (v : Core) : (s.setCore k v).nextMiss = s.nextMiss := rfl
@[simp] theorem State.setCore_walkStop (s : State) (k : Nat) (v : Core) : (s.setCore k v).walkStop = s.walkStop := rfl
@[simp] theorem State.setCore_tinvCmd (s : State) (k : Nat) (v : Core) : (s.setCore k v).tinvCmd = s.tinvCmd := rfl
@[simp] theorem State.setCore_tgu (s : State) (k : Nat) (v : Core) : (s.setCore k v).tgu = s.tgu := rfl
@[simp] theorem State.setCore_layout (s : State) (k : Nat) (v : Core) : (s.setCore k v).layout = s.layout := rfl
@[simp] theorem State.setCore_fq (s : State) (k : Nat) (v : Core) : (s.setCore k v).fq = s.fq := rfl
@[simp] theorem State.setCore_priv (s : State) (k : Nat) (v : Core) : (s.setCore k v).priv = s.priv := rfl
@[simp] theorem State.setCore_pkg (s : State) (k : Nat) (v : Core) : (s.setCore k v).pkg = s.pkg := rfl
@[simp] theorem State.setCore_mgmt (s : State) (k : Nat) (v : Core) : (s.setCore k v).mgmt = s.mgmt := rfl
@[simp] theorem State.setCore_sched (s : State) (k : Nat) (v : Core) : (s.setCore k v).sched = s.sched := rfl
@[simp] theorem State.setCore_choice (s : State) (k : Nat) (v : Core) : (s.setCore k v).choice = s.choice := rfl
@[simp] theorem State.setCore_free (s : State) (k : Nat) (v : Core) : (s.setCore k v).free = s.free := rfl
@[simp] theorem State.setCore_sel (s : State) (k : Nat) (v : Core) : (s.setCore k v).sel = s.sel := rfl

/-! ### setCluster -/

@[simp] theorem State.setCluster_z128 (s : State) (k : Nat) (v : Cluster) : (s.setCluster k v).z128 = s.z128 := rfl
@[simp] theorem State.setCluster_clk (s : State) (k : Nat) (v : Cluster) : (s.setCluster k v).clk = s.clk := rfl
@[simp] theorem State.setCluster_mem (s : State) (k : Nat) (v : Cluster) : (s.setCluster k v).mem = s.mem := rfl
@[simp] theorem State.setCluster_flips (s : State) (k : Nat) (v : Cluster) : (s.setCluster k v).flips = s.flips := rfl
@[simp] theorem State.setCluster_poison (s : State) (k : Nat) (v : Cluster) : (s.setCluster k v).poison = s.poison := rfl
@[simp] theorem State.setCluster_lines (s : State) (k : Nat) (v : Cluster) : (s.setCluster k v).lines = s.lines := rfl
@[simp] theorem State.setCluster_dir (s : State) (k : Nat) (v : Cluster) : (s.setCluster k v).dir = s.dir := rfl
@[simp] theorem State.setCluster_filt (s : State) (k : Nat) (v : Cluster) : (s.setCluster k v).filt = s.filt := rfl
@[simp] theorem State.setCluster_lostReg (s : State) (k : Nat) (v : Cluster) : (s.setCluster k v).lostReg = s.lostReg := rfl
@[simp] theorem State.setCluster_offers (s : State) (k : Nat) (v : Cluster) : (s.setCluster k v).offers = s.offers := rfl
@[simp] theorem State.setCluster_slots (s : State) (k : Nat) (v : Cluster) : (s.setCluster k v).slots = s.slots := rfl
@[simp] theorem State.setCluster_cores (s : State) (k : Nat) (v : Cluster) : (s.setCluster k v).cores = s.cores := rfl
@[simp] theorem State.setCluster_gctx (s : State) (k : Nat) (v : Cluster) : (s.setCluster k v).gctx = s.gctx := rfl
@[simp] theorem State.setCluster_nbus (s : State) (k : Nat) (v : Cluster) : (s.setCluster k v).nbus = s.nbus := rfl
@[simp] theorem State.setCluster_mcs (s : State) (k : Nat) (v : Cluster) : (s.setCluster k v).mcs = s.mcs := rfl
@[simp] theorem State.setCluster_eops (s : State) (k : Nat) (v : Cluster) : (s.setCluster k v).eops = s.eops := rfl
@[simp] theorem State.setCluster_nextEop (s : State) (k : Nat) (v : Cluster) : (s.setCluster k v).nextEop = s.nextEop := rfl
@[simp] theorem State.setCluster_redQ (s : State) (k : Nat) (v : Cluster) : (s.setCluster k v).redQ = s.redQ := rfl
@[simp] theorem State.setCluster_sampQ (s : State) (k : Nat) (v : Cluster) : (s.setCluster k v).sampQ = s.sampQ := rfl
@[simp] theorem State.setCluster_winQ (s : State) (k : Nat) (v : Cluster) : (s.setCluster k v).winQ = s.winQ := rfl
@[simp] theorem State.setCluster_grams (s : State) (k : Nat) (v : Cluster) : (s.setCluster k v).grams = s.grams := rfl
@[simp] theorem State.setCluster_wctx (s : State) (k : Nat) (v : Cluster) : (s.setCluster k v).wctx = s.wctx := rfl
@[simp] theorem State.setCluster_mcache (s : State) (k : Nat) (v : Cluster) : (s.setCluster k v).mcache = s.mcache := rfl
@[simp] theorem State.setCluster_tlbs (s : State) (k : Nat) (v : Cluster) : (s.setCluster k v).tlbs = s.tlbs := rfl
@[simp] theorem State.setCluster_tinv (s : State) (k : Nat) (v : Cluster) : (s.setCluster k v).tinv = s.tinv := rfl
@[simp] theorem State.setCluster_nextMiss (s : State) (k : Nat) (v : Cluster) : (s.setCluster k v).nextMiss = s.nextMiss := rfl
@[simp] theorem State.setCluster_walkStop (s : State) (k : Nat) (v : Cluster) : (s.setCluster k v).walkStop = s.walkStop := rfl
@[simp] theorem State.setCluster_tinvCmd (s : State) (k : Nat) (v : Cluster) : (s.setCluster k v).tinvCmd = s.tinvCmd := rfl
@[simp] theorem State.setCluster_tgu (s : State) (k : Nat) (v : Cluster) : (s.setCluster k v).tgu = s.tgu := rfl
@[simp] theorem State.setCluster_layout (s : State) (k : Nat) (v : Cluster) : (s.setCluster k v).layout = s.layout := rfl
@[simp] theorem State.setCluster_fq (s : State) (k : Nat) (v : Cluster) : (s.setCluster k v).fq = s.fq := rfl
@[simp] theorem State.setCluster_priv (s : State) (k : Nat) (v : Cluster) : (s.setCluster k v).priv = s.priv := rfl
@[simp] theorem State.setCluster_pkg (s : State) (k : Nat) (v : Cluster) : (s.setCluster k v).pkg = s.pkg := rfl
@[simp] theorem State.setCluster_mgmt (s : State) (k : Nat) (v : Cluster) : (s.setCluster k v).mgmt = s.mgmt := rfl
@[simp] theorem State.setCluster_sched (s : State) (k : Nat) (v : Cluster) : (s.setCluster k v).sched = s.sched := rfl
@[simp] theorem State.setCluster_choice (s : State) (k : Nat) (v : Cluster) : (s.setCluster k v).choice = s.choice := rfl
@[simp] theorem State.setCluster_free (s : State) (k : Nat) (v : Cluster) : (s.setCluster k v).free = s.free := rfl
@[simp] theorem State.setCluster_sel (s : State) (k : Nat) (v : Cluster) : (s.setCluster k v).sel = s.sel := rfl

/-! ### setCtx -/

@[simp] theorem State.setCtx_z128 (s : State) (k : Nat) (v : GCtx) : (s.setCtx k v).z128 = s.z128 := rfl
@[simp] theorem State.setCtx_clk (s : State) (k : Nat) (v : GCtx) : (s.setCtx k v).clk = s.clk := rfl
@[simp] theorem State.setCtx_mem (s : State) (k : Nat) (v : GCtx) : (s.setCtx k v).mem = s.mem := rfl
@[simp] theorem State.setCtx_flips (s : State) (k : Nat) (v : GCtx) : (s.setCtx k v).flips = s.flips := rfl
@[simp] theorem State.setCtx_poison (s : State) (k : Nat) (v : GCtx) : (s.setCtx k v).poison = s.poison := rfl
@[simp] theorem State.setCtx_lines (s : State) (k : Nat) (v : GCtx) : (s.setCtx k v).lines = s.lines := rfl
@[simp] theorem State.setCtx_dir (s : State) (k : Nat) (v : GCtx) : (s.setCtx k v).dir = s.dir := rfl
@[simp] theorem State.setCtx_filt (s : State) (k : Nat) (v : GCtx) : (s.setCtx k v).filt = s.filt := rfl
@[simp] theorem State.setCtx_lostReg (s : State) (k : Nat) (v : GCtx) : (s.setCtx k v).lostReg = s.lostReg := rfl
@[simp] theorem State.setCtx_offers (s : State) (k : Nat) (v : GCtx) : (s.setCtx k v).offers = s.offers := rfl
@[simp] theorem State.setCtx_slots (s : State) (k : Nat) (v : GCtx) : (s.setCtx k v).slots = s.slots := rfl
@[simp] theorem State.setCtx_cores (s : State) (k : Nat) (v : GCtx) : (s.setCtx k v).cores = s.cores := rfl
@[simp] theorem State.setCtx_clusters (s : State) (k : Nat) (v : GCtx) : (s.setCtx k v).clusters = s.clusters := rfl
@[simp] theorem State.setCtx_nbus (s : State) (k : Nat) (v : GCtx) : (s.setCtx k v).nbus = s.nbus := rfl
@[simp] theorem State.setCtx_mcs (s : State) (k : Nat) (v : GCtx) : (s.setCtx k v).mcs = s.mcs := rfl
@[simp] theorem State.setCtx_eops (s : State) (k : Nat) (v : GCtx) : (s.setCtx k v).eops = s.eops := rfl
@[simp] theorem State.setCtx_nextEop (s : State) (k : Nat) (v : GCtx) : (s.setCtx k v).nextEop = s.nextEop := rfl
@[simp] theorem State.setCtx_redQ (s : State) (k : Nat) (v : GCtx) : (s.setCtx k v).redQ = s.redQ := rfl
@[simp] theorem State.setCtx_sampQ (s : State) (k : Nat) (v : GCtx) : (s.setCtx k v).sampQ = s.sampQ := rfl
@[simp] theorem State.setCtx_winQ (s : State) (k : Nat) (v : GCtx) : (s.setCtx k v).winQ = s.winQ := rfl
@[simp] theorem State.setCtx_grams (s : State) (k : Nat) (v : GCtx) : (s.setCtx k v).grams = s.grams := rfl
@[simp] theorem State.setCtx_wctx (s : State) (k : Nat) (v : GCtx) : (s.setCtx k v).wctx = s.wctx := rfl
@[simp] theorem State.setCtx_mcache (s : State) (k : Nat) (v : GCtx) : (s.setCtx k v).mcache = s.mcache := rfl
@[simp] theorem State.setCtx_tlbs (s : State) (k : Nat) (v : GCtx) : (s.setCtx k v).tlbs = s.tlbs := rfl
@[simp] theorem State.setCtx_tinv (s : State) (k : Nat) (v : GCtx) : (s.setCtx k v).tinv = s.tinv := rfl
@[simp] theorem State.setCtx_nextMiss (s : State) (k : Nat) (v : GCtx) : (s.setCtx k v).nextMiss = s.nextMiss := rfl
@[simp] theorem State.setCtx_walkStop (s : State) (k : Nat) (v : GCtx) : (s.setCtx k v).walkStop = s.walkStop := rfl
@[simp] theorem State.setCtx_tinvCmd (s : State) (k : Nat) (v : GCtx) : (s.setCtx k v).tinvCmd = s.tinvCmd := rfl
@[simp] theorem State.setCtx_tgu (s : State) (k : Nat) (v : GCtx) : (s.setCtx k v).tgu = s.tgu := rfl
@[simp] theorem State.setCtx_layout (s : State) (k : Nat) (v : GCtx) : (s.setCtx k v).layout = s.layout := rfl
@[simp] theorem State.setCtx_fq (s : State) (k : Nat) (v : GCtx) : (s.setCtx k v).fq = s.fq := rfl
@[simp] theorem State.setCtx_priv (s : State) (k : Nat) (v : GCtx) : (s.setCtx k v).priv = s.priv := rfl
@[simp] theorem State.setCtx_pkg (s : State) (k : Nat) (v : GCtx) : (s.setCtx k v).pkg = s.pkg := rfl
@[simp] theorem State.setCtx_mgmt (s : State) (k : Nat) (v : GCtx) : (s.setCtx k v).mgmt = s.mgmt := rfl
@[simp] theorem State.setCtx_sched (s : State) (k : Nat) (v : GCtx) : (s.setCtx k v).sched = s.sched := rfl
@[simp] theorem State.setCtx_choice (s : State) (k : Nat) (v : GCtx) : (s.setCtx k v).choice = s.choice := rfl
@[simp] theorem State.setCtx_free (s : State) (k : Nat) (v : GCtx) : (s.setCtx k v).free = s.free := rfl
@[simp] theorem State.setCtx_sel (s : State) (k : Nat) (v : GCtx) : (s.setCtx k v).sel = s.sel := rfl

/-! ### setNbu -/

@[simp] theorem State.setNbu_z128 (s : State) (k : Nat) (v : Nbu) : (s.setNbu k v).z128 = s.z128 := rfl
@[simp] theorem State.setNbu_clk (s : State) (k : Nat) (v : Nbu) : (s.setNbu k v).clk = s.clk := rfl
@[simp] theorem State.setNbu_mem (s : State) (k : Nat) (v : Nbu) : (s.setNbu k v).mem = s.mem := rfl
@[simp] theorem State.setNbu_flips (s : State) (k : Nat) (v : Nbu) : (s.setNbu k v).flips = s.flips := rfl
@[simp] theorem State.setNbu_poison (s : State) (k : Nat) (v : Nbu) : (s.setNbu k v).poison = s.poison := rfl
@[simp] theorem State.setNbu_lines (s : State) (k : Nat) (v : Nbu) : (s.setNbu k v).lines = s.lines := rfl
@[simp] theorem State.setNbu_dir (s : State) (k : Nat) (v : Nbu) : (s.setNbu k v).dir = s.dir := rfl
@[simp] theorem State.setNbu_filt (s : State) (k : Nat) (v : Nbu) : (s.setNbu k v).filt = s.filt := rfl
@[simp] theorem State.setNbu_lostReg (s : State) (k : Nat) (v : Nbu) : (s.setNbu k v).lostReg = s.lostReg := rfl
@[simp] theorem State.setNbu_offers (s : State) (k : Nat) (v : Nbu) : (s.setNbu k v).offers = s.offers := rfl
@[simp] theorem State.setNbu_slots (s : State) (k : Nat) (v : Nbu) : (s.setNbu k v).slots = s.slots := rfl
@[simp] theorem State.setNbu_cores (s : State) (k : Nat) (v : Nbu) : (s.setNbu k v).cores = s.cores := rfl
@[simp] theorem State.setNbu_clusters (s : State) (k : Nat) (v : Nbu) : (s.setNbu k v).clusters = s.clusters := rfl
@[simp] theorem State.setNbu_gctx (s : State) (k : Nat) (v : Nbu) : (s.setNbu k v).gctx = s.gctx := rfl
@[simp] theorem State.setNbu_mcs (s : State) (k : Nat) (v : Nbu) : (s.setNbu k v).mcs = s.mcs := rfl
@[simp] theorem State.setNbu_eops (s : State) (k : Nat) (v : Nbu) : (s.setNbu k v).eops = s.eops := rfl
@[simp] theorem State.setNbu_nextEop (s : State) (k : Nat) (v : Nbu) : (s.setNbu k v).nextEop = s.nextEop := rfl
@[simp] theorem State.setNbu_redQ (s : State) (k : Nat) (v : Nbu) : (s.setNbu k v).redQ = s.redQ := rfl
@[simp] theorem State.setNbu_sampQ (s : State) (k : Nat) (v : Nbu) : (s.setNbu k v).sampQ = s.sampQ := rfl
@[simp] theorem State.setNbu_winQ (s : State) (k : Nat) (v : Nbu) : (s.setNbu k v).winQ = s.winQ := rfl
@[simp] theorem State.setNbu_grams (s : State) (k : Nat) (v : Nbu) : (s.setNbu k v).grams = s.grams := rfl
@[simp] theorem State.setNbu_wctx (s : State) (k : Nat) (v : Nbu) : (s.setNbu k v).wctx = s.wctx := rfl
@[simp] theorem State.setNbu_mcache (s : State) (k : Nat) (v : Nbu) : (s.setNbu k v).mcache = s.mcache := rfl
@[simp] theorem State.setNbu_tlbs (s : State) (k : Nat) (v : Nbu) : (s.setNbu k v).tlbs = s.tlbs := rfl
@[simp] theorem State.setNbu_tinv (s : State) (k : Nat) (v : Nbu) : (s.setNbu k v).tinv = s.tinv := rfl
@[simp] theorem State.setNbu_nextMiss (s : State) (k : Nat) (v : Nbu) : (s.setNbu k v).nextMiss = s.nextMiss := rfl
@[simp] theorem State.setNbu_walkStop (s : State) (k : Nat) (v : Nbu) : (s.setNbu k v).walkStop = s.walkStop := rfl
@[simp] theorem State.setNbu_tinvCmd (s : State) (k : Nat) (v : Nbu) : (s.setNbu k v).tinvCmd = s.tinvCmd := rfl
@[simp] theorem State.setNbu_tgu (s : State) (k : Nat) (v : Nbu) : (s.setNbu k v).tgu = s.tgu := rfl
@[simp] theorem State.setNbu_layout (s : State) (k : Nat) (v : Nbu) : (s.setNbu k v).layout = s.layout := rfl
@[simp] theorem State.setNbu_fq (s : State) (k : Nat) (v : Nbu) : (s.setNbu k v).fq = s.fq := rfl
@[simp] theorem State.setNbu_priv (s : State) (k : Nat) (v : Nbu) : (s.setNbu k v).priv = s.priv := rfl
@[simp] theorem State.setNbu_pkg (s : State) (k : Nat) (v : Nbu) : (s.setNbu k v).pkg = s.pkg := rfl
@[simp] theorem State.setNbu_mgmt (s : State) (k : Nat) (v : Nbu) : (s.setNbu k v).mgmt = s.mgmt := rfl
@[simp] theorem State.setNbu_sched (s : State) (k : Nat) (v : Nbu) : (s.setNbu k v).sched = s.sched := rfl
@[simp] theorem State.setNbu_choice (s : State) (k : Nat) (v : Nbu) : (s.setNbu k v).choice = s.choice := rfl
@[simp] theorem State.setNbu_free (s : State) (k : Nat) (v : Nbu) : (s.setNbu k v).free = s.free := rfl
@[simp] theorem State.setNbu_sel (s : State) (k : Nat) (v : Nbu) : (s.setNbu k v).sel = s.sel := rfl

/-! ### setChan -/

@[simp] theorem State.setChan_z128 (s : State) (k : Nat) (v : Mcs) : (s.setChan k v).z128 = s.z128 := rfl
@[simp] theorem State.setChan_clk (s : State) (k : Nat) (v : Mcs) : (s.setChan k v).clk = s.clk := rfl
@[simp] theorem State.setChan_mem (s : State) (k : Nat) (v : Mcs) : (s.setChan k v).mem = s.mem := rfl
@[simp] theorem State.setChan_flips (s : State) (k : Nat) (v : Mcs) : (s.setChan k v).flips = s.flips := rfl
@[simp] theorem State.setChan_poison (s : State) (k : Nat) (v : Mcs) : (s.setChan k v).poison = s.poison := rfl
@[simp] theorem State.setChan_lines (s : State) (k : Nat) (v : Mcs) : (s.setChan k v).lines = s.lines := rfl
@[simp] theorem State.setChan_dir (s : State) (k : Nat) (v : Mcs) : (s.setChan k v).dir = s.dir := rfl
@[simp] theorem State.setChan_filt (s : State) (k : Nat) (v : Mcs) : (s.setChan k v).filt = s.filt := rfl
@[simp] theorem State.setChan_lostReg (s : State) (k : Nat) (v : Mcs) : (s.setChan k v).lostReg = s.lostReg := rfl
@[simp] theorem State.setChan_offers (s : State) (k : Nat) (v : Mcs) : (s.setChan k v).offers = s.offers := rfl
@[simp] theorem State.setChan_slots (s : State) (k : Nat) (v : Mcs) : (s.setChan k v).slots = s.slots := rfl
@[simp] theorem State.setChan_cores (s : State) (k : Nat) (v : Mcs) : (s.setChan k v).cores = s.cores := rfl
@[simp] theorem State.setChan_clusters (s : State) (k : Nat) (v : Mcs) : (s.setChan k v).clusters = s.clusters := rfl
@[simp] theorem State.setChan_gctx (s : State) (k : Nat) (v : Mcs) : (s.setChan k v).gctx = s.gctx := rfl
@[simp] theorem State.setChan_nbus (s : State) (k : Nat) (v : Mcs) : (s.setChan k v).nbus = s.nbus := rfl
@[simp] theorem State.setChan_eops (s : State) (k : Nat) (v : Mcs) : (s.setChan k v).eops = s.eops := rfl
@[simp] theorem State.setChan_nextEop (s : State) (k : Nat) (v : Mcs) : (s.setChan k v).nextEop = s.nextEop := rfl
@[simp] theorem State.setChan_redQ (s : State) (k : Nat) (v : Mcs) : (s.setChan k v).redQ = s.redQ := rfl
@[simp] theorem State.setChan_sampQ (s : State) (k : Nat) (v : Mcs) : (s.setChan k v).sampQ = s.sampQ := rfl
@[simp] theorem State.setChan_winQ (s : State) (k : Nat) (v : Mcs) : (s.setChan k v).winQ = s.winQ := rfl
@[simp] theorem State.setChan_grams (s : State) (k : Nat) (v : Mcs) : (s.setChan k v).grams = s.grams := rfl
@[simp] theorem State.setChan_wctx (s : State) (k : Nat) (v : Mcs) : (s.setChan k v).wctx = s.wctx := rfl
@[simp] theorem State.setChan_mcache (s : State) (k : Nat) (v : Mcs) : (s.setChan k v).mcache = s.mcache := rfl
@[simp] theorem State.setChan_tlbs (s : State) (k : Nat) (v : Mcs) : (s.setChan k v).tlbs = s.tlbs := rfl
@[simp] theorem State.setChan_tinv (s : State) (k : Nat) (v : Mcs) : (s.setChan k v).tinv = s.tinv := rfl
@[simp] theorem State.setChan_nextMiss (s : State) (k : Nat) (v : Mcs) : (s.setChan k v).nextMiss = s.nextMiss := rfl
@[simp] theorem State.setChan_walkStop (s : State) (k : Nat) (v : Mcs) : (s.setChan k v).walkStop = s.walkStop := rfl
@[simp] theorem State.setChan_tinvCmd (s : State) (k : Nat) (v : Mcs) : (s.setChan k v).tinvCmd = s.tinvCmd := rfl
@[simp] theorem State.setChan_tgu (s : State) (k : Nat) (v : Mcs) : (s.setChan k v).tgu = s.tgu := rfl
@[simp] theorem State.setChan_layout (s : State) (k : Nat) (v : Mcs) : (s.setChan k v).layout = s.layout := rfl
@[simp] theorem State.setChan_fq (s : State) (k : Nat) (v : Mcs) : (s.setChan k v).fq = s.fq := rfl
@[simp] theorem State.setChan_priv (s : State) (k : Nat) (v : Mcs) : (s.setChan k v).priv = s.priv := rfl
@[simp] theorem State.setChan_pkg (s : State) (k : Nat) (v : Mcs) : (s.setChan k v).pkg = s.pkg := rfl
@[simp] theorem State.setChan_mgmt (s : State) (k : Nat) (v : Mcs) : (s.setChan k v).mgmt = s.mgmt := rfl
@[simp] theorem State.setChan_sched (s : State) (k : Nat) (v : Mcs) : (s.setChan k v).sched = s.sched := rfl
@[simp] theorem State.setChan_choice (s : State) (k : Nat) (v : Mcs) : (s.setChan k v).choice = s.choice := rfl
@[simp] theorem State.setChan_free (s : State) (k : Nat) (v : Mcs) : (s.setChan k v).free = s.free := rfl
@[simp] theorem State.setChan_sel (s : State) (k : Nat) (v : Mcs) : (s.setChan k v).sel = s.sel := rfl

/-! ### setInst -/

@[simp] theorem State.setInst_z128 (s : State) (k : Nat) (v : Inst) : (s.setInst k v).z128 = s.z128 := rfl
@[simp] theorem State.setInst_clk (s : State) (k : Nat) (v : Inst) : (s.setInst k v).clk = s.clk := rfl
@[simp] theorem State.setInst_mem (s : State) (k : Nat) (v : Inst) : (s.setInst k v).mem = s.mem := rfl
@[simp] theorem State.setInst_flips (s : State) (k : Nat) (v : Inst) : (s.setInst k v).flips = s.flips := rfl
@[simp] theorem State.setInst_poison (s : State) (k : Nat) (v : Inst) : (s.setInst k v).poison = s.poison := rfl
@[simp] theorem State.setInst_lines (s : State) (k : Nat) (v : Inst) : (s.setInst k v).lines = s.lines := rfl
@[simp] theorem State.setInst_dir (s : State) (k : Nat) (v : Inst) : (s.setInst k v).dir = s.dir := rfl
@[simp] theorem State.setInst_filt (s : State) (k : Nat) (v : Inst) : (s.setInst k v).filt = s.filt := rfl
@[simp] theorem State.setInst_lostReg (s : State) (k : Nat) (v : Inst) : (s.setInst k v).lostReg = s.lostReg := rfl
@[simp] theorem State.setInst_offers (s : State) (k : Nat) (v : Inst) : (s.setInst k v).offers = s.offers := rfl
@[simp] theorem State.setInst_slots (s : State) (k : Nat) (v : Inst) : (s.setInst k v).slots = s.slots := rfl
@[simp] theorem State.setInst_cores (s : State) (k : Nat) (v : Inst) : (s.setInst k v).cores = s.cores := rfl
@[simp] theorem State.setInst_clusters (s : State) (k : Nat) (v : Inst) : (s.setInst k v).clusters = s.clusters := rfl
@[simp] theorem State.setInst_gctx (s : State) (k : Nat) (v : Inst) : (s.setInst k v).gctx = s.gctx := rfl
@[simp] theorem State.setInst_nbus (s : State) (k : Nat) (v : Inst) : (s.setInst k v).nbus = s.nbus := rfl
@[simp] theorem State.setInst_mcs (s : State) (k : Nat) (v : Inst) : (s.setInst k v).mcs = s.mcs := rfl
@[simp] theorem State.setInst_eops (s : State) (k : Nat) (v : Inst) : (s.setInst k v).eops = s.eops := rfl
@[simp] theorem State.setInst_nextEop (s : State) (k : Nat) (v : Inst) : (s.setInst k v).nextEop = s.nextEop := rfl
@[simp] theorem State.setInst_redQ (s : State) (k : Nat) (v : Inst) : (s.setInst k v).redQ = s.redQ := rfl
@[simp] theorem State.setInst_sampQ (s : State) (k : Nat) (v : Inst) : (s.setInst k v).sampQ = s.sampQ := rfl
@[simp] theorem State.setInst_winQ (s : State) (k : Nat) (v : Inst) : (s.setInst k v).winQ = s.winQ := rfl
@[simp] theorem State.setInst_grams (s : State) (k : Nat) (v : Inst) : (s.setInst k v).grams = s.grams := rfl
@[simp] theorem State.setInst_wctx (s : State) (k : Nat) (v : Inst) : (s.setInst k v).wctx = s.wctx := rfl
@[simp] theorem State.setInst_mcache (s : State) (k : Nat) (v : Inst) : (s.setInst k v).mcache = s.mcache := rfl
@[simp] theorem State.setInst_tlbs (s : State) (k : Nat) (v : Inst) : (s.setInst k v).tlbs = s.tlbs := rfl
@[simp] theorem State.setInst_tinv (s : State) (k : Nat) (v : Inst) : (s.setInst k v).tinv = s.tinv := rfl
@[simp] theorem State.setInst_nextMiss (s : State) (k : Nat) (v : Inst) : (s.setInst k v).nextMiss = s.nextMiss := rfl
@[simp] theorem State.setInst_walkStop (s : State) (k : Nat) (v : Inst) : (s.setInst k v).walkStop = s.walkStop := rfl
@[simp] theorem State.setInst_tinvCmd (s : State) (k : Nat) (v : Inst) : (s.setInst k v).tinvCmd = s.tinvCmd := rfl
@[simp] theorem State.setInst_layout (s : State) (k : Nat) (v : Inst) : (s.setInst k v).layout = s.layout := rfl
@[simp] theorem State.setInst_fq (s : State) (k : Nat) (v : Inst) : (s.setInst k v).fq = s.fq := rfl
@[simp] theorem State.setInst_priv (s : State) (k : Nat) (v : Inst) : (s.setInst k v).priv = s.priv := rfl
@[simp] theorem State.setInst_pkg (s : State) (k : Nat) (v : Inst) : (s.setInst k v).pkg = s.pkg := rfl
@[simp] theorem State.setInst_mgmt (s : State) (k : Nat) (v : Inst) : (s.setInst k v).mgmt = s.mgmt := rfl
@[simp] theorem State.setInst_sched (s : State) (k : Nat) (v : Inst) : (s.setInst k v).sched = s.sched := rfl
@[simp] theorem State.setInst_choice (s : State) (k : Nat) (v : Inst) : (s.setInst k v).choice = s.choice := rfl
@[simp] theorem State.setInst_free (s : State) (k : Nat) (v : Inst) : (s.setInst k v).free = s.free := rfl
@[simp] theorem State.setInst_sel (s : State) (k : Nat) (v : Inst) : (s.setInst k v).sel = s.sel := rfl

/-! ### setReg -/

@[simp] theorem State.setReg_z128 (s : State) (k : Nat) (v : Word) : (s.setReg k v).z128 = s.z128 := rfl
@[simp] theorem State.setReg_clk (s : State) (k : Nat) (v : Word) : (s.setReg k v).clk = s.clk := rfl
@[simp] theorem State.setReg_mem (s : State) (k : Nat) (v : Word) : (s.setReg k v).mem = s.mem := rfl
@[simp] theorem State.setReg_flips (s : State) (k : Nat) (v : Word) : (s.setReg k v).flips = s.flips := rfl
@[simp] theorem State.setReg_poison (s : State) (k : Nat) (v : Word) : (s.setReg k v).poison = s.poison := rfl
@[simp] theorem State.setReg_lines (s : State) (k : Nat) (v : Word) : (s.setReg k v).lines = s.lines := rfl
@[simp] theorem State.setReg_dir (s : State) (k : Nat) (v : Word) : (s.setReg k v).dir = s.dir := rfl
@[simp] theorem State.setReg_filt (s : State) (k : Nat) (v : Word) : (s.setReg k v).filt = s.filt := rfl
@[simp] theorem State.setReg_lostReg (s : State) (k : Nat) (v : Word) : (s.setReg k v).lostReg = s.lostReg := rfl
@[simp] theorem State.setReg_offers (s : State) (k : Nat) (v : Word) : (s.setReg k v).offers = s.offers := rfl
@[simp] theorem State.setReg_slots (s : State) (k : Nat) (v : Word) : (s.setReg k v).slots = s.slots := rfl
@[simp] theorem State.setReg_cores (s : State) (k : Nat) (v : Word) : (s.setReg k v).cores = s.cores := rfl
@[simp] theorem State.setReg_clusters (s : State) (k : Nat) (v : Word) : (s.setReg k v).clusters = s.clusters := rfl
@[simp] theorem State.setReg_gctx (s : State) (k : Nat) (v : Word) : (s.setReg k v).gctx = s.gctx := rfl
@[simp] theorem State.setReg_nbus (s : State) (k : Nat) (v : Word) : (s.setReg k v).nbus = s.nbus := rfl
@[simp] theorem State.setReg_mcs (s : State) (k : Nat) (v : Word) : (s.setReg k v).mcs = s.mcs := rfl
@[simp] theorem State.setReg_eops (s : State) (k : Nat) (v : Word) : (s.setReg k v).eops = s.eops := rfl
@[simp] theorem State.setReg_nextEop (s : State) (k : Nat) (v : Word) : (s.setReg k v).nextEop = s.nextEop := rfl
@[simp] theorem State.setReg_redQ (s : State) (k : Nat) (v : Word) : (s.setReg k v).redQ = s.redQ := rfl
@[simp] theorem State.setReg_sampQ (s : State) (k : Nat) (v : Word) : (s.setReg k v).sampQ = s.sampQ := rfl
@[simp] theorem State.setReg_winQ (s : State) (k : Nat) (v : Word) : (s.setReg k v).winQ = s.winQ := rfl
@[simp] theorem State.setReg_grams (s : State) (k : Nat) (v : Word) : (s.setReg k v).grams = s.grams := rfl
@[simp] theorem State.setReg_wctx (s : State) (k : Nat) (v : Word) : (s.setReg k v).wctx = s.wctx := rfl
@[simp] theorem State.setReg_mcache (s : State) (k : Nat) (v : Word) : (s.setReg k v).mcache = s.mcache := rfl
@[simp] theorem State.setReg_tlbs (s : State) (k : Nat) (v : Word) : (s.setReg k v).tlbs = s.tlbs := rfl
@[simp] theorem State.setReg_tinv (s : State) (k : Nat) (v : Word) : (s.setReg k v).tinv = s.tinv := rfl
@[simp] theorem State.setReg_nextMiss (s : State) (k : Nat) (v : Word) : (s.setReg k v).nextMiss = s.nextMiss := rfl
@[simp] theorem State.setReg_walkStop (s : State) (k : Nat) (v : Word) : (s.setReg k v).walkStop = s.walkStop := rfl
@[simp] theorem State.setReg_tinvCmd (s : State) (k : Nat) (v : Word) : (s.setReg k v).tinvCmd = s.tinvCmd := rfl
@[simp] theorem State.setReg_tgu (s : State) (k : Nat) (v : Word) : (s.setReg k v).tgu = s.tgu := rfl
@[simp] theorem State.setReg_layout (s : State) (k : Nat) (v : Word) : (s.setReg k v).layout = s.layout := rfl
@[simp] theorem State.setReg_fq (s : State) (k : Nat) (v : Word) : (s.setReg k v).fq = s.fq := rfl
@[simp] theorem State.setReg_pkg (s : State) (k : Nat) (v : Word) : (s.setReg k v).pkg = s.pkg := rfl
@[simp] theorem State.setReg_mgmt (s : State) (k : Nat) (v : Word) : (s.setReg k v).mgmt = s.mgmt := rfl
@[simp] theorem State.setReg_sched (s : State) (k : Nat) (v : Word) : (s.setReg k v).sched = s.sched := rfl
@[simp] theorem State.setReg_choice (s : State) (k : Nat) (v : Word) : (s.setReg k v).choice = s.choice := rfl
@[simp] theorem State.setReg_free (s : State) (k : Nat) (v : Word) : (s.setReg k v).free = s.free := rfl
@[simp] theorem State.setReg_sel (s : State) (k : Nat) (v : Word) : (s.setReg k v).sel = s.sel := rfl

/-! ### The accessors of the units -/

theorem State.slot_setSlot (s : State) (k j : Nat) (v : Slot) : (s.setSlot k v).slot j = if j = k then v else s.slot j :=
  mget_mset _ _ _ _ _
@[simp] theorem State.slot_setSlot_self (s : State) (k : Nat) (v : Slot) : (s.setSlot k v).slot k = v := mget_mset_self _ _ _ _
@[simp] theorem State.slot_setCore (s : State) (j : Nat) (k : Nat) (v : Core) : (s.setCore k v).slot j = s.slot j := rfl
@[simp] theorem State.slot_setCluster (s : State) (j : Nat) (k : Nat) (v : Cluster) : (s.setCluster k v).slot j = s.slot j := rfl
@[simp] theorem State.slot_setCtx (s : State) (j : Nat) (k : Nat) (v : GCtx) : (s.setCtx k v).slot j = s.slot j := rfl
@[simp] theorem State.slot_setNbu (s : State) (j : Nat) (k : Nat) (v : Nbu) : (s.setNbu k v).slot j = s.slot j := rfl
@[simp] theorem State.slot_setChan (s : State) (j : Nat) (k : Nat) (v : Mcs) : (s.setChan k v).slot j = s.slot j := rfl
@[simp] theorem State.slot_setInst (s : State) (j : Nat) (k : Nat) (v : Inst) : (s.setInst k v).slot j = s.slot j := rfl
@[simp] theorem State.slot_setReg (s : State) (j : Nat) (k : Nat) (v : Word) : (s.setReg k v).slot j = s.slot j := rfl

theorem State.core_setCore (s : State) (k j : Nat) (v : Core) : (s.setCore k v).core j = if j = k then v else s.core j :=
  mget_mset _ _ _ _ _
@[simp] theorem State.core_setCore_self (s : State) (k : Nat) (v : Core) : (s.setCore k v).core k = v := mget_mset_self _ _ _ _
@[simp] theorem State.core_setSlot (s : State) (j : Nat) (k : Nat) (v : Slot) : (s.setSlot k v).core j = s.core j := rfl
@[simp] theorem State.core_setCluster (s : State) (j : Nat) (k : Nat) (v : Cluster) : (s.setCluster k v).core j = s.core j := rfl
@[simp] theorem State.core_setCtx (s : State) (j : Nat) (k : Nat) (v : GCtx) : (s.setCtx k v).core j = s.core j := rfl
@[simp] theorem State.core_setNbu (s : State) (j : Nat) (k : Nat) (v : Nbu) : (s.setNbu k v).core j = s.core j := rfl
@[simp] theorem State.core_setChan (s : State) (j : Nat) (k : Nat) (v : Mcs) : (s.setChan k v).core j = s.core j := rfl
@[simp] theorem State.core_setInst (s : State) (j : Nat) (k : Nat) (v : Inst) : (s.setInst k v).core j = s.core j := rfl
@[simp] theorem State.core_setReg (s : State) (j : Nat) (k : Nat) (v : Word) : (s.setReg k v).core j = s.core j := rfl

theorem State.cluster_setCluster (s : State) (k j : Nat) (v : Cluster) : (s.setCluster k v).cluster j = if j = k then v else s.cluster j :=
  mget_mset _ _ _ _ _
@[simp] theorem State.cluster_setCluster_self (s : State) (k : Nat) (v : Cluster) : (s.setCluster k v).cluster k = v := mget_mset_self _ _ _ _
@[simp] theorem State.cluster_setSlot (s : State) (j : Nat) (k : Nat) (v : Slot) : (s.setSlot k v).cluster j = s.cluster j := rfl
@[simp] theorem State.cluster_setCore (s : State) (j : Nat) (k : Nat) (v : Core) : (s.setCore k v).cluster j = s.cluster j := rfl
@[simp] theorem State.cluster_setCtx (s : State) (j : Nat) (k : Nat) (v : GCtx) : (s.setCtx k v).cluster j = s.cluster j := rfl
@[simp] theorem State.cluster_setNbu (s : State) (j : Nat) (k : Nat) (v : Nbu) : (s.setNbu k v).cluster j = s.cluster j := rfl
@[simp] theorem State.cluster_setChan (s : State) (j : Nat) (k : Nat) (v : Mcs) : (s.setChan k v).cluster j = s.cluster j := rfl
@[simp] theorem State.cluster_setInst (s : State) (j : Nat) (k : Nat) (v : Inst) : (s.setInst k v).cluster j = s.cluster j := rfl
@[simp] theorem State.cluster_setReg (s : State) (j : Nat) (k : Nat) (v : Word) : (s.setReg k v).cluster j = s.cluster j := rfl

theorem State.ctx_setCtx (s : State) (k j : Nat) (v : GCtx) : (s.setCtx k v).ctx j = if j = k then v else s.ctx j :=
  mget_mset _ _ _ _ _
@[simp] theorem State.ctx_setCtx_self (s : State) (k : Nat) (v : GCtx) : (s.setCtx k v).ctx k = v := mget_mset_self _ _ _ _
@[simp] theorem State.ctx_setSlot (s : State) (j : Nat) (k : Nat) (v : Slot) : (s.setSlot k v).ctx j = s.ctx j := rfl
@[simp] theorem State.ctx_setCore (s : State) (j : Nat) (k : Nat) (v : Core) : (s.setCore k v).ctx j = s.ctx j := rfl
@[simp] theorem State.ctx_setCluster (s : State) (j : Nat) (k : Nat) (v : Cluster) : (s.setCluster k v).ctx j = s.ctx j := rfl
@[simp] theorem State.ctx_setNbu (s : State) (j : Nat) (k : Nat) (v : Nbu) : (s.setNbu k v).ctx j = s.ctx j := rfl
@[simp] theorem State.ctx_setChan (s : State) (j : Nat) (k : Nat) (v : Mcs) : (s.setChan k v).ctx j = s.ctx j := rfl
@[simp] theorem State.ctx_setInst (s : State) (j : Nat) (k : Nat) (v : Inst) : (s.setInst k v).ctx j = s.ctx j := rfl
@[simp] theorem State.ctx_setReg (s : State) (j : Nat) (k : Nat) (v : Word) : (s.setReg k v).ctx j = s.ctx j := rfl

theorem State.nbu_setNbu (s : State) (k j : Nat) (v : Nbu) : (s.setNbu k v).nbu j = if j = k then v else s.nbu j :=
  mget_mset _ _ _ _ _
@[simp] theorem State.nbu_setNbu_self (s : State) (k : Nat) (v : Nbu) : (s.setNbu k v).nbu k = v := mget_mset_self _ _ _ _
@[simp] theorem State.nbu_setSlot (s : State) (j : Nat) (k : Nat) (v : Slot) : (s.setSlot k v).nbu j = s.nbu j := rfl
@[simp] theorem State.nbu_setCore (s : State) (j : Nat) (k : Nat) (v : Core) : (s.setCore k v).nbu j = s.nbu j := rfl
@[simp] theorem State.nbu_setCluster (s : State) (j : Nat) (k : Nat) (v : Cluster) : (s.setCluster k v).nbu j = s.nbu j := rfl
@[simp] theorem State.nbu_setCtx (s : State) (j : Nat) (k : Nat) (v : GCtx) : (s.setCtx k v).nbu j = s.nbu j := rfl
@[simp] theorem State.nbu_setChan (s : State) (j : Nat) (k : Nat) (v : Mcs) : (s.setChan k v).nbu j = s.nbu j := rfl
@[simp] theorem State.nbu_setInst (s : State) (j : Nat) (k : Nat) (v : Inst) : (s.setInst k v).nbu j = s.nbu j := rfl
@[simp] theorem State.nbu_setReg (s : State) (j : Nat) (k : Nat) (v : Word) : (s.setReg k v).nbu j = s.nbu j := rfl

theorem State.chan_setChan (s : State) (k j : Nat) (v : Mcs) : (s.setChan k v).chan j = if j = k then v else s.chan j :=
  mget_mset _ _ _ _ _
@[simp] theorem State.chan_setChan_self (s : State) (k : Nat) (v : Mcs) : (s.setChan k v).chan k = v := mget_mset_self _ _ _ _
@[simp] theorem State.chan_setSlot (s : State) (j : Nat) (k : Nat) (v : Slot) : (s.setSlot k v).chan j = s.chan j := rfl
@[simp] theorem State.chan_setCore (s : State) (j : Nat) (k : Nat) (v : Core) : (s.setCore k v).chan j = s.chan j := rfl
@[simp] theorem State.chan_setCluster (s : State) (j : Nat) (k : Nat) (v : Cluster) : (s.setCluster k v).chan j = s.chan j := rfl
@[simp] theorem State.chan_setCtx (s : State) (j : Nat) (k : Nat) (v : GCtx) : (s.setCtx k v).chan j = s.chan j := rfl
@[simp] theorem State.chan_setNbu (s : State) (j : Nat) (k : Nat) (v : Nbu) : (s.setNbu k v).chan j = s.chan j := rfl
@[simp] theorem State.chan_setInst (s : State) (j : Nat) (k : Nat) (v : Inst) : (s.setInst k v).chan j = s.chan j := rfl
@[simp] theorem State.chan_setReg (s : State) (j : Nat) (k : Nat) (v : Word) : (s.setReg k v).chan j = s.chan j := rfl

theorem State.slot_modSlot (s : State) (k j : Nat) (f : Slot → Slot) :
    (s.modSlot k f).slot j = if j = k then f (s.slot k) else s.slot j := s.slot_setSlot k j _
@[simp] theorem State.slot_modSlot_self (s : State) (k : Nat) (f : Slot → Slot) : (s.modSlot k f).slot k = f (s.slot k) :=
  s.slot_setSlot_self k _
theorem State.core_modCore (s : State) (k j : Nat) (f : Core → Core) :
    (s.modCore k f).core j = if j = k then f (s.core k) else s.core j := s.core_setCore k j _
@[simp] theorem State.core_modCore_self (s : State) (k : Nat) (f : Core → Core) : (s.modCore k f).core k = f (s.core k) :=
  s.core_setCore_self k _

theorem lookupN_mput_merase {α : Type} (m : List (Nat × α)) (k : Nat) (v : α) :
    lookupN (mput (merase m k) k v) k = some v := by
  induction m with
  | nil => simp [merase, mput, lookupN]
  | cons p m ih =>
    obtain ⟨i, w⟩ := p
    by_cases h : k = i
    · simpa [merase, h] using (by simpa [h] using ih)
    · by_cases hlt : k < i
      · simp [merase, h, mput, hlt, lookupN]
      · simp [merase, h, mput, hlt, lookupN, ih]

@[simp] theorem State.inst_setInst_self (s : State) (t : Nat) (v : Inst) : (s.setInst t v).inst t = v := by
  simp [State.inst, State.setInst, lookupN_mput_merase]

end Sys2Proof.Machine
end

