-- ==== Sys2Proof/Laws/Seq.lean ====
section
/-! SUPPORT. One change of a slot after another, and what it comes to that a party goes on to its next word. -/

namespace Sys2Proof.Machine

theorem State.setSlot_setSlot (s : State) (k : Nat) (v w : Slot) : (s.setSlot k v).setSlot k w = s.setSlot k w := by
  simp [State.setSlot, mset_mset]

theorem State.modSlot_modSlot (s : State) (k : Nat) (f g : Slot → Slot) :
    (s.modSlot k f).modSlot k g = s.modSlot k fun sl => g (f sl) := by
  simp [State.modSlot, State.setSlot_setSlot]

theorem State.setSlot_modSlot (s : State) (k : Nat) (v : Slot) (g : Slot → Slot) :
    (s.setSlot k v).modSlot k g = s.setSlot k (g v) := by
  simp [State.modSlot, State.setSlot_setSlot]

theorem State.setCore_setCore (s : State) (k : Nat) (v w : Core) : (s.setCore k v).setCore k w = s.setCore k w := by
  simp [State.setCore, mset_mset]

theorem State.modCore_modCore (s : State) (k : Nat) (f g : Core → Core) :
    (s.modCore k f).modCore k g = s.modCore k fun c => g (f c) := by
  simp [State.modCore, State.setCore_setCore]

/-- A change of slot k changes no other part of the machine. -/
theorem State.modSlot_eq (s : State) (k : Nat) (f : Slot → Slot) : s.modSlot k f = { s with slots := (s.modSlot k f).slots } :=
  rfl

theorem adv_asq (k : Nat) (s : State) :
    adv k .asq s = s.modSlot k fun sl => { sl with lastAct := s.clk, reported := false, asq := sl.asq.step } := by
  simp [adv, progress, State.modSlot_modSlot]

theorem adv_helper (k : Nat) (s : State) :
    adv k .helper s = s.modSlot k fun sl => { sl with lastAct := s.clk, reported := false, helper := sl.helper.step } := by
  simp [adv, progress, State.modSlot_modSlot]

theorem adv_esq_interlocked (k : Nat) (s : State) (h : (s.slot k).exposed = false) :
    adv k .esq s = s.modSlot k fun sl => { sl with lastAct := s.clk, reported := false, esq := sl.esq.step } := by
  simp [adv, progress, esqTicks, h, State.modSlot_modSlot]

end Sys2Proof.Machine
end

