-- ==== Sys2Proof/Laws/Turn.lean ====
section
/-! SUPPORT. What a turn comes to, and what the operations that may put a change off can do: each lemma says it once, so that a
proof about a step or an engine need not unfold them. -/

namespace Sys2Proof.Machine

/-- A party whose word stops no slot takes its turn as it is (R408). -/
theorem resolveTurn_goes {k : Nat} {p : Party} {s : State} (h : stopsSlot k s (takeTurn (.seq k p) s) = false) :
    resolveTurn (.seq k p) s = takeTurn (.seq k p) s := by
  simp [resolveTurn, h]
/-- Turns of other agents are taken as they are. -/
theorem resolveTurn_other {t : Turn} {s : State} (h : ∀ k p, t ≠ .seq k p) : resolveTurn t s = takeTurn t s := by
  cases t <;> first | rfl | exact absurd rfl (h _ _)
/-- A turn that stops a slot is the turn of one of its parties, or waits because the slot has an asynchronous cause in this clk. -/
theorem resolveTurn_stops {k : Nat} {p : Party} {s : State} (h : stopsSlot k s (takeTurn (.seq k p) s) = true) :
    resolveTurn (.seq k p) s = .next s ∨ ∃ q, resolveTurn (.seq k p) s = takeTurn (.seq k q) s := by
  unfold resolveTurn; simp only [h, if_true]
  split
  · exact .inl rfl
  · refine .inr ?_
    have one : ∀ r : Party × Host.Outcome State Fault Refusal, ∀ q, (∃ c, r.2 = takeTurn (.seq k c) s) →
        ∃ c, (firstCause k s r q).2 = takeTurn (.seq k c) s := fun r q hr => by
      unfold firstCause; split
      · exact ⟨q, rfl⟩
      · exact hr
    exact one _ _ (one _ _ (one _ _ ⟨p, rfl⟩))

/-- A step that answers a state either put the change off, and called copies of table lines back, or is the change (R105). -/
theorem putOff_cases {s t : State} {r : Host.Outcome State Fault Refusal} (h : putOff s r = .next t) :
    (∃ s' ls, r = .next s' ∧ s'.walkStop = some ls ∧ t = sendData ls s) ∨ (r = .next t ∧ t.walkStop = none) := by
  cases r with
  | next s' =>
    simp only [putOff, unlessPutOff, Host.Outcome.next.injEq] at h
    split at h
    · exact .inl ⟨s', _, rfl, ‹_›, h.symm⟩
    · exact .inr ⟨by rw [h], h ▸ ‹_›⟩
  | fault f => cases h
  | refused f => cases h
/-- A change whose walks could all be made is made. -/
theorem putOff_next {s t : State} (h : t.walkStop = none) : putOff s (.next t) = .next t := by
  simp [putOff, unlessPutOff, h]

/-- A signal that waits for nothing goes out (R240). -/
theorem whenSignal_goes {o : Origin} {src : Nat} {never : Bool} {s : State} (f : State → State)
    (h : s.signalWaits o src never = false) : whenSignal o src never s f = f s := by
  simp [whenSignal, h]
/-- An operation of an engine that waits for nothing retires (R125). -/
theorem whenRetire_goes {o : EOp} {s : State} (f : State → State) (h : s.retireWaits o = false) : whenRetire o s f = f s := by
  simp [whenRetire, h]

end Sys2Proof.Machine
end

