-- ==== Sys2Proof/Laws/Wf.lean ====
section
/-! SUPPORT. What the shared operations do to memory: most leave it as it is, and the few that write it keep its canonical
form. -/

namespace Sys2Proof.Machine

/-- A fold of steps that each keep a property of the state keeps it. -/
theorem foldl_keeps {α : Type} (P : State → Prop) (f : State → α → State) (h : ∀ s x, P s → P (f s x)) (l : List α) (s : State)
    (hs : P s) : P (l.foldl f s) := by
  induction l generalizing s with
  | nil => exact hs
  | cons x l ih => exact ih _ (h s x hs)

/-- A fold of steps that each leave memory alone leaves it alone. -/
theorem foldl_mem {α : Type} (f : State → α → State) (h : ∀ s x, (f s x).mem = s.mem) (l : List α) (s : State) :
    (l.foldl f s).mem = s.mem :=
  foldl_keeps (fun t => t.mem = s.mem) f (fun t x ht => (h t x).trans ht) l s rfl

theorem pushRecord_mem (r : FRec) (t : FTarget) (s : State) : (pushRecord r t s).mem = s.mem := by
  unfold pushRecord; dsimp only; split <;> rfl
theorem noteAsync_mem (r : FRec) (s : State) : (noteAsync r s).mem = s.mem := by
  unfold noteAsync; split <;> rfl
theorem report_mem (r : FRec) (t : FTarget) (s : State) : (report r t s).mem = s.mem := by
  unfold report; dsimp only; split
  · exact noteAsync_mem r s
  · exact (pushRecord_mem r t _).trans (noteAsync_mem r s)
theorem reportEvent_mem (r : FRec) (s : State) : (reportEvent r s).mem = s.mem := by
  unfold reportEvent; split
  · rfl
  · exact pushRecord_mem r .none s

theorem landRes_mem (k : Nat) (r : Res) (s : State) : (landRes k r s).mem = s.mem := by
  unfold landRes; dsimp only
  repeat' first | rfl | split
theorem landAll_mem (k : Nat) (s : State) : (landAll k s).mem = s.mem := by
  unfold landAll; exact foldl_mem _ (fun s r => landRes_mem k r s) _ _
theorem asyncRecord_mem (o : Origin) (c a u v i : Nat) (p : Bool) (t : FTarget) (s : State) :
    (asyncRecord o c a u v i p t s).mem = s.mem := report_mem _ t s
theorem userTrap_mem (k : Nat) (pc : Word) (c : Nat) (v : Word) (s : State) : (userTrap k pc c v s).mem = s.mem :=
  landAll_mem k s

/-! ### The four operations that write memory -/

theorem putCell_wf {s : State} (a : Nat) (b : Byte) (h : Memory.wf s.mem = true) : Memory.wf (putCell s a b).mem = true :=
  wf_setByte a b h
theorem writeBack_wf {s : State} (col : Nat) (h : Memory.wf s.mem = true) : Memory.wf (writeBack col s).mem = true :=
  wf_writeBytes _ _ h

theorem countCorr_mem (col : Nat) (s : State) : (countCorr col s).mem = s.mem := rfl
theorem countUnc_mem (col : Nat) (s : State) : (countUnc col s).mem = s.mem := rfl

/-- A channel read writes back a corrected word and nothing else (R457). -/
theorem chanRead_wf {s : State} (col : Nat) (h : Memory.wf s.mem = true) : Memory.wf (chanRead col s).mem = true := by
  unfold chanRead; dsimp only; split
  · exact h
  · split
    · exact h
    · split
      · exact writeBack_wf _ (by rw [countCorr_mem]; exact h)
      · exact h
    · exact h

theorem touchRead_wf {s : State} (pa n : Nat) (h : Memory.wf s.mem = true) : Memory.wf (touchRead pa n s).2.mem = true := by
  unfold touchRead; dsimp only; split
  · exact h
  · exact foldl_keeps (fun t => Memory.wf t.mem = true) _ (fun t c ht => chanRead_wf c ht) _ _ h

/-- A write of physical bytes keeps the canonical form. -/
theorem physWrite_wf {s : State} (pa : Nat) (data : List Byte) (h : Memory.wf s.mem = true) :
    Memory.wf (physWrite pa data s).mem = true := by
  unfold physWrite; dsimp only
  refine foldl_keeps (fun t => Memory.wf t.mem = true) _ (fun t c ht => ?_) _ _ ?_
  · split
    · exact ht
    · exact putCell_wf _ _ ht
  · refine foldl_keeps (fun t => Memory.wf t.mem = true) _ (fun t c ht => ?_) _ _ h
    split
    · exact ht
    · split
      · exact ht
      · split
        · rw [report_mem, countUnc_mem]; exact ht
        · exact writeBack_wf _ (by rw [countCorr_mem]; exact ht)
        · exact writeBack_wf _ ht

/-- Reverting lines to the home's copies keeps the form (R496, R499). -/
theorem revertLine_wf {s : State} (n : Nat) (l : LineCo) (h : Memory.wf s.mem = true) :
    Memory.wf (revertLine n l s).mem = true := by
  refine foldl_keeps (fun t => Memory.wf t.mem = true) _ (fun t x ht => ?_) _ s h
  split
  · exact putCell_wf _ _ ht
  · exact ht
theorem dropDirty_wf {s : State} (h : Memory.wf s.mem = true) : Memory.wf (dropDirty s).mem = true :=
  foldl_keeps (fun t => Memory.wf t.mem = true) _ (fun _ x ht => revertLine_wf x.1 x.2 ht) _ s h

/-- A reset keeps memory, or drops the cells of the PMDs, and the form holds either way (R499, R500). -/
theorem logicReset_wf {s : State} (c : BitVec 8) (pmd : Bool) (h : Memory.wf s.mem = true) :
    Memory.wf (logicReset c pmd s).mem = true := by
  cases pmd
  · exact mwf_filter _ (dropDirty_wf h)
  · exact dropDirty_wf h

/-! ### Token moves leave memory alone -/

theorem coHome_mem (l : Nat) (s : State) : (coHome l s).mem = s.mem := by
  unfold coHome; dsimp only
  rfl
theorem coHomes_mem (ls : List Nat) (s : State) : (coHomes ls s).mem = s.mem := by
  refine foldl_mem _ (fun s l => ?_) ls s
  split
  · exact coHome_mem l s
  · rfl
theorem sendBisnp_mem (ls : List Nat) (s : State) : (sendBisnp ls s).mem = s.mem := by
  refine foldl_mem _ (fun s l => ?_) ls s
  split <;> rfl

/-- A write at the home keeps the canonical form. -/
theorem homeWrite_wf {s : State} (pa : Nat) (data : List Byte) (h : Memory.wf s.mem = true) :
    Memory.wf (homeWrite pa data s).mem = true :=
  physWrite_wf _ _ (by rw [coHomes_mem]; exact h)

end Sys2Proof.Machine
end

