-- ==== Sys2Proof/Tests/Slice0.lean ====
section
/-! SUPPORT. Tests of the model: words that the spec writes out decode to the instructions they stand for; a term that fails
each check of well-formedness; single steps whose results the spec works out; and, for every statement that has hypotheses,
concrete states that meet those of each of its clauses (witness theorems). -/

namespace Sys2Proof.Tests

open Sys2Proof Sys2Proof.Machine Sys2Proof.Claim

set_option Elab.async false
set_option maxRecDepth 20000

/-! ### States to test on -/

/-- Slot 0 of core 0 at work on task 0. -/
def slot0 : Slot := { task := some 0, st := 1, spwin := 0x00010000, accwin := 0x00100000 }
/-- The machine with this slot 0, as party p of it takes a word. -/
def at0 (sl : Slot) (p : Party := .asq) : State :=
  { pkg := { stopped := false, gated := 0 }, slots := [(0, sl)], sel := { slot := 0, party := p }, tgu := { insts := [(0, { st := .running, slots := [0] })] } }
/-- A page of 4096 bytes at virtual 0x1000 behind the first PMD page, of the ordering kind given, with leaf bits. -/
def page (bits : Nat) : TlbEnt := { base := 0x1000, size := 4096, pte := BitVec.ofNat 64 (pmdBase + bits) }
/-- The same machine, whose slot 0 has the page in its TLB: readable, writable, executable, kind UO. -/
def paged (s : State) (bits : Nat := 0xA1D) : State := { s with tlbs := [(1, [page bits])] }
/-- The one part of n bytes at the start of the page, kind 2. -/
def part (n : Nat) : List (Nat × Nat × BitVec 2 × Bool) := [(pmdBase, n, 2, false)]

/-! ### Witnesses: scalar words and accesses -/

theorem witness_scalar :
    (let s := at0 slot0; s.sel.party = .asq ∧ ∀ row ∈ scalarRows 3 1 2 5 6 7, ∀ r ∈ row.d :: row.reads, s.mySlot.busyA r = false) ∧
    (let s := at0 slot0 .helper; s.sel.party = .helper) ∧
    (let s := at0 slot0 .esq; s.sel.party = .esq ∧ s.mySlot.exposed = false ∧
      ∀ row ∈ scalarRows 3 1 2 5 6 7, ∀ r ∈ row.d :: row.reads, s.mySlot.busyX r = false) ∧
    (let s := at0 { slot0 with exposed := true } .esq; s.sel.party = .esq ∧ s.mySlot.exposed = true) := by decide +kernel

theorem witness_tick :
    let r : Res := { due := 7, x := some (3, 9) }
    let s := at0 { slot0 with tick := 7, results := [r] }
    (3 : BitVec 5) ≠ 0 ∧ r = { due := (s.slot 0).tick, x := some ((3 : BitVec 5).toNat, 9) } ∧ (s.slot 0).results = [r] := by decide +kernel

theorem witness_landing :
    ∀ r ∈ ([{ v := some (3, 9, 255), inter := true }, { x := some (4, 9), inter := true },
        { masks := some (.push 1 16), inter := true }, { masks := some (.pop 1), inter := true },
        { masks := some (.repl 1 3), inter := true }, { sq := some (1, 9), inter := true },
        { acc := some (15, 9), inter := true }] : List Res),
      ((at0 { slot0 with results := [r] }).slot 0).results = [r] ∧ r.inter = true ∧ r.tok = 0 := by decide +kernel

theorem witness_scratchpad_words :
    let s := at0 { slot0 with a := [(1, 49144)] }
    AsqReads s [3, 1] ∧ SpFree s (addrOf s 1 0#10) (sizeBytes 3) ∧ addrOf s 1 0#10 + sizeBytes 3 = s.mySlot.spSize := by
  unfold AsqReads SpFree; decide +kernel

theorem witness_global_words :
    let s := paged (at0 { slot0 with a := [(1, 0x1000), (2, 0xFFFF)] })
    let p := paged (at0 { slot0 with a := [(1, 0x1FFC)] }) 0x21D
    AsqReads s [3, 1, 2] ∧ GlobalFree s (addrOf s 1 0#10) (sizeBytes 3) 1 .read (part 8) true false ∧ Readable s (part 8) ∧
    GlobalFree s (addrOf s 1 0#10) (sizeBytes 3) 8 .write (part 8) true false ∧ Writable s (part 8) ∧
    AsqReads p [3, 1] ∧ GlobalFree p (addrOf p 1 0#10) (sizeBytes 2) 1 .read [(pmdBase + 0xFFC, 4, 0, false)] true false := by
  unfold AsqReads GlobalFree Readable Writable; decide +kernel

theorem witness_queue_words :
    let s := paged (at0 { slot0 with a := [(1, 0x1000)], sq := [(1, [5, 6])] })
    AsqReads s [1] ∧ addrOf s 1 0#13 % 16 = 0 ∧ (3 : BitVec 5).toNat < 4 ∧ (mget [] s.mySlot.lq 3).length < 8 ∧
    SpFree s (addrOf s 1 0#13) 256 ∧ GlobalFree s (addrOf s 1 0#10) 256 16 .read (part 256) true false ∧ Readable s (part 256) ∧
    mget [] s.mySlot.sq (1 : BitVec 5).toNat = 5 :: [6] := by
  unfold AsqReads SpFree GlobalFree Readable; decide +kernel

/-- Slot 0 past its words, with one pending access. -/
def pending (p : Acc) (sl : Slot := slot0) : State := at0 { sl with pend := [p], asq := { walk := 9 }, esq := { walk := 9 } }
theorem witness_scratchpad_accesses :
    (let p : Acc := { id := 4, kind := .spLoad, len := sizeBytes 6, sz := 6, dst := 31, va := 49148 }
     ItsTurn 0 4 p (pending p) ∧ p.len = sizeBytes p.sz ∧ p.sz ≠ 7 ∧ p.dst < 32 ∧ p.va % 16 + p.len ≤ 16) ∧
    (let p : Acc := { id := 4, kind := .spStore, len := 8, data := 7, va := 49144 }
     ItsTurn 0 4 p (pending p) ∧ 0 < p.len ∧ p.len ≤ 8 ∧ p.va % 16 + p.len ≤ 16) := by unfold ItsTurn; decide +kernel

theorem witness_global_accesses :
    (let p : Acc := { id := 4, kind := .load, len := sizeBytes 3, sz := 3, dst := 5, parts := part 8 }
     ItsTurn 0 4 p (pending p) ∧ p.va % p.len = 0 ∧ (p.parts.map (·.2.1)).sum = p.len ∧ ((pending p).slot 0).early = [] ∧
       (pending p).readWaits 0 p.parts = false ∧ (pending p).canAccess (coreOf 0) (partLines p.parts) = true) ∧
    (let p : Acc := { id := 4, kind := .load, va := 0x1004, len := 8, sz := 3, dst := 5, parts := [(pmdBase + 4, 8, 2, false)] }
     let s := pending p
     (s.slot 0).pend.find? (·.id == 4) = some p ∧ s.accReady 0 p = true ∧ (s.slot 0).early = [] ∧
       (∀ u ∈ p.units, s.readWaits 0 (cutParts p.parts u.1 u.2) = false) ∧
       (∀ u ∈ p.units, s.canAccess (coreOf 0) (partLines (cutParts p.parts u.1 u.2)) = true) ∧
       2 ≤ ((List.range p.units.length).filter fun i => !p.did.contains i).length) ∧
    (let p : Acc := { id := 4, kind := .store, len := 8, parts := part 8, data := 9 }
     let s := pending p
     ItsTurn 0 4 p s ∧ p.va % p.len = 0 ∧ (s.inst ((s.slot 0).task.getD 0)).holds = false) ∧
    (let x : L1Store := { slot := 0, id := 4, parts := part 8, data := 9 }
     let s : State := { at0 slot0 with cores := [(0, { l1 := [x] })] }
     (s.slot 0).pend.find? (·.id == 4) = none ∧ (s.core (coreOf 0)).l1 = x :: [] ∧ x.parts = [(pmdBase, 8, 2, false)] ∧
       s.offers.any (·.slot == 0) = false ∧ s.dueTo 0 = false ∧ s.canWrite (coreOf 0) (linesOf pmdBase 8) = true ∧
       (s.inst ((s.slot 0).task.getD 0)).frozen = false ∧ PlainMemory s x.parts) := by
  unfold ItsTurn PlainMemory; decide +kernel

/-- Slot 0 with nothing on its way, its ESQ past the word that its ASQ takes, at the page of kind UO. -/
def clear (sl : Slot) : State := paged (at0 { sl with esq := { walk := 1 } })

/-- The same at the start of the page, with entries in store queue 1, and with its base register in the window. -/
def clearGlobal : State := clear { slot0 with a := [(1, 0x1000), (2, 9)], sq := [(1, [5, 6])] }
def clearSp : State := clear { slot0 with a := [(1, 0x10)], sq := [(1, [5, 6])] }

theorem witness_loads :
    (let s := clearGlobal
     Clear s ∧ AsqReads s [3, 1] ∧ (mget [] s.mySlot.lq 3).length < 8 ∧ GlobalFree s (addrOf s 1 0#10) 8 1 .read (part 8) true false ∧
       Readable s (part 8) ∧ s.canAccess 0 (partLines (part 256)) = true ∧ addrOf s 1 0#13 % 16 = 0 ∧
       GlobalFree s (addrOf s 1 0#13) 256 16 .read (part 256) true false ∧ Readable s (part 256)) ∧
    (let s := clearSp
     Clear s ∧ AsqReads s [3, 1] ∧ SpFree s (addrOf s 1 0#10) 8 ∧ SpFree s (addrOf s 1 0#13) 256 ∧ s.portTakes 0 = true) := by
  unfold Clear Settled AsqReads GlobalFree Readable SpFree; decide +kernel

theorem witness_stores :
    (let s := clearGlobal
     Clear s ∧ AsqReads s [3, 1, 2] ∧ GlobalFree s (addrOf s 1 0#10) 8 1 .write (part 8) true false ∧
       GlobalFree s (s.mySlot.ra 1).toNat 8 8 .write (part 8) true false ∧ (s.inst (s.mySlot.task.getD 0)).holds = false ∧
       (s.inst (s.mySlot.task.getD 0)).frozen = false ∧ s.canWrite 0 (linesOf pmdBase 8) = true) ∧
    Writable clearGlobal (part 8) ∧ PlainMemory clearGlobal (part 8) ∧ mget [] clearSp.mySlot.sq 1 = 5 :: [6] := by
  refine ⟨?_, .inl rfl, ?_, by decide +kernel⟩
  · unfold Clear Settled AsqReads GlobalFree; decide +kernel
  · unfold PlainMemory; decide +kernel

theorem witness_atomic_words :
    let s := paged (at0 { slot0 with a := [(1, 0x1000)] })
    AsqReads s [3, 1, 2] ∧ scopeNamed 3 5 ∧ atomicNamed 8 1 ∧ atomicNamed 6 3 ∧ (s.inst (s.mySlot.task.getD 0)).holds = false ∧
    GlobalFree s (s.mySlot.ra 1).toNat (formatBytes 1) (formatBytes 1) .write (part 8) true false ∧
    GlobalFree s (s.mySlot.ra 1).toNat (formatBytes 3) (formatBytes 3) .write (part 2) true false ∧
    atomBad pmdBase (formatBytes 1) false s = (none, s) ∧ atomBad pmdBase (formatBytes 3) false s = (none, s) ∧
    s.xlPage 0 (s.mySlot.ra 1).toNat .write = .hit (page 0xA1D) ∧ s.soPending 0 = false ∧ (5 : BitVec 3).toNat < 6 := by
  unfold AsqReads scopeNamed atomicNamed GlobalFree; decide +kernel

/-- An atomic of n bytes at the first PMD byte that waits for its home slice. -/
def atom (w : W32) (n : Nat) : Acc := { id := 4, kind := .amo, word := w, len := n, parts := part n, data := 7, data2 := 8 }

theorem witness_atomics :
    ∀ x ∈ ([(encode (.amo 3 1 0 1 0 0), 8), (encode (.amo 3 1 8 0 0 0), 4), (encode (.cas 3 1 2 1 0 0), 8),
        (encode (.cas 3 1 2 0 0 0), 4), (encode (.redw 3 1 8 1 0 0), 8)] : List (List W32 × Nat)),
      let p := atom (x.1.headD 0) x.2
      let s := pending p
      AtHome 0 4 pmdBase x.2 p s ∧ s.poison = [] ∧ (s.inst ((s.slot 0).task.getD 0)).holds = false ∧ p.str = false ∧
      (∀ i, i < x.2 → s.pclass (pmdBase + i) = .pmd) ∧ ∃ i, decodeCore p.word = .ok i ∧ encode i = x.1 := by
  intro x hx
  simp only [List.mem_cons, List.mem_nil_iff, or_false] at hx
  rcases hx with rfl | rfl | rfl | rfl | rfl <;>
    exact ⟨⟨by decide +kernel, by decide +kernel, by decide +kernel, by decide +kernel, ⟨2, false, rfl⟩, rfl, by decide +kernel,
      by decide +kernel, by decide +kernel, by decide +kernel, by decide +kernel⟩, by decide +kernel, by decide +kernel, rfl, by decide +kernel, _,
      by rfl, by decide +kernel⟩

/-- A store of slot k of core c that is not visible yet, on a page of kind RC, in a state where slot 0 has one pending event. -/
def unseen (k c : Nat) (p : Acc) (x : L1Store) (t : List HeldEnt) : State :=
  { pending p with cores := [(c, { l1 := [{ x with slot := k, parts := [(pmdBase, 8, 1, false)] }] })],
                   tgu := { insts := [(0, { ents := t })] } }
theorem witness_fences_pass_stores_on :
    (let f : Acc := { id := 4, kind := .fence, fk := 1, scope := 2, stor := 4 }
     ∀ s ∈ [unseen 0 0 f {} [], unseen 60 15 f { due := [(0, 0x1FFFF)] } []], FenceRetires 0 4 f s ∧ f.scope.toNat ≠ 0) ∧
    (let f : Acc := { id := 4, kind := .fence, fk := 0, scope := 3, stor := 4 }
     let o : Passed := { core := 15, reach := 0x1FFFF, chain := 0x1FFFF }
     FenceRetires 0 4 f (unseen 60 15 f { out := [o] } []) ∧ o.reach.getLsbD (coreOf 0) = true ∧ inScope (coreOf 0) 3 o.core = true) ∧
    (let f : Acc := { id := 4, kind := .fence, fk := 3, scope := 1, stor := 4 }
     FenceRetires 0 4 f (unseen 60 15 f {} [{ num := 7 }])) ∧
    (let p : Acc := { id := 4, kind := .load, len := 8, sz := 3, dst := 5, parts := [(pmdBase, 8, 1, false)] }
     let s := unseen 60 15 p { due := [(0, 1)] } []
     ItsTurn 0 4 p s ∧ p.va % 8 = 0 ∧ (s.slot 0).early = [] ∧ (1 : BitVec 18).getLsbD (coreOf 0) = true) := by
  unfold FenceRetires ItsTurn; decide +kernel

theorem witness_streams_and_rings :
    (let s := at0 { slot0 with esq := { walk := 1 } }
     AsqReads s [3, 1] ∧ (15 : BitVec 5).toNat < 16 ∧ (21 : BitVec 6).toNat < 22 ∧ s.mySlot.esq.passed s.mySlot.asq.walk = true) ∧
    (let o : Co := { cfg := 0x6000303004000000, oldest := 2, filled := 0b1101, free := 1 }
     let s := at0 { slot0 with esq := { walk := 1 }, cos := [(5, o)], a := [(1, 2)] }
     AsqReads s [1] ∧ mget {} s.mySlot.cos 5 = o ∧ o.kind = 3 ∧ s.mySlot.esq.passed s.mySlot.asq.walk = true ∧
       s.mySlot.readsDone s.mySlot.asq.walk = true ∧ s.halosRead 0 s.mySlot.asq.walk = true ∧ o.ns = 4 ∧ o.oldest < o.ns ∧
       ∀ j, j < 2 → o.filled.getLsbD ((o.oldest + j) % o.ns) = true) := by
  unfold AsqReads; decide +kernel

/-! ### Witnesses: control words, waits and barriers -/

theorem witness_esq_queues :
    let s := at0 { slot0 with lq := [(3, [(4, some 5), (6, none)])], sq := [(1, [5, 6, 7, 8, 9, 10, 11])] } .esq
    s.sel.party = .esq ∧ s.mySlot.exposed = false ∧ s.mySlot.busyX 0 = false ∧ s.mySlot.vPops 3 = false ∧
    mget [] s.mySlot.lq 3 = (4, some 5) :: [(6, none)] ∧ s.mySlot.vPushes 1 = false ∧ s.mySlot.sqBusy 1 = false ∧
    s.mySlot.sqFull 1 = false ∧ s.mySlot.results = [] ∧ mget [] s.mySlot.queues 0 = [] := by decide +kernel

/-- Slot 0 with one outcome for the follower of a shared word of owner AE. -/
def outcome1 : Slot := { slot0 with a := [(1, BitVec.allOnes 64)], x := [(1, 2)], boAE := [1], asq := { ret := [64] } }

theorem witness_branches :
    (∀ o : BitVec 2, Evaluates (at0 outcome1 .helper) o 1) ∧ (∀ o : BitVec 2, o ≠ 3 → Evaluates (at0 outcome1) o 1) ∧
    (∀ o : BitVec 2, o ≠ 2 → Evaluates (at0 outcome1 .esq) o 1) ∧
    (at0 outcome1 .esq).role 2 = .follow ∧ (at0 outcome1 .esq).mySlot.outcomes 2 = 1 :: [] ∧
    ((at0 outcome1).mySlot.seqOf .asq).ret.length < 16 ∧ ((at0 outcome1).mySlot.seqOf .asq).ret = 64 :: [] := by
  unfold Evaluates; decide +kernel

theorem witness_conditions :
    condition 2 ((at0 outcome1).mySlot.rp .asq 1) ∧ condition 5 ((at0 outcome1).mySlot.rp .asq 0) ∧
    ¬ condition 4 ((at0 outcome1).mySlot.rp .asq 0) :=
  ⟨show BitVec.toInt _ < 0 by decide +kernel, show BitVec.toInt _ ≤ 0 by decide +kernel,
    show ¬ BitVec.toInt _ > 0 by decide +kernel⟩

theorem witness_loops :
    let s := at0 { outcome1 with masks := [(0, 256), (1, 16)] } .esq
    let f := at0 { outcome1 with masks := [(128, 16)] } .esq
    Evaluates s 3 1 ∧ (s.mySlot.rp .esq 1).toNat % 2 ^ 32 = 2 ∧ (s.mySlot.rp .esq 0).toNat % 2 ^ 32 = 0 ∧
    (loopsOf s.mySlot .esq).length < 8 ∧ s.role 3 ≠ .follow ∧ s.outcomeFull 3 (s.role 3) = false ∧ s.mySlot.maskPending = false ∧
    s.mySlot.masks = (0, 256) :: [(1, 16)] ∧ (∀ i, i < 2048 / 256 → (0 : BitVec 256).getLsbD i = false) ∧
    f.mySlot.masks = (128, 16) :: [] ∧ (∃ i, i < 2048 / 16 ∧ (128 : BitVec 256).getLsbD i = true) := by
  refine ⟨by unfold Evaluates; decide +kernel, by decide +kernel, by decide +kernel, by decide +kernel, by decide +kernel,
    by decide +kernel, by decide +kernel, by decide +kernel, by decide +kernel, by decide +kernel, 7, by decide, by decide⟩

/-- Slot 0 with a local counter at 3 and a ring of 4 slots with slot 3 filled. -/
def counting : Slot :=
  { slot0 with cos := [(1, { cfg := 0x2000000000000000, count := 3 }), (63, { cfg := 0x6000303004000000, filled := 8 })] }

theorem witness_counters_and_rings :
    (let s := at0 counting
     Waiter s 0 ∧ Waiter s 2 ∧ Waiter (at0 counting .esq) 3 ∧ (mget {} s.mySlot.cos 1).kind = 1 ∧
       (mget {} s.mySlot.cos 1).count.toNat = 3 ∧ (mget {} s.mySlot.cos 63).kind = 3 ∧ 3 < (mget {} s.mySlot.cos 63).ns ∧
       (mget {} s.mySlot.cos 63).filled.getLsbD 3 = true ∧ (mget {} s.mySlot.cos 63).filled.getLsbD 0 = false) ∧
    (let s := at0 { counting with waitE := .count 1 3 }
     (s.slot 0).st = 1 ∧ (s.slot 0).waitA = .none ∧ s.trapDue 0 = false ∧ (s.slot 0).waitE = .count 1 3 ∧ 3 ≤ (mget {} (s.slot 0).cos 1).count.toNat) ∧
    (let s := at0 { counting with waitE := .ring 63 3 }
     s.trapDue 0 = false ∧ (s.slot 0).waitE = .ring 63 3 ∧ (mget {} (s.slot 0).cos 63).filled.getLsbD 3 = true) := by
  unfold Waiter; decide +kernel

theorem witness_word_waits :
    (let s := paged (at0 { slot0 with a := [(1, 0x1FF8), (2, BitVec.allOnes 64)] })
     Waiter s 0 ∧ s.mySlot.busyP .asq 1 = false ∧ s.mySlot.busyP .asq 2 = false ∧
       GlobalFree s (s.mySlot.rp .asq 1).toNat 8 8 .read [(pmdBase + 0xFF8, 8, 2, false)] true false ∧
       Readable s [(pmdBase + 0xFF8, 8, 2, false)] ∧ ReadsNow s 0 (s.mySlot.seqOf .asq).walk (pmdBase + 0xFF8)) ∧
    (let s := at0 { slot0 with waitE := .wordv pmdBase 4 1 false }
     (s.slot 0).st ≠ 5 ∧ (s.slot 0).waitA = .none ∧ (s.slot 0).waitE = .wordv pmdBase 4 1 false ∧
       ReadsNow s 0 (s.slot 0).esq.walk pmdBase ∧ touchRead pmdBase 8 s = (none, s)) := by
  unfold Waiter GlobalFree Readable ReadsNow; decide +kernel

theorem witness_comparisons : compares 2 0 (BitVec.allOnes 64) ∧ ¬ compares 4 0 (BitVec.allOnes 64) :=
  ⟨show BitVec.toInt _ ≥ BitVec.toInt _ by decide, show ¬ BitVec.toNat _ ≥ BitVec.toNat _ by decide⟩

/-- Slots 0 and 1 of core 0 hold one task whose type claims barrier id 31; barrier 31 of core 0 has gone one phase on. -/
def barriers : State :=
  { at0 { slot0 with bara := [(31, 2)] } with
      slots := [(0, { slot0 with bara := [(31, 2)] }), (1, slot0)], priv := [(0x8003, 0x80000000)],
      tgu := { insts := [(0, { st := .running, slots := [0, 1] })], bars := [(31, { phase := 1, arrived := [0, 1] })] } }

theorem witness_barriers :
    Waiter barriers 0 ∧ barBad 0 31 barriers = none ∧ keyOf barriers 0 31 = 31 ∧
    mget 0 barriers.mySlot.bara 31 = (mget {} barriers.tgu.bars 31).phase + 1 ∧
    (let s := { barriers with tgu := { barriers.tgu with bars := [(31, { phase := 2 })] } }
     MayArrive s 0 31 ∧ mget 0 s.mySlot.bara 31 ≤ (mget {} s.tgu.bars 31).phase) ∧
    (mget {} barriers.tgu.bars 31).arrived = 0 :: [1] ∧ barriers.barMembers (31 / 1024) 0 = [0, 1] := by
  unfold Waiter MayArrive; decide +kernel

/-- Slot 0 comes to a barrier at which slot 1 has arrived; its ESQ has come to the word, or passed it. -/
def arriving (walk : Int) : State :=
  { barriers with slots := [(0, { slot0 with asq := { ended := false }, esq := { walk := walk, ended := false } }), (1, slot0)],
                  tgu := { barriers.tgu with bars := [(31, { phase := 1, arrived := [1] })] } }

theorem witness_barrier_completes :
    (∀ w ∈ [(0 : Int), 1], Waiter (arriving w) 0 ∧ MayArrive (arriving w) 0 31 ∧ Settled 0 (arriving w) ∧
      ((arriving w).mySlot.seqOf .asq).ended = false ∧ (arriving w).mySlot.exposed = false ∧ (arriving w).mySlot.upend = [] ∧
      OtherReached (arriving w) ∧ ∀ j ∈ (arriving w).barMembers 0 0, j = 0 ∨ j ∈ (mget {} (arriving w).tgu.bars 31).arrived) ∧
    OtherPassed (arriving 1) := by
  unfold Waiter MayArrive Settled OtherReached OtherPassed; decide +kernel

theorem witness_global_barrier :
    (let s := paged (at0 { slot0 with a := [(1, 0x1000), (2, 3)] })
     Waiter s 0 ∧ s.mySlot.busyP .asq 1 = false ∧ s.mySlot.busyP .asq 2 = false ∧
       GlobalFree s (s.mySlot.rp .asq 1).toNat 8 8 .write (part 8) true false ∧ atomBad pmdBase 8 false s = (none, s) ∧
       (s.mySlot.otherSeq .asq).reached (s.mySlot.seqOf .asq).walk = true ∧ s.myInst.holds = false) ∧
    (let p : Acc := { atom ((encode (.barg 0 1 2 5)).headD 0) 8 with kind := .barg, dst := 1, data2 := 3 }
     let s := pending p
     AtHome 0 4 pmdBase 8 p s ∧ decodeCore p.word = .ok (.barg 0 1 2 5)) := by
  refine ⟨by unfold Waiter GlobalFree; decide +kernel, ⟨by decide +kernel, by decide +kernel, by decide +kernel, by decide +kernel,
    ⟨2, false, rfl⟩, rfl, by decide +kernel, by decide +kernel, by decide +kernel, by decide +kernel, by decide +kernel⟩, by decide +kernel⟩

/-- The arrival of slot 0 at a global barrier of one participant. -/
def lastArrival : Acc := { atom ((encode (.barg 0 1 2 5)).headD 0) 8 with kind := .barg, va := 0x1000, dst := 1, data2 := 1 }

theorem witness_global_barrier_completes :
    let s := paged (pending lastArrival { slot0 with waitE := .arrive })
    AtHome 0 4 pmdBase 8 lastArrival s ∧ decodeCore lastArrival.word = .ok (.barg 0 1 2 5) ∧
    lastArrival.data2.toNat % 2 ^ 32 ≤ valueAt s pmdBase 8 % 2 ^ 32 + 1 ∧ (s.slot 0).pend = [lastArrival] ∧
    (s.core (coreOf 0)).l1 = [] ∧ s.owes (coreOf 0) = false ∧ (s.inst ((s.slot 0).task.getD 0)).holds = false ∧ (s.slot 0).waitA = .none ∧
    (s.slot 0).waitE = .arrive ∧ (s.slot 0).st = 1 ∧ (s.slot 0).exposed = false ∧ (s.slot 0).upend = [] ∧
    s.xlSlot 0 lastArrival.va 8 .write = .hit (page 0xA1D) ∧ (page 0xA1D).pa lastArrival.va = pmdBase ∧ s.poison = [] ∧
    s.canAccess 16 (linesOf pmdBase 8) = true :=
  ⟨⟨by decide +kernel, by decide +kernel, by decide +kernel, by decide +kernel,
    ⟨2, false, rfl⟩, rfl, by decide +kernel, by decide +kernel, by decide +kernel, by decide +kernel, by decide +kernel⟩, by decide +kernel⟩

/-! ### Witnesses: system words and vector words -/

theorem witness_csr_words :
    ([0x010, 0x011, 0x020, 0x030, 0x041, 0x053, 0x100, 0x13F, 0x17F] : List Nat).all
      (fun c => (csrValue (at0 slot0 .esq).mySlot 0 c).isSome) = true ∧ YReads (at0 slot0 .esq) [3, 1] ∧
    mget [] (at0 slot0).mySlot.queues 0 = [] ∧
    cocfgBad (at0 slot0).mySlot (at0 slot0).myGraph.nctr 0x2000000000000000 = false ∧
    (at0 slot0).coNamed 0 0x3F = false ∧ ((at0 slot0).slot 0).exposed = false := by unfold YReads; decide +kernel

theorem witness_held_csr_writes :
    (let s := at0 { slot0 with csrWait := some (0x030, 5, 0) }
     (s.slot 0).csrWait = some (0x030, 5, 0) ∧ (s.slot 0).st ≠ 5 ∧ s.trapDue 0 = false ∧ mget [] (s.slot 0).queues 0 = []) ∧
    (let s := at0 { slot0 with csrWait := some (0x13F, 5, 3) }
     (s.slot 0).csrWait = some (0x13F, 5, 3) ∧ (s.slot 0).st ≠ 5 ∧ s.trapDue 0 = false ∧ s.coNamed 0 (0x13F - 0x100) = false) := by decide +kernel

/-- A way to decide that a sum is on the right with a given value. -/
theorem inr_of {α β : Type} [DecidableEq β] {o : α ⊕ β} {b : β}
    (h : (match o with | .inr x => decide (x = b) | .inl _ => false) = true) : o = .inr b := by
  cases o with
  | inl a => cases h
  | inr x => exact congrArg _ (of_decide_eq_true h)

/-- Slot 0 with an asynchronous cause to deliver and its two sequencers at one CBAR word. -/
def caused : State :=
  let u : UPend := { cause := 5 }
  let q : Seq := { pc := 0x1000, ended := false }
  { paged (at0 { slot0 with utvec := 64, upend := [u], asq := q, esq := q } .esq) with
      mem := writeLe [] pmdBase 4 0xC2000000 }

theorem witness_user_traps :
    (let s := at0 { slot0 with utvec := 64 } .esq
     s.mySlot.handler = false ∧ s.mySlot.utvec ≠ 0) ∧
    (at0 { slot0 with handler := true, st := 3 } .esq).mySlot.handler = true ∧
    ((caused.slot 0).upend = ({ cause := 5 } : UPend) :: [] ∧ (caused.slot 0).handler = false ∧
       (caused.slot 0).rendezvous = true ∧ (caused.slot 0).st = 1 ∧ fetchWord 0 .esq caused = .inr (0xC2000000, caused) ∧
       wordTag 0xC2000000 = 6 ∧ (caused.slot 0).utvec ≠ 0) :=
  ⟨by decide +kernel, by decide +kernel, by decide +kernel, by decide +kernel, by decide +kernel, by decide +kernel,
    inr_of (by decide +kernel), by decide +kernel, by decide +kernel⟩

theorem witness_rejected_words :
    (let s := at0 slot0
     s.sel.kind = .core ∧ s.fq.full = false ∧ s.mySlot.results = [] ∧ s.myInst.slots = [s.sel.slot]) ∧
    ({ sel := { kind := .mgmt } } : State).sel.kind = .mgmt := by decide +kernel

/-- The management core at a word, with a register, a return address and a loop. -/
def managing : State :=
  { sel := { kind := .mgmt }, mgmt := { x := [(1, 3)], ret := [64], loops := [{ start := 4, stop := 8, left := 2 }] } }

theorem witness_management_words :
    managing.isMgmt = true ∧ condition 1 (managing.mgmt.rx 1) ∧ ¬ condition 0 (managing.mgmt.rx 1) ∧ managing.mgmt.ret.length < 16 ∧
    managing.mgmt.ret = 64 :: [] ∧ (managing.mgmt.rx 1).toNat % 2 ^ 32 ≠ 0 ∧ (managing.mgmt.rx 0).toNat % 2 ^ 32 = 0 ∧
    managing.mgmt.loops.length < 8 :=
  ⟨by decide, show _ ≠ _ by decide, show ¬ (_ = _) by decide, by decide, by decide, by decide, by decide, by decide⟩

/-- A future at the start of the page, full with value 7 or empty, and a task record of 32 bytes in the same place. -/
def future (full : Nat) : State :=
  { paged (at0 { slot0 with x := [(1, 0x1000)], utvec := 64 } .esq) with mem := writeLe (writeLe [] pmdBase 8 full) (pmdBase + 8) 8 7 }

theorem witness_futures :
    (∀ full ∈ [0, 1],
      let s := future full
      YReads s [3, 1, 2] ∧ GlobalFree s (s.mySlot.rx 1).toNat 16 16 .read (part 16) true false ∧ Readable s (part 16) ∧
      s.mayRead 0 (part 16) 16 = true ∧ s.owes (coreOf 0) = false ∧ s.canAccess 0 (linesOf pmdBase 16) = true ∧
      leNat ((s.accBytes 0 0x1000 16 (part 16)).take 8) % 2 = full ∧ s.mySlot.handler = false ∧ s.mySlot.utvec ≠ 0) ∧
    (let s := future 0
     GlobalFree s (s.mySlot.rx 1).toNat 16 16 .write (part 16) true false ∧ s.released 0 = true ∧ s.myInst.holds = false ∧
       s.myInst.frozen = false ∧ s.putWaits s.myTask (linesOf pmdBase 16) = false ∧ s.canWrite 0 (linesOf pmdBase 16) = true ∧ (∀ i, i < 16 → s.pclass (pmdBase + i) = .pmd) ∧
       s.flips = []) := by
  unfold YReads GlobalFree Readable; decide +kernel

theorem witness_spawn_and_yield :
    let s := { future 0 with tgu := { insts := [(0, { st := .running, slots := [0] })], graphs := [(0, { desc := BitVec.ofNat 512 (2 ^ 144 + 7 * 2 ^ 208) })] } }
    GlobalFree s (s.mySlot.rx 1).toNat 32 32 .read (part 32) true false ∧ Readable s (part 32) ∧
    s.mayRead 0 (part 32) 32 = true ∧ s.forkReady 0 3 (fun _ => true) = true ∧ s.canAccess 0 (partLines (part 32)) = true ∧ s.poolCount < 2048 ∧
    nType (s.node s.myGraph 0) = 0 ∧ leNat (s.accBytes 0 0x1000 32 (part 32)) % 256 = 0 ∧ 0 < s.myGraph.nnode ∧
    (s.wanted s.myTask s.mySlot.eclass && (bothPass s s).canSave s.myTask) = false ∧
    (s.mySlot.rx 0).toNat % 64 = s.myInst.graph ∧ s.tguMay 3 = true := by unfold GlobalFree Readable; decide +kernel

/-- Node 0 of graph 0, of a type whose tasks have TLEN 64, with one CUT edge from itself; the task has published cut 1. -/
def cutting (frozen : Bool) : State :=
  let i : Inst := { st := .running, slots := [0], node := some 0, pub := 1, frozen := frozen, window := some [] }
  { at0 { slot0 with x := [(1, 0x1FF), (2, 0), (3, 0x102)] } .esq with
      tgu := { insts := [(0, i)], graphs := [(0, { desc := BitVec.ofNat 512 (2 ^ 144 + 2 ^ 176) })] },
      priv := [(0x8004, 64 * 2 ^ 32), (0xC000, 2 ^ 51)] }

theorem witness_cut_words :
    tTlen (cutting true).myType ≠ 0 ∧ (cutting true).myInst.frozen = true ∧ (cutting false).myInst.frozen = false ∧
    (cutting false).myInst.pub < ((cutting false).mySlot.rx 3).toNat % 256 ∧ (cutting false).myInst.fin = false ∧
    (cutting false).released 0 = true ∧ (cutting false).myInst.window = some [] ∧
    ((cutting false).mySlot.rx 1).toNat % 256 = 0xFF ∧
    (cutting false).cutIn (cutting false).myInst (((cutting false).mySlot.rx 2).toNat % 8) = some (2 ^ 51) ∧
    (cutting false).walkStop = none ∧ (∀ r, r < 3 → (cutting false).tguMay r = true) ∧
    (let u := publishCut 0 2 0 true (tguDid 1 (cutting false))
     (aftermath (bothPass u u)).walkStop = none) := by decide +kernel

/-- The same task, whose window is still to be read at its first CUTPOST. -/
def cuttingFirst : State :=
  let s := cutting false
  let s := setGraph 0 { desc := BitVec.ofNat 512 (2 ^ 144 + 2 ^ 176 + 0x1000) } (s.setInst 0 { s.inst 0 with window := none })
  { s with tlbs := [(tierEngine 12, [page 0xA1D])], mem := writeLe [] pmdBase 8 0x1040 }

theorem witness_first_cut :
    let r := windowOf 0 cuttingFirst
    let w := r.1.elim (fun _ => []) id
    r.1.isRight = true ∧ (r.2.windowHeld 0 w && r.2.commitWaits 0) = false ∧
    (let v := releaseWindow 0 (r.2.setInst 0 { r.2.inst 0 with window := some w })
     let u := publishCut 0 2 0 true (tguDid 1 v)
     (aftermath (bothPass u u)).walkStop = none) := by decide +kernel

theorem witness_votes :
    let e : Nat := 2 ^ 51
    let s := cutting false
    let u := (tguDid 2 s).setInst 0 { s.inst 0 with votes := [0] }
    (u.producerOf 0 0 e 0 0 0).isSome = true ∧ (u.inst 0).fin = false ∧ eMap e ≠ 2 ∧ u.fedBy (u.inst 0) e ≠ [] := by decide +kernel

/-- Slot 0 whose V word is in its issue turn, with both kinds of queues in use. -/
def issuing : State :=
  let e : QEnt := { id := 4, regs := [5, 6] }
  let s := at0 { slot0 with issuing := some (e, 0), shape := 2, masks := [(15, 32), (255, 32)], lq := [(2, [(4, some 9)])] } .esq
  { s with sel := { s.sel with issue := true } }
/-- Slot 0 in exposed mode. -/
def exposed : State := at0 { slot0 with exposed := true, shape := 2, masks := [(15, 32), (255, 32)], lq := [(2, [(4, some 9)])] } .esq

/-- What Runs asks of the state for a word. -/
def issues (s : State) (r : VRow) : Bool :=
  r.v ≠ some 0xF ∧ r.fits (contextOf s.mySlot r) = true ∧ s.mySlot.tokReady 0 r.tk = true ∧
    (r.ivl (contextOf s.mySlot r) = 1 ∨ (s.core (coreOf s.sel.slot)).unitBusy ≤ s.clk)

theorem witness_vector_words :
    (∀ s ∈ [issuing, exposed],
      (List.range 27).all (fun i => [1, 6].any fun v => (mergeRows 0 3 1 2 v s.mySlot)[i]?.any (issues s ·.1)) = true ∧
      (List.range 10).all (fun i => [1, 6, 9, 0xA, 2, 7].any fun v =>
        (wholeRows 0 3 1 2 v s.mySlot)[i]?.any (issues s ·.1)) = true) ∧
    issuing.sel.issue = true ∧ issuing.mySlot.issuing = some ({ id := 4, regs := [5, 6] }, 0) ∧
    exposed.sel.issue = false ∧ exposed.sel.party = .esq ∧ exposed.mySlot.exposed = true := by
  decide +kernel

/-! ### Witnesses: queues, matrix and transfer words -/

theorem witness_other_vector_words :
    (∀ s ∈ [issuing, exposed],
      [(.vins 0 3 1 2 6, 6), (.vcvt 0 3 1 8 6, 6), (.vqmx 0 3 1 1, 1), (.vshape 0 0 0 0 0, 0), (.vcmp 0 5 1 2 6, 6),
        (.minv 0, 0), (.mpop 0, 0), (.mset 0 1, 0), (.vxtr 0 3 1 2 6, 6), (.vqpop 0 3 2, 0), (.vqpush 0 1 2, 0),
        (.vaccr 0 3 255, 0), (.vaccw 0 3 255, 0)].all (fun w => issues s { i := w.1, tk := 0, v := some w.2 }) = true ∧
      vecType 8 = true ∧ s.mySlot.maskDepth + s.mySlot.maskPushes < 16 ∧ 1 < s.mySlot.masks.length ∧ mget [] s.mySlot.lq 2 = (4, some 9) :: [] ∧ s.mySlot.sqFull 1 = false) ∧
    (issuing.mySlot.rowFree 4 255 = true ∧ 255 < issuing.mySlot.accRows ∧ ∀ w, issuing.accOrdered 0 issuing.mySlot.vWalk 4 w = true) ∧
    (exposed.mySlot.rowFree exposed.mySlot.nextId 0 = true ∧ 0 < exposed.mySlot.accRows ∧
      ∀ w, exposed.accOrdered 0 exposed.mySlot.vWalk exposed.mySlot.nextId w = true) := by decide +kernel

theorem witness_argmax :
    let c := contextOf issuing.mySlot { i := .vargmax 0 3 1 6, tk := 0, v := some 6 }
    vecType c.t = true ∧ isInt c.t = true ∧ 0 < c.n ∧ issuing.mySlot.topMask.getLsbD 0 = true := by decide +kernel

theorem witness_v_queue :
    let s := at0 { slot0 with shape := 8, queues := [(0, List.replicate 31 {})] } .esq
    s.sel.issue = false ∧ s.sel.party = .esq ∧ s.mySlot.exposed = false ∧ (mget [] s.mySlot.queues 0).length < 32 ∧
    (vectorRows 0 0 8 1 0 0 0 3 1 2 0 0 s.mySlot).all (fun w => w.v ≠ some 0xF ∧
      (w.fits (contextOf s.mySlot w) = true ∨ w.i = .vshl 0 3 1 2 1 ∨ w.i = .vshr 0 3 1 2 1 ∨ w.i = .vrsum 0 3 1 1 ∨
        w.i = .vpack 0 3 1 2 1 ∨ w.i = .vunpk 0 3 1 0 1 ∨ w.i = .vunpk 0 3 1 1 1) ∧
      w.xs.all fun y => s.mySlot.busyX y = false) = true ∧
    (vectorRows 0 0 8 6 0 0 0 3 1 2 0 0 s.mySlot).all (fun w =>
      w.fits (contextOf s.mySlot w) = true ∨ ¬ (w.i = .vshl 0 3 1 2 6 ∨ w.i = .vshr 0 3 1 2 6)) = true := by decide +kernel

theorem witness_issue :
    ∀ q, q < 4 → let s := at0 { slot0 with queues := [(q, [{ word := 0x60000000 }, {}])] }
      mget [] (s.slot 0).queues q = { word := 0x60000000 } :: [{}] ∧ s.coreRuns (coreOf 0) = true ∧
      s.headReady 0 q = true ∧ s.engineTakes 0 q = true := by decide +kernel

theorem witness_result_landing :
    let sl := { slot0 with masks := [(3, 16), (255, 32)] }
    ∀ r ∈ ([{ v := some (31, 5, 9), inter := true }, { x := some ((31 : BitVec 5).toNat, 5), inter := true },
        { masks := some (.push 3 8), inter := true }, { masks := some (.pop 2), inter := true },
        { masks := some (.repl 2 3), inter := true }, { sq := some (1, 5), inter := true },
        { acc := some (255, 5), inter := true }] : List Res),
      let s := at0 { sl with results := [r, {}] }
      (s.slot 0).results = r :: [{}] ∧ r.inter = true ∧ r.tok = 0 := by decide +kernel

/-- A stream: base, type and space, and its levels' counts with source and destination steps; absent levels count 1. -/
def strm (base cfg : Nat) (l : List (Nat × Int × Int)) (scale : Nat := 0) : List Word :=
  [BitVec.ofNat 64 base, BitVec.ofNat 64 cfg, BitVec.ofNat 64 scale, 1]
    ++ (List.range 6).map (fun i => BitVec.ofNat 64 ((l.map (·.1)).getD i 1))
    ++ (List.range 6).map (fun i => BitVec.ofInt 64 ((l.map (·.2.1)).getD i 0))
    ++ (List.range 6).map (fun i => BitVec.ofInt 64 ((l.map (·.2.2)).getD i 0))
/-- The storage of streams by number. -/
def streams (l : List (Nat × List Word)) : Map Word := l.flatMap fun p => p.2.mapIdx fun i w => (32 * p.1 + i, w)
/-- 64 runs of 64 values of type MI8 in scratchpad, and 3 elements of type I16. -/
def matStream : List Word := strm 0 0xB [(64, 0, 0), (64, 64, 64)] 0x2000
def movStream : List Word := strm 0x100 1 [(3, 2, 2)]
/-- Slot 0 with these streams; x1 and a1 describe one macro at WF 0, which as a drain is 64 rows. -/
def moving (p : Party) : State :=
  let sl := { slot0 with streams := streams [(1, matStream), (2, movStream)], x := [(1, 64)],
                         queues := [(1, List.replicate 15 {}), (2, List.replicate 31 {}), (3, List.replicate 7 {})] }
  { at0 sl p with priv := [(0x8003, 0x80000000)] }

theorem witness_matrix_queue :
    let s := moving .esq
    s.sel.issue = false ∧ s.mySlot.asq.reached s.mySlot.esq.walk = true ∧ (mget [] s.mySlot.queues 1).length < 16 ∧
    s.mySlot.stream 1 = matStream ∧ s.mySlot.busyX 1 = false ∧ (0 + 63 < 64) ∧ planeLegal 64 matStream ∧
    sType matStream = 0xB + mdWf 64 ∧ sRuns matStream = mdNmac 64 * wCols (mdWf 64) ∧ mdAf 64 = 0 ∧ mdCut 64 = 0 ∧
    ddRows 64 ≠ 0 ∧ ddSrc 64 = 0 ∧ sCount matStream = ddRows 64 * ddVals 64 ∧
    s.mySlot.checker.length + (streamIvs false matStream).length ≤ 64 := by unfold planeLegal; decide +kernel

theorem witness_transfer_queue :
    ∀ p ∈ [Party.asq, .helper],
      let s := moving p
      s.sel.issue = false ∧ (mget [] s.mySlot.queues 2).length < 32 ∧ (mget [] s.mySlot.queues 3).length < 8 ∧
      s.mySlot.stream 2 = movStream ∧ s.mySlot.busyP p 1 = false ∧ s.mySlot.rp p 1 = 0 ∧ moveLegal movStream true ∧
      moveLegal movStream false ∧ sSpace movStream = 0 ∧ isInt (sType movStream) = true ∧
      bit (tBarids s.myType) (31 : BitVec 5).toNat = true ∧ s.myInst.slots[haloMember 0]? = some 0 ∧
      moveLegal matStream true := by
  unfold moveLegal; decide +kernel

/-- Slot 0 with an M word in its issue turn, that holds sections 0 and 1 of cluster 0. -/
def matrix (w : List W32) (d : Word) (s1 : List Word) (mops : List MOp := []) : State :=
  let e : QEnt := { word := w.headD 0, id := 4, regs := [d], s1 := s1 }
  let s := at0 { slot0 with issuing := some (e, 1), mops := mops } .esq
  let cl : Cluster := { secs := [(0, { holder := some 0, uses := 255 }), (1, { holder := some 0 })] }
  { s with sel := { s.sel with issue := true }, clusters := [(0, cl)] }

theorem witness_matrix_words :
    (∀ x ∈ [(.mplane 0 1 1, 64), (.mstep 0 1 1 192, 64), (.mdrain 0 1 1 192, 64)],
      let s := matrix (encode x.1) x.2 matStream
      ∃ e, s.mySlot.issuing = some (e, 1) ∧ e.regs.headD 0 = x.2 ∧ e.s1 = matStream ∧ s.sel.issue = true ∧
        s.mySlot.tokReady 1 0 = true ∧ decodeCore e.word = .ok x.1) ∧
    (let s := matrix (encode (.mstep 0 1 1 192)) 64 matStream
     SectionsReady s 0 (secsOf ((List.range (mdNmac 64)).map (mdFirst 64 + ·))) ∧ streamBad s.mySlot matStream = none ∧
       accBad s.mySlot (mRows ((encode (.mstep 0 1 1 192)).headD 0) 64 matStream 0) = none ∧
       (∀ m ∈ (List.range (mdNmac 64)).map (mdFirst 64 + ·), (s.mac 0 m).active.bad = false) ∧
       192 + ddRows 64 ≤ s.mySlot.accRows ∧ 0 + 255 + 1 ≤ s.mySlot.accRows) := by
  refine ⟨?_, by unfold SectionsReady; decide +kernel⟩
  intro x hx
  simp only [List.mem_cons, List.mem_nil_iff, or_false] at hx
  rcases hx with rfl | rfl | rfl <;> exact ⟨_, rfl, by rfl, by rfl, by rfl, by decide +kernel, by rfl⟩

/-- The same with no access of the word's scratchpad intervals to wait for, and its ASQ past it; macro 0 has a tag of its own. -/
def alone (i : Instr) (st : List Word := matStream) : State :=
  (matrix (encode i) 64 st).modSlot 0 fun sl => { sl with asq := { walk := 1 } }
/-- 4096 values of type I8, one after another. -/
def drainStream : List Word := strm 0 0 [(64, 1, 1), (64, 64, 64)]

theorem witness_matrix_runs :
    (∀ x ∈ [(.mplane 0 1 1 : Instr), .mdrain 0 1 1 192, .mzero 0 255 0, .mstep 0 1 1 192],
      let s := alone x
      ∃ e, s.mySlot.issuing = some (e, 1) ∧ e.regs.headD 0 = 64 ∧ decodeCore e.word = .ok x ∧ RowsFree s e) ∧
    (let s := alone (.mstep 0 1 1 192)
     SectionsReady s 0 (secsOf [0]) ∧ streamBad s.mySlot matStream = none ∧ sCount matStream ≠ 0 ∧ planeLegal 64 matStream ∧
       0 + 255 + 1 ≤ s.mySlot.accRows ∧ mdAf 64 = 0 ∧ mdCut 64 = 0 ∧ 192 + sRuns matStream * (mdNmac 64 * 1) ≤ s.mySlot.accRows ∧
       (s.mac 0 0).active.bad = false ∧ mdTag 64 = 0 ∧ (List.range (mdNmac 64)).map (mdFirst 64 + ·) = [0]) ∧
    (let s := alone (.mdrain 0 1 1 192) drainStream
     streamBad s.mySlot drainStream = none ∧ 192 + ddRows 64 ≤ s.mySlot.accRows ∧ sCount drainStream = ddRows 64 * ddVals 64 ∧
       sCount drainStream ≠ 0 ∧ isMx (sType drainStream) = false ∧
       ((List.range 4096).zipWith (fun i a => a == srcAddr drainStream i) ((List.range 4096).map fun i => i)).all id = true) := by
  refine ⟨?_, by unfold SectionsReady planeLegal; decide +kernel, by decide +kernel⟩
  intro x hx
  simp only [List.mem_cons, List.mem_nil_iff, or_false] at hx
  rcases hx with rfl | rfl | rfl | rfl <;> refine ⟨_, rfl, by rfl, by decide +kernel, ?_⟩ <;>
    exact ⟨by decide +kernel, by decide +kernel, by decide +kernel, by decide +kernel, by decide +kernel, by decide +kernel,
      fun _ h => (nomatch h), by decide +kernel, by decide +kernel, by decide +kernel⟩

theorem witness_leases :
    (let s := matrix (encode (.mlease 0 3)) 0 []
     s.sel.issue = true ∧ s.mySlot.tokReady 1 0 = true ∧ (s.cluster 0).arrdis &&& 3 = 0 ∧ 3 &&& ~~~heldSecs s 0 = 0) ∧
    (let s := matrix (encode (.mlease 0 15)) 0 []
     (s.cluster 0).arrdis &&& 15 = 0 ∧ 15 &&& ~~~heldSecs s 0 ≠ 0) ∧
    (let o : MOp := { org := { word := (encode (.mstep 0 1 1 0)).headD 0 }, desc := 64 }
     let s := matrix (encode (.mfree 0 2)) 0 [] [o]
     (s.cluster 0).arrdis &&& 2 = 0 ∧ ∀ w ∈ s.mySlot.mops, secsOf w.macs &&& 2 = 0) ∧
    (let s := matrix (encode (.mswap 0 0 31 1)) 7 []
     (∃ e, s.mySlot.issuing = some (e, 1) ∧ decodeCore e.word = .ok (.mswap 0 0 31 1)) ∧
       SectionsReady s 0 (secsOf (List.range 32)) ∧ (∀ j ∈ List.range 32, (s.mac 0 j).shadow.bad = false) ∧
       (s.mac 0 31).shadow.tag.toNat ≠ 7 ∧ ∀ w ∈ s.mySlot.mops, ∀ j ∈ w.macs, j ∉ List.range 32) ∧
    (let s := matrix (encode (.mcommit 0 0 0)) 0 [] [{ batch := 0 }]
     s.mySlot.batches = [] ∧ s.walkStop = none ∧ ∃ w ∈ s.mySlot.mops, w.batch = 0) ∧
    (let s := matrix (encode (.mcommit 0 0 0)) 0 [] []
     s.mySlot.batches = [] ∧ s.walkStop = none ∧ ∀ w ∈ s.mySlot.mops, w.batch ≠ 0) :=
  ⟨by decide +kernel, by decide +kernel, by decide +kernel,
    ⟨⟨_, rfl, by rfl⟩, by unfold SectionsReady; decide +kernel, by decide +kernel, by decide +kernel, by decide +kernel⟩,
    by decide +kernel, by decide +kernel⟩

theorem witness_matrix_waits :
    (let s := at0 { slot0 with batches := [{}] } .esq
     mget [] s.mySlot.queues 1 = [] ∧ s.mySlot.tokReady 1 0 = true ∧ s.mySlot.batches.length ≤ (1 : BitVec 4).toNat) ∧
    (let s := at0 slot0 .esq
     s.mySlot.busyP .esq 3 = false ∧ s.mySlot.mops = [] ∧ s.mySlot.batches = []) := by decide +kernel

theorem witness_matrix_events :
    (let o : MOp := { org := { word := (encode (.mzero 0 255 0)).headD 0 }, id := 4, rows := 256, cursor := 255 }
     let s := at0 { slot0 with mops := [o] }
     (s.slot 0).mops = [o] ∧ o.parked = false ∧ o.cursor < o.rows ∧ (s.slot 0).mopReady o = true ∧ o.resumed = false ∧
       o.restored = false ∧ decodeCore o.org.word = .ok (.mzero 0 255 0) ∧ (s.slot 0).st ≠ 5 ∧ s.pkg.stopped = false) ∧
    (let o : MOp := { id := 4, rows := 8, cursor := 8 }
     let s := at0 { slot0 with mops := [o] }
     (s.slot 0).mops = [o] ∧ o.cursor = o.rows ∧ o.org.sbit = false ∧ (s.slot 0).batches = [] ∧ s.walkStop = none) ∧
    (let s := { at0 slot0 with clusters := [(3, { reqs := [(49, 9), (48, 8)] })] }
     (s.cluster 3).reqs[0]? = some (49, 9) ∧ ∀ j, j < 4 → (9 : BitVec 4).getLsbD j = true →
       (s.cluster 3).arrdis.getLsbD j = false ∧ (s.sec 3 j).holder = none) ∧
    (let s := { at0 slot0 with clusters := [(0, { secs := [(3, { holder := some 0, uses := 256 })] })] }
     (s.sec 0 3).holder = some 0 ∧ (s.sec 0 3).spent = true ∧ (s.sec 0 3).recal = false ∧ s.secBusy 0 3 = false ∧
       ∀ r ∈ (s.cluster 0).reqs, r.1 = 0) ∧
    (let s := { at0 slot0 with clusters := [(0, { secs := [(3, { holder := some 0, uses := 256 })], reqs := [(1, 8)] })] }
     (s.sec 0 3).holder = some 0 ∧ (s.sec 0 3).spent = true ∧ (s.sec 0 3).recal = false ∧ s.secBusy 0 3 = false ∧
       (s.cluster 0).reqs = [(1, 8)] ∧ (8 : BitVec 4).getLsbD 3 = true ∧ s.grantable 0 8 (s.atPoint 0 0) = true ∧
       (s.nextUses 0 3 && s.reqFirst 0 0 1) = false) ∧
    ((at0 slot0).sec 3 3).recal = false ∧ ((at0 slot0).cluster 3).arrdis.getLsbD 3 = false ∧
    ((at0 slot0).sec 3 3).holder = none ∧
    (({ at0 slot0 with clusters := [(0, { secs := [(3, { recal := true })] })] } : State).sec 0 3).recal = true := by decide +kernel

/-! ### Witnesses: transfers and command lists -/

/-- Slot 0 with a T word of queue q in its issue turn. -/
def transferring (q : Nat) (regs : List Word) (cos : Map Co := []) (claim : Option Nat := none) : State :=
  let e : QEnt := { id := 4, regs := regs, claim := claim }
  let s := at0 { slot0 with issuing := some (e, q), cos := cos } (if q = 3 then .helper else .asq)
  { s with sel := { s.sel with issue := true } }

theorem witness_transfers_begin :
    (∀ q ∈ [2, 3],
      let s := transferring q [2 ^ 32] [(63, { cfg := 0x2000000000000000 })]
      (∃ e ∈ s.mySlot.issuing.map (·.1), s.mySlot.issuing = some (e, partyQueue s.sel.party) ∧ e.regs.headD 0 = 2 ^ 32) ∧
      s.sel.issue = true ∧ s.mySlot.tokReady (partyQueue s.sel.party) 0 = true ∧ (s.core (coreOf s.sel.slot)).xops.length < 512 ∧
      (mget {} s.mySlot.cos 63).kind = 1 ∧ s.myInst.slots[2 ^ 32 / 2 ^ 24 % 16]? = some 0) ∧
    (let s := transferring 2 [0] [(5, { cfg := 0x6000303004000000 })] (some 3)
     (mget {} s.mySlot.cos 5).kind = 3 ∧ (s.mySlot.issuing.bind (·.1.claim)) = some 3) := by decide +kernel

theorem witness_engines_begin :
    (let s := transferring 2 [0x1000, 49144, 7]
     (49144 : Word).toNat % 8 = 0 ∧ (49144 : Word).toNat + 8 ≤ s.mySlot.spSize ∧ s.mySlot.helper.run = false) ∧
    (let s := transferring 2 [0x1000, 0xFF] [(63, { cfg := 0x6000303004000000 })]
     contextNo 0xFF = 255 ∧ (s.ctx (contextNo 0xFF)).run = false ∧ (mget {} s.mySlot.cos 63).kind = 3 ∧
       mget unbound (s.ctx (contextNo 0xFF)).links 7 = unbound) := by decide +kernel

/-- One operation of core 0's transfer engine, of the task in slot 0. -/
def oneXop (o : XOp) (sl : Slot := slot0) : State := { at0 sl with cores := [(0, { xops := [o], sp := [(3, 7)] })] }

theorem witness_pieces :
    (let o : XOp := { id := 4, s1 := movStream, chunks := [{ src := [3, 4], dst := [8, 9] }] }
     let s := oneXop o
     (s.core 0).xops = [o] ∧ sSpace o.s1 = 0 ∧ coreOf o.org.slot = 0 ∧ (s.slot o.org.slot).st ≠ 5 ∧ s.pkg.stopped = false ∧
       o.mayTouch false s = true) ∧
    (let p : Chunk := { src := [3, 4, 16], dst := [15, 16, 17] }
     (groupsOf 16 0 p.src).filter (fun g => !p.got.any (·.1 == g.1)) = [(0, 2), (2, 1)] ∧ p.isRead = false) ∧
    (let p : Chunk := { src := [3, 4, 16], dst := [15, 16, 17], got := [(2, 5), (0, 7), (1, 0)], put := [0] }
     let o : XOp := { id := 4, s1 := movStream, chunks := [p] }
     let s := oneXop o
     (s.core 0).xops = [o] ∧ (groupsOf 16 0 p.dst).filter (fun g => !p.put.contains g.1) = [(1, 2)] ∧ p.isRead = true ∧
       p.dst.Nodup ∧ p.launch = false ∧ (∀ b ∈ p.dst, (s.slot o.org.slot).spBase ≤ b) ∧ o.mayTouch true s = true) := by decide +kernel

/-- The window of slot 0 with an index row 2, 1 at 0x400 and bytes to move. -/
def indexed (e : QEnt) (sl : Slot) : State :=
  let s := at0 { sl with issuing := some (e, 2) }
  { s with cores := [(0, { sp := [(0x100, 7), (0x101, 8), (0x104, 9), (0x110, 3), (0x125, 6), (0x400, 2), (0x404, 1)] })],
           sel := { s.sel with issue := true } }
/-- Two rows of three I16 values, whose sources are 16 bytes and whose destinations are 6 bytes apart, and their indices. -/
def rowStream : List Word := strm 0x100 1 [(3, 2, 2), (1, 16, 6)]
def idxStream : List Word := strm 0x400 2 [(2, 4, 0)]
/-- A transfer from 0x100 to 0x200, or with indices, at issue. -/
def moves : QEnt := { id := 4, regs := [0x200], s1 := movStream, walk := some 0 }
def moves2 : QEnt := { moves with s1 := rowStream, s2 := idxStream }
/-- Every unit of o lies in the window, writes no byte that o reads and none that another unit writes. -/
def unitsApart (o : XOp) (s : State) : Bool :=
  (List.range o.units).all fun j => match xUnitCheck o (tierXfer 0) j s with
    | (.inr (_, db, false), t) => decide (t = s) && (List.range o.units).all fun l => match (xUnitCheck o (tierXfer 0) l s).1 with
      | .inr (sb, d, _) => db.all fun b => !sb.contains b && (l == j || !d.contains b)
      | _ => false
    | _ => false

theorem witness_scratchpad_transfers :
    (∀ x ∈ [(moves, XKind.copySp), (moves2, .gath), (moves2, .scat), ({ moves with regs := [2 ^ 32 + 0x200] }, .halo)],
      let s := indexed x.1 { slot0 with cos := [(63, { cfg := 0x2000000000000000 })] }
      let o0 := transferOf s x.1 (origin s x.1 0 1 63) x.2
      let o := if x.2 = .halo then { o0 with base := 0x200, peer := 0, wait := some (5, 1) } else o0
      s.sel.issue = true ∧ s.mySlot.issuing = some (x.1, partyQueue s.sel.party) ∧ (mget {} s.mySlot.cos 63).kind = 1 ∧
        sSpace x.1.s1 = 0 ∧ (s.core 0).xops = [] ∧ s.slotOf o.org = some s.sel.slot ∧ o.units = (if o.gather then 6 else 3) ∧
        (∀ w, o.mayTouch w s = true) ∧ unitsApart o s = true ∧ o.org.cfg.toNat / 2 ^ 61 = 1 ∧
        (o.gather = true → srcBounds o.s2 = (0x400, 0x407)) ∧ s.myInst.slots[(2 ^ 32 + 0x200) / 2 ^ 24 % 16]? = some 0) ∧
    (let s := indexed moves { slot0 with seen := [(5, 1)] }
     (2 ^ 32 + 0x200) / 2 ^ 32 % 2 ^ 16 = 1 ∧ (mget 0 s.mySlot.seen 5 + 65536 - 1) % 65536 < 32768) := by decide +kernel

theorem witness_transfers_retire :
    (let o : XOp := { id := 4, s1 := movStream, cursor := 3, org := { sbit := true, co := 63, cfg := 0x2000000000000000 } }
     let s := oneXop o { slot0 with cos := [(63, { cfg := 0x2000000000000000 })] }
     (s.core (coreOf 0)).xops = [o] ∧ o.parked = false ∧ o.units ≤ o.cursor ∧ o.chunks = [] ∧ o.wait = none ∧ o.kind = .copySp ∧
       o.org.cfg.toNat / 2 ^ 61 = 1 ∧ s.slotOf o.org = some 0 ∧ (mget {} (s.slot 0).cos 63).count ≠ BitVec.allOnes 32 ∧ o.org.slot = 0 ∧ s.walkStop = none) ∧
    (let o : XOp := { id := 4, kind := .ring, s1 := movStream, cursor := 3, ringCo := 5, ringSlot := 3 }
     let s := oneXop o
     (s.core (coreOf 0)).xops = [o] ∧ o.units ≤ o.cursor ∧ o.org.sbit = false ∧ s.slotOf o.org = some 0) ∧
    (let h : Helper := { run := true, ending := true, flag := 49144, h := [(1, 7)] }
     let s := at0 { slot0 with helper := h }
     (s.slot 0).helper = h ∧ mget [] (s.slot 0).queues 3 = [] ∧ (s.core (coreOf 0)).xops = [] ∧ s.eops = [] ∧ s.gctx = [] ∧
       (s.slot 0).st = 1 ∧ (s.slot 0).checker = []) := by decide +kernel

theorem witness_ring_claims :
    (let e : QEnt := { word := (encode (.copy 0 2 1 0 1 1 5)).headD 0 }
     let s := at0 { slot0 with queues := [(3, [e])], cos := [(5, { cfg := 0x6000303004000000, free := 1 })] }
     mget [] (s.slot 0).queues 3 = e :: [] ∧ e.claim = none ∧ (mget {} (s.slot 0).cos 5).kind = 3 ∧
       (mget {} (s.slot 0).cos 5).free ≠ 0 ∧ decodeCore e.word = .ok (.copy 0 2 1 0 1 1 5) ∧ (s.slot 0).st ≠ 5) ∧
    (let c : GCtx := { claim := some (3, 7), links := [(7, (0, 5, 0))] }
     let s := { at0 { slot0 with cos := [(5, { cfg := 0x6000303004000000, free := 1 })] } with gctx := [(255, c)] }
     (s.ctx 255).claim = some (3, 7) ∧ s.linkOf (s.ctx 255) 7 = some (0, 5)) ∧
    (let o : XOp := { id := 4, kind := .push, s1 := movStream, cursor := 3, ringCo := 5, peer := 63 }
     let s := { at0 slot0 with gctx := [(255, { pushes := [o] })] }
     (s.ctx 255).pushes = [o] ∧ o.parked = false ∧ o.units ≤ o.cursor ∧ o.chunks = [] ∧ o.wait = none) := by decide +kernel

/-- Gleaner 31's context 7 at a list, with the page of the tests in the gleaner's TLB. -/
def gleaning (c : GCtx) : State :=
  let s := at0 slot0
  { s with sel := { s.sel with kind := .glean, ctx := 255 }, gctx := [(255, c)], tlbs := [(tierGlean 31, [page 0xA1D])],
           mem := writeLe [] (pmdBase + 0xFF8) 8 5 }

/-- A way to decide that a gleaner's read answers. -/
theorem val_of {o : GRead} {v : Nat} {s : State}
    (h : (match o with | .val x t => decide (x = v) && decide (t = s) | _ => false) = true) : o = .val v s := by
  cases o <;> simp_all
/-- A way to decide that the side of a transfer has no fault. -/
theorem side_of {α β : Type} [DecidableEq β] {o : (α ⊕ β) × State} {b : β} {s : State}
    (h : ((match o.1 with | .inr x => decide (x = b) | .inl _ => false) && decide (o.2 = s)) = true) : o = (.inr b, s) := by
  obtain ⟨o, t⟩ := o
  cases o <;> simp_all

theorem witness_gleaner_reads : Answers (gleaning {}) 0x1FF8 5 ∧ Answers (gleaning {}) 0x1000 0 :=
  ⟨⟨val_of (by decide +kernel), by decide +kernel, by decide +kernel⟩, val_of (by decide +kernel), by decide +kernel, by decide +kernel⟩

theorem witness_gleaner_words :
    (let s := gleaning { pushes := [{}] }
     s.myCtx.pushes ≠ []) ∧ (gleaning {}).myCtx.pushes = [] ∧ (5 : BitVec 22).toNat ≤ (5 : Word).toNat ∧
    (let s := gleaning { links := [(7, (0, 5, 0))], loops := [(0x1004, 9, 2), (0x1004, 9, 2), (0x1004, 9, 2)], pc := 0x1010 }
     (∀ y ∈ s.myCtx.loops, (s.myCtx.pc + 4).toNat + 4 * 4 ≤ y.1.toNat + 4 * y.2.1) ∧ s.myCtx.loops.length < 4) ∧
    (let s := { gleaning { links := [(7, (0, 5, 0))] } with
                  slots := [(0, { slot0 with cos := [(5, ({ cfg := 0x6000303004000000 } : Co))] })] }
     s.linkOf s.myCtx 7 = some (0, 5) ∧ (mget ({} : Co) (s.slot 0).cos 5).kind = 3) ∧
    (let s := { gleaning {} with tgu := { insts := [(0, {})], graphs := [(0, { desc := BitVec.ofNat 512 (7 * 2 ^ 208) })] } }
     s.myCtx.pushes = [] ∧ s.signalWaits s.myCtx.org 5 false = false ∧ (6 : BitVec 16).toNat < ((s.graph? (s.inst s.myCtx.org.task).graph).getD {}).nctr) := by decide +kernel

theorem witness_gleaner_writes :
    Written (gleaning {}) 0x1FF8 (pmdBase + 0xFF8) ∧
      xlEngine (tierGlean ((gleaning {}).sel.ctx / 8)) (gleaning {}).myCtx.space (0x1FF8 : Word).toNat 8 .write (gleaning {})
        = (.inr (pmdBase + 0xFF8, (page 0xA1D).pte.toNat), gleaning {}) ∧ pteStr (page 0xA1D).pte.toNat = false :=
  ⟨⟨by decide +kernel, by decide +kernel, by decide +kernel, by decide +kernel, by decide +kernel, by decide +kernel, by decide +kernel,
    false, side_of (by decide +kernel)⟩, side_of (by decide +kernel), by decide +kernel⟩

/-- The context with pattern 3, of three I16 values at 0x1FF8, and its link 7 to ring 5 of slot 0. -/
def pushing : State :=
  let q : Pattern := { f := [(0, 0x1FF8), (1, 1), (4, 3), (5, 1), (6, 1), (7, 1), (8, 1), (9, 1), (10, 2), (16, 2)] }
  { gleaning { links := [(7, (0, 5, 0))], pats := [(3, q)] } with
      slots := [(0, { slot0 with cos := [(5, ({ cfg := 0x6000303004000000, free := 1, next := 1 } : Co))] })] }

theorem witness_gleaner_pushes :
    let s := pushing
    let q := s.myCtx.pat 3
    let r := mget ({} : Co) (s.slot 0).cos 5
    let o : XOp := { id := s.myCtx.nextPush, kind := .push, org := s.myCtx.org, s1 := q.stream, peer := 0, ringCo := 5,
                     ringSlot := r.next, sc := q.sc, dscale := q.dscale, link := 7, space := s.myCtx.space }
    s.linkOf s.myCtx 7 = some (0, 5) ∧ r.kind = 3 ∧ r.free ≠ 0 ∧ s.myCtx.pushes = [] ∧ s.pkg.stopped = false ∧ o.units = 3 ∧
    (List.range 3).all (fun j => ((xUnitCheck o (tierGlean 31) j s).1 matches .inr ([_, _], [_, _], false)) &&
      decide ((xUnitCheck o (tierGlean 31) j s).2 = s)) = true ∧
    s.canAccess 16 [lineOf (pmdBase + 0xFF8), lineOf (pmdBase + 0xFFD)] = true ∧
    s.flips = [] ∧ s.poison = [] := by decide +kernel

/-! ### Witnesses: NBUs, memory-command sequencers and their operations -/

/-- NBU 255 whose thread 15 takes a word. -/
def thinking (v : NThread) (n : Nbu := {}) : State :=
  { at0 slot0 with sel := { kind := .nbu, nbu := 255, thread := 15 }, nbus := [(255, { n with nclk := 16, threads := [(15, v)] })] }

theorem witness_nbu_scalars :
    (let v := (thinking { n := [(1, 4294967295)], pc := 9, loops := [(8, 9, 2)] }).myThread
     v.rn 1 ≠ 0 ∧ v.rn 0 = 0 ∧ 0 ≤ v.pc + (-9 : BitVec 18).toInt ∧ (v.rn 1).toNat ≠ 0 ∧ (v.rn 0).toNat = 0 ∧ (1023 : BitVec 10) ≠ 0 ∧
       v.loops.length < 2 ∧ v.dp = []) ∧
    (thinking { dp := [{}] }).myThread.dp ≠ [] := by decide +kernel

theorem witness_nbu_banks :
    (let s := thinking {} { grant := 7 }
     s.flips = [] ∧ s.granted 3 = false ∧ s.granted 2 = true) ∧
    (∀ k, k < 4 → (thinking {}).granted k = true) ∧
    (let s := thinking { n := [(1, 131071)] } { openRow := [(2, 131071)] }
     s.isOpen 3 ((s.myThread.rn 1).toNat % 2 ^ 17) = false ∧ s.isOpen 2 ((s.myThread.rn 1).toNat % 2 ^ 17) = true) ∧
    (let s := thinking { rows := [(3, 131071)] } { grant := 7 }
     lookupN s.myThread.rows 3 = some 131071 ∧ s.granted 3 = false) ∧
    (let s := thinking { rows := [(3, 131071)], n := [(1, 60)] } { openRow := [(3, 0)] }
     lookupN s.myThread.rows 3 = some 131071 ∧ s.granted 3 = true ∧ s.isOpen 3 131071 = false ∧ s.isStriped 255 3 131071 60 = false ∧
       s.myThread.busyQ [0, 1, 2, 3, 4, 5, 6, 7] = false) ∧
    (let s := thinking { rows := [(3, 131071)], n := [(1, 60)], q := [(6, 2 ^ 40)] } { openRow := [(3, 131071)] }
     Points s [(3, 131071)] ∧ s.canAccess 16 [lineOf (columnAt s 3 131071 ((60 + 63) % 64))] = true ∧
       s.isStriped 255 3 131071 60 = false ∧ s.myThread.busyQ [0, 1, 2, 3, 4, 5, 6, 7] = false ∧
       s.hostHolds [lineOf (columnAt s 3 131071 60)] = false ∧ (∀ k, k < 32 → s.pclass (columnAt s 3 131071 60 + k) = .pmd) ∧
       (s.inst ((s.eop? s.myThread.org).getD {}).org.task).frozen = false) := by unfold Points; decide +kernel

theorem witness_nbu_datapath :
    (let s := thinking { rows := [(3, 131071), (2, 0)], n := [(1, 48)] } { busy := 15, openRow := [(2, 0), (3, 131071)] }
     (s.nbu s.sel.nbu).busy ≤ s.nclk ∧ s.flips = [] ∧ 2 ≤ (5 : BitVec 3).toNat ∧ (5 : BitVec 3).toNat ≤ 5 ∧
       (s.myThread.rn 1).toNat % 64 ≤ 48 ∧ Points s [(2, 0), (3, 131071)]) ∧
    (let d : NDp := { due := 16, adds := [{ q := 7, p := -1 }] }
     let s := thinking { dp := [d] }
     (s.thread 255 15).dp = d :: [] ∧ d.due ≤ (s.nbu 255).nclk ∧ d.adds = [{ q := 7, p := -1 }]) := by
  unfold Points; decide +kernel

/-- The machine with an operation 4 outside the cores, and a channel's sequencer. -/
def working (o : EOp) (ch : Nat := 0) (m : Mcs := {}) : State := { at0 slot0 with eops := [(4, o)], mcs := [(ch, m)] }

theorem witness_sequencer_commands :
    (let s := working { kind := .pimld, todo := [255, 7] } 31 { cmds := [.pload 255 2047 [9] 4] }
     (s.chan 31).cmds = .pload 255 2047 [9] 4 :: [] ∧ s.eop? 4 = some { kind := .pimld, todo := [255, 7] } ∧
       ([255, 7] : List Nat).filter (· ≠ 255) ≠ [] ∧ s.walkStop = none) ∧
    (let s := working { kind := .pimld, todo := [255] } 31 { cmds := [.pload 255 2047 [9] 4] }
     s.retireWaits { kind := .pimld } = false ∧
       (eRetire 4 { kind := .pimld } ((s.setChan 31 { s.chan 31 with cmds := [] }).setNbu 255 { code := [(2047, 9)] })).walkStop = none) ∧
    (∀ c ∈ ([.pactb 255 0x8000 [1], .pstart 255 0x8000 2047 5 4, .pgrant 255 15, .prevoke 255 8, .pstat 255] : List McsCmd),
      ((working {} 31 { cmds := [c] }).chan 31).cmds = c :: []) := by decide +kernel

theorem witness_channel_events :
    (let s := at0 slot0
     nbuChan s.z128 255 = 31 ∧ 255 < s.nnbu ∧ (s.nbu 255).revoke = none ∧ (s.nbu 255).grant &&& 8 ≠ 0) ∧
    (let s := { at0 slot0 with nbus := [(255, { grant := 7 })] }
     (s.nbu 255).grant ≠ 0xF ∧ (s.nbu 255).revoke = none) ∧
    (let s := { at0 slot0 with nbus := [(255, { revoke := some 8, nclk := 64 })] }
     (s.nbu 255).revoke = some 8 ∧ (s.nbu 255).since + 64 ≤ (s.nbu 255).nclk) ∧
    (let s := { at0 slot0 with nbus := [(255, { held := 0x8000, nclk := 8192, threads := [(15, { run := true })] })] }
     s.runsAt 255 (s.nbu 255).held ≠ [] ∧ (s.nbu 255).grant = 0xF ∧ (s.nbu 255).since + 8192 ≤ (s.nbu 255).nclk) ∧
    (let s := { at0 slot0 with mcs := [(31, { patrol := 9 })], flips := [(9 / 8 * 256 + 31 * 8 + 9 % 8, [265])],
                               priv := [((0x100018 + 0x100 * 31) / 8, 0x101)] }
     s.pkg.power < 2 ∧
     (s.reg (0x100018 + 0x100 * 31)).toNat / 256 % 256 ≠ 0 ∧ (s.reg (0x100018 + 0x100 * 31)).toNat % 2 = 1 ∧
       mget [] s.flips ((s.chan 31).patrol / 8 * 256 + 31 * 8 + (s.chan 31).patrol % 8) = [265]) := by decide +kernel

theorem witness_memory_side :
    (let o : EOp := { kind := .pimld, todo := [255], read := true, data := [1, 2, 3, 4], blk := leBytes (2 ^ (8 * 13 + 11)) 16 }
     let s := working o 31 { waiting := [4] }
     s.eop? 4 = some o ∧ s.onTheWay .pimld 31 = [] ∧ (s.chan 31).waiting = 4 :: [] ∧
       ∀ m ∈ o.todo, nbuChan s.z128 m = 31 → s.idleThreads 31 m 0xFFFF = true) ∧
    (let o : EOp := { kind := .pimrun, todo := [255], read := true, blk := leBytes (0x8000 * 2 ^ (8 * 38)) 64 }
     let s := working o 31 { waiting := [4] }
     s.onTheWay .pimrun 31 = [] ∧ (s.chan 31).waiting = 4 :: [] ∧ o.parked = false ∧ o.region = none ∧ nbuChan s.z128 255 = 31 ∧
       (s.reg (0x100000 + 0x100 * 31)).toNat.testBit (24 + nbuLocal s.z128 255) = true ∧
       s.idleThreads 31 255 (BitVec.ofNat 16 (o.f 38 2)) = true ∧ o.f 38 2 = 0x8000 ∧ o.f 8 8 = 0 ∧ s.walkStop = none) ∧
    (let o : EOp := { kind := .pimrun, read := true, dsts := [(0x1000, pmdBase, 16, false)],
                      blk := leBytes (0x1000 * 2 ^ (8 * 56) + 0x1008 * 2 ^ (8 * 16)) 64 }
     let s := working o
     o.parked = false ∧ s.retireWaits o = false ∧ o.stops = [] ∧ o.todo = [] ∧ s.runIdle 4 = true ∧ o.phase = 0 ∧ o.f 56 8 ≠ 0 ∧ o.f 16 8 ≠ 0 ∧
       (eWrite o (o.f 56 8) (leBytes (o.flags.toNat + min o.corr 65535 * 2 ^ 16) 8) s).1 = true ∧
       (eWrite o (o.f 16 8) (leBytes (o.f 24 8) 8) s).1 = true) ∧
    (let o : EOp := { kind := .pimrun, read := true, blk := leBytes 0 64 }
     o.f 56 8 = 0 ∧ o.f 16 8 = 0) := by decide +kernel

/-- A REDUCE of one element of type I32 of two buffers, and its SEQ. -/
def reducing (phase : Nat) : EOp :=
  { kind := .reduce, read := true, phase := phase, dsts := [(0x1000, pmdBase, 4096, false)],
    blk := leBytes (0x1000 + 2 ^ (8 * 24) + 2 * 2 ^ (8 * 28) + 3 * 2 ^ (8 * 29) + 3 * 2 ^ (8 * 30) + 0x1800 * 2 ^ (8 * 32)
      + 0x1100 * 2 ^ (8 * 48) + 0x1200 * 2 ^ (8 * 56)) 64 }

theorem witness_reductions :
    (let o := reducing 0
     let s := { working o with redQ := [(3, [4])] }
     let places := o.buffers.map fun b => (o.dst (b + o.phase * 4) 4).map fun pa => (pa, 1, 0)
     mget [] s.redQ 3 = 4 :: [] ∧ o.f 28 1 ≤ 16 ∧ o.f 29 1 = 3 ∧ o.f 30 1 = 3 ∧ o.phase < o.f 24 4 ∧
       s.canAccess 16 ((places.flatten.map fun r => lineOf r.1).eraseDups) = true ∧ ePoison places.flatten s = (none, s) ∧
       (eWrite o (o.f 0 8) (leBytes 0 4) s).1 = true) ∧
    (let o := reducing 1
     let s := { working o with redQ := [(3, [4])] }
     o.f 24 4 ≤ o.phase ∧ o.f 32 8 ≠ 0 ∧ s.retireWaits o = false ∧ (eWrite o (o.f 32 8) (leBytes (o.f 40 8) 8) s).1 = true) ∧
    (let o : EOp := { reducing 1 with blk := [] }
     o.f 24 4 ≤ o.phase ∧ o.f 32 8 = 0 ∧ o.f 28 1 ≤ 16) := by decide +kernel

/-! ### Witnesses: attention, sampling and winnow -/

/-- 8-byte words at PMD offsets. -/
def words (l : List (Nat × Nat)) : Memory := l.foldl (fun m p => writeLe m (pmdBase + p.1) 8 p.2) []
/-- Page tables that map virtual page 1 to the first PMD page, readable, writable and of kind UO, and leave page 2 absent. -/
def tables (l : List (Nat × Nat)) : Memory :=
  words ([(0x8000, pmdBase + 0x10001), (0x10000, pmdBase + 0x18001), (0x18000, pmdBase + 0x20001), (0x20008, pmdBase + 0xA1D)] ++ l)
/-- Operation 4 with these page tables and words behind it. -/
def attending (o : EOp) (l : List (Nat × Nat)) : State :=
  { working o with mem := tables l, priv := [(0x2000, BitVec.ofNat 64 (pmdBase + 0x8001)), (0x26006, 0x1000)], clk := 8192 }

/-- A read that answers, and where an absent block lies, with the fault queue behind the read. -/
def isVal {α : Type} : AR α → Bool
  | .val _ _ => true
  | _ => false
def absentAt {α : Type} (x : AR α) : Option (Nat × FaultQ) := match x with
  | .absent va s => some (va, s.fq)
  | _ => none
/-- An attention over positions 0 up to p of one node whose block is at va. -/
def attention (p : Nat) (absentAt : Option Nat := none) : EOp :=
  { kind := .attn, read := true, absentAt := absentAt, retries := 7,
    blk := leBytes (0x1100 + 0x1000 * 2 ^ 64 + 0x1010 * 2 ^ 128 + p * 2 ^ (8 * 28) + 32 * 2 ^ (8 * 36) + 0x1800 * 2 ^ (8 * 56)) 64 }
def blockAt (va : Nat) : List (Nat × Nat) := [(0, 1), (0x10, 64 * 2 ^ 32), (0x18, 0x1020), (0x20, va)]

theorem witness_attention :
    (let o := attention 1
     let s := attending o (blockAt 0x1400)
     s.eop? 4 = some o ∧ o.kind = .attn ∧ o.parked = false ∧ o.read = true ∧
       (match aResult o s with
         | .val x u =>
           let r := eSides o .write [(o.f 56 8, 8 + 4 * o.f 36 2, 8)] u
           r.1.isNone && !r.2.2.retireWaits o && decide (r.2.2.walkStop = none) &&
             (eWrite { o with dsts := r.2.1 } (o.f 56 8) (aBytes o x) r.2.2).1
         | _ => false) = true) ∧
    (attention 0).f 24 4 = (attention 0).f 28 4 ∧
    (let o := attention 1 (some 0)
     let s := attending o (blockAt 0x2000)
     (absentAt (aResult o s)).map (fun x => decide (x = (0x2000, s.fq))) = some true ∧ o.absentAt = some 0 ∧
       (match aResult o s with | .absent _ u => decide (u.walkStop = none) | _ => false) = true ∧
       (s.reg 0x130030).toNat / 2 ^ 12 % 16 = 1 ∧ 0 + 2 ^ (1 + 12) ≤ s.clk ∧ s.fq.full = false ∧
       isVal (aResult o (attending o (blockAt 0x1400))) = true) := by decide +kernel

/-- A SAMPLE over 3 tokens at temperature t with mask source m, and its draw counter; its states in the page. -/
def sampling (t m phase : Nat) : EOp :=
  { kind := .sample, read := true, phase := phase, org := { block := 0x1200 }, dsts := [(0x1200, pmdBase + 0x200, 64, false)],
    data := leBytes 7 8, blk := leBytes (0x1000 + 3 * 2 ^ (8 * 8) + m * 2 ^ (8 * 13) + t * 2 ^ (8 * 16) + 0x3F800000 * 2 ^ (8 * 20)
      + 5 * 2 ^ (8 * 40) + 0x1140 * 2 ^ (8 * 48) + 0x1238 * 2 ^ (8 * 56)) 64 }
/-- Its state, with the mask in memory. -/
def sampled (o : EOp) (mask : Nat) : State := { attending o [(0x140, mask)] with sampQ := [4] }
/-- What a chosen sample asks: its mask and logits read, the list of allowed tokens, and its destinations translated. -/
def samples (o : EOp) (s : State) (p : List (Nat × FV) → Bool) (more : List (Nat × Nat × Nat)) : Bool :=
  match sampleMask o s with
  | .val m a => match eRead o (o.f 0 8) (4 * o.f 8 4) 4 a with
    | .val bs b =>
      let l := ((List.range (o.f 8 4)).filter m.testBit).map fun t => (t, logit (o.f 12 1) 4 bs t)
      let r := eSides o .write ((o.f 56 8, 8, 8) :: more) b
      p l && r.1.isNone && (more = [] || (eWrite { o with dsts := r.2.1, data := leBytes 0 8, phase := 1 }
        (o.org.block.toNat + 40) (leBytes (o.f 40 8 + 1) 8) r.2.2).1)
    | _ => false
  | _ => false
/-- The choice that R303 makes. -/
def choice (o : EOp) (l : List (Nat × FV)) : Choice :=
  chooseToken (fp32.value false (o.f 16 4)) (fp32.value false (o.f 20 4)) (o.f 24 4) (BitVec.ofNat 64 (o.f 32 8))
    (BitVec.ofNat 64 (o.f 40 8)) l

theorem witness_sampling :
    (let o := sampling 0x3F800000 1 0
     let s := sampled o 6
     s.sampQ = 4 :: [] ∧ s.eop? 4 = some o ∧ o.read = true ∧ o.f 12 1 = 0 ∧
       samples o s (fun l => 2 ≤ l.length ∧ (choice o l).drawn = true) [(o.org.block.toNat + 40, 8, 8)] = true ∧
       samples o (sampled o 0) (fun l => l = []) [] = true ∧ samples o (sampled o 4) (fun l => l.map (·.1) = [2]) [] = true) ∧
    (let o := sampling 0 0 0
     samples o (sampled o 0) (fun l => 2 ≤ l.length ∧ (choice o l).drawn = false) [] = true) ∧
    (let o := sampling 0 0 1
     o.phase ≠ 0 ∧ (sampled o 0).retireWaits o = false ∧ (eWrite o (o.f 56 8) o.data (sampled o 0)).1 = true) := by decide +kernel

/-- A grammar of 3 tokens in 2 classes, 2 states, 2 symbols and depth 1: from state 0 class 0 pushes and class 1 keeps the
stack; from state 1 under symbol 1 class 0 pops. -/
def gram : Nat :=
  3 + 2 * 2 ^ 32 + 2 * 2 ^ 48 + 2 * 2 ^ 64 + 2 ^ 80 + 2 ^ 96 + 0x1100 * 2 ^ 128 + 0x1180 * 2 ^ 192 + 0x1000 * 2 ^ 256
/-- A WNSTEP with this operation code and token on context 5, its mask and status wanted. -/
def winnow (op t : Nat) : EOp :=
  { kind := .wnstep, read := true, blk := leBytes (op + 5 * 2 ^ 8 + 3 * 2 ^ 16 + 2 ^ 24 + t * 2 ^ 32 + 0x1200 * 2 ^ 64
    + 0x1300 * 2 ^ 128 + 0x1380 * 2 ^ 192) 32 }
/-- Its state: the grammar's tables, the descriptor or a sample's word at 0x1200, and the context. -/
def winnowing (o : EOp) (c : WCtx) (l : List (Nat × Nat) := []) : State :=
  { attending o ([(0, 6), (0xC0, 6), (0x100, 2 ^ 16), (0x180, 20481 + 2 ^ 32), (0x188, 8192)] ++ l) with
      winQ := [4], grams := [(3, BitVec.ofNat 512 gram)], wctx := [(5, c)] }
/-- The state behind a read that answers. -/
def stOf {α : Type} (x : AR α) : State := match x with
  | .wait s => s
  | .absent _ s => s
  | .bad _ s => s
  | .val _ s => s
/-- A way to decide what a read of an operation answers. -/
def eVal (x : ERead) : Option (List Byte × State) := match x with
  | .val bs s => some (bs, s)
  | _ => none
/-- A way to decide what a read answers. -/
theorem ar_of {α : Type} [DecidableEq α] {x : AR α} {a : α}
    (h : (match x with | .val b _ => decide (b = a) | _ => false) = true) : x = .val a (stOf x) := by
  cases x <;> simp_all [stOf]

theorem witness_winnow :
    (∀ op, op < 4 → let o := winnow op 1; WinnowHead (winnowing o {}) 4 o op) ∧
    (let o := winnow 0 0
     let s := winnowing o {} [(0x200, gram % 2 ^ 64), (0x208, gram / 2 ^ 64 % 2 ^ 64), (0x210, 0x1100), (0x218, 0x1180), (0x220, 0x1000)]
     (match eRead o (o.f 8 8) 64 64 s with
       | .val bs a => decide (leNat bs = gram ∧ a.retireWaits o = false ∧ a.walkStop = none)
       | _ => false) = true ∧ gramSound gram) ∧
    (let o := winnow 1 0
     (winnowing o {}).gram (o.f 2 1) = some gram) := by unfold WinnowHead gramSound; decide +kernel

theorem witness_winnow_steps :
    (let s := winnowing (winnow 2 1) { slot := some 3 }
     ∃ u, s.gram 3 = some gram ∧ StepsBy s (winnow 2 1) gram 1 (s.wctxOf 5) { slot := some 3, state := 1, stack := [1] } u) ∧
    (let s := winnowing (winnow 2 2) { slot := some 3 }
     ∃ u, StepsBy s (winnow 2 2) gram 2 (s.wctxOf 5) { slot := some 3, state := 1 } u) ∧
    (let s := winnowing (winnow 2 1) { slot := some 3, state := 1, stack := [1] }
     ∃ u, StepsBy s (winnow 2 1) gram 1 (s.wctxOf 5) { slot := some 3 } u) := by
  refine ⟨⟨_, by decide +kernel, 6, 0, 20481, _, _, ar_of (by decide +kernel), by decide +kernel, by decide +kernel,
      ar_of (by decide +kernel), by decide +kernel, ar_of (by decide +kernel), by decide +kernel, by decide +kernel,
      by decide +kernel, by show _ ∧ _ ∧ _ ∧ _; decide +kernel⟩,
    ⟨_, 6, 1, 1, _, _, ar_of (by decide +kernel), by decide +kernel, by decide +kernel, ar_of (by decide +kernel),
      by decide +kernel, ar_of (by decide +kernel), by decide +kernel, by decide +kernel, by decide +kernel, rfl⟩,
    ⟨_, 6, 0, 8192, _, _, ar_of (by decide +kernel), by decide +kernel, by decide +kernel, ar_of (by decide +kernel),
      by decide +kernel, ar_of (by decide +kernel), by decide +kernel, by decide +kernel, by decide +kernel, by show _ ∧ _; decide +kernel⟩⟩

theorem witness_winnow_sample :
    (let s := winnowing (winnow 3 0) { slot := some 3 } [(0x200, 1)]
     let x := pRead (winnow 3 0) 0x1200 8 8 s
     x = .val 1 (stOf x) ∧ (1 : Nat).testBit 34 = false ∧ (stOf x).wctx = s.wctx ∧ (stOf x).grams = s.grams ∧
       ∃ u, StepsBy (stOf x) (winnow 3 0) gram 1 (s.wctxOf 5) { slot := some 3, state := 1, stack := [1] } u) ∧
    (let s := winnowing (winnow 3 0) { slot := some 3 } [(0x200, 2 ^ 34)]
     let x := pRead (winnow 3 0) 0x1200 8 8 s
     x = .val (2 ^ 34) (stOf x) ∧ (2 ^ 34 : Nat).testBit 34 = true) := by
  refine ⟨⟨ar_of (by decide +kernel), by decide +kernel, by decide +kernel, by decide +kernel, _, 6, 0, 20481, _, _,
      ar_of (by decide +kernel), by decide +kernel, by decide +kernel, ar_of (by decide +kernel), by decide +kernel,
      ar_of (by decide +kernel), by decide +kernel, by decide +kernel, by decide +kernel, by show _ ∧ _ ∧ _ ∧ _; decide +kernel⟩,
    ar_of (by decide +kernel), by decide +kernel⟩

theorem witness_winnow_effects :
    (let o := winnow 2 1
     match maskOf o 3 gram 0 0 (winnowing o { slot := some 3 }) with
     | .val _ a =>
       let r := eSides o .write [(o.f 16 8, 64, 64), (o.f 24 8, 8, 8)] a
       r.1.isNone && (o.f 3 1).testBit 0 && o.f 24 8 != 0 && !r.2.2.retireWaits { o with dsts := r.2.1 } &&
         !r.2.2.putWaits o.org.task (r.2.1.flatMap fun d => linesOf d.2.1 d.2.2.1)
     | _ => false) = true := by decide +kernel

/-- A block of n 64-bit words at the start of the page. -/
def block (v n : Nat) : List (Nat × Nat) := (List.range n).map fun i => (8 * i, v / 2 ^ (64 * i) % 2 ^ 64)
/-- A PIMLD of one word for the one NBU of channel 31, a PIMRUN with activations, a status word and SEQ on it, and a REDUCE of one
element of two buffers with a flag. -/
def loadBlock : Nat := 0x1400 + 2 ^ 31 * 2 ^ 64 + 2 ^ 96 + (5 + 2 ^ 11) * 2 ^ 104
def runBlock (act : Nat) : Nat :=
  9 + act * 2 ^ 64 + 0x1500 * 2 ^ 128 + 2 ^ 31 * 2 ^ 256 + 2 ^ 288 + 0x8001 * 2 ^ 304 + 7 * 2 ^ 320 + 32 * 2 ^ 336 + 0x1600 * 2 ^ 448
def sumBlock : Nat :=
  0x1400 + 0x1500 * 2 ^ 64 + 0x100 * 2 ^ 128 + 2 ^ 192 + 2 * 2 ^ 224 + 3 * 2 ^ 232 + 3 * 2 ^ 240 + 0x1800 * 2 ^ 256 + 6 * 2 ^ 320
/-- An operation of kind k that has not read its block. -/
def unread (k : EKind) : EOp := { kind := k, org := { block := 0x1000 } }

theorem witness_memory_side_blocks :
    (let o := unread .pimld
     let s := attending o (block loadBlock 2)
     s.eop? 4 = some o ∧ s.onTheWay .pimld 31 = [4] ∧ (s.chan 31).waiting = [] ∧
       ((eVal (eRead o o.org.block.toNat 16 16 s)).any fun (bs, a) =>
         let r := { o with blk := bs }
         let n := r.f 13 3 / 2 ^ 11 % 2 ^ 12
         decide (r.f 13 3 % 2 ^ 11 + n ≤ 2048 ∧ n = 1) && (a.selected (r.f 8 4) (r.f 12 1)).length == 1 &&
           (eVal (eRead r (r.f 0 8) (4 * n) 4 a)).any fun x => decide (x.2.walkStop = none)) = true) ∧
    (let o := unread .pimrun
     let s := attending o (block (runBlock 0x1400) 8)
     s.eop? 4 = some o ∧ s.onTheWay .pimrun 31 = [4] ∧ (s.chan 31).waiting = [] ∧
       ((eVal (eRead o o.org.block.toNat 64 64 s)).any fun (bs, a) =>
         let r := { o with blk := bs }
         let x := eSides r .read ((a.selected (r.f 32 4) (r.f 36 1)).map fun n => (r.prAct a.z128 n, r.f 42 2, 1)) a
         let y := eSides r .write [(r.f 56 8, 8, 8), (r.f 16 8, 8, 8)] x.2.2
         r.f 44 1 % 2 == 0 && r.f 42 2 == 32 && r.f 38 2 == 0x8001 && r.f 8 8 == 0x1400 && x.1.isNone && x.2.1.length == 1 &&
           y.1.isNone && decide (y.2.2.walkStop = none)) = true) ∧
    (let o := unread .reduce
     let s := { attending o (block sumBlock 8) with redQ := [(3, [4])] }
     s.eop? 4 = some o ∧ (mget [] s.redQ 3).head? = some 4 ∧
       ((eVal (eRead o o.org.block.toNat 64 64 s)).any fun (bs, a) =>
         let r := { o with blk := bs }
         let x := eSides r .read (r.buffers.map fun b => (b, 4, 4)) a
         let y := eSides r .write [(r.f 0 8, 4, 4), (r.f 32 8, 8, 8)] x.2.2
         r.f 24 4 == 1 && r.f 28 1 == 2 && r.f 29 1 == 3 && r.f 30 1 == 3 && r.f 31 1 == 0 && x.1.isNone && y.1.isNone &&
           decide (y.2.2.walkStop = none)) = true) ∧
    (∀ k ∈ [EKind.pimld, .pimrun],
      let o : EOp := { unread k with read := true, chans := BitVec.twoPow 32 31 }
      let s := attending o []
      s.onTheWay k 31 = [4] ∧ (s.chan 31).waiting = [] ∧ s.eop? 4 = some o ∧ o.chans.getLsbD 31 = true ∧ s.walkStop = none) := by
  decide +kernel

/-! ### Witnesses: engine words from their issue to their end -/

/-- A T word at issue in slot 0 whose block lies at the start of the page. -/
def engineWord0 (l : List (Nat × Nat)) : State :=
  { transferring 2 [0x1000] with mem := tables l, priv := [(0x2000, BitVec.ofNat 64 (pmdBase + 0x8001))] }
/-- The state behind a step, and the operation 0 that a word has begun. -/
def afterNext (o : Host.Outcome State Fault Refusal) : Option State := match o with
  | .next s => some s
  | _ => none
def begun (o : Host.Outcome State Fault Refusal) : Option (State × EOp) := (afterNext o).bind fun u => (u.eop? 0).map fun o => (u, o)
/-- Nothing is asked of a write where there is none to do. -/
def writes (b : Bool) (o : EOp) (va : Nat) (d : List Byte) (s : State) : Option State :=
  if b then (let r := eWrite o va d s; if r.1 then some r.2 else none) else some s

/-- What a REDUCE alone at its engine asks for; what its turns come to beside the state that the statement names. -/
def reduceRun (s : State) : Option (State × State × State) :=
  (begun (execReduce 0 1 0 0 s)).bind fun (u, o) => (eVal (eRead o o.org.block.toNat 64 64 u)).bind fun (bs, b) =>
    let r := { o with blk := bs }
    let n := r.f 24 4
    let x := eSides r .read (r.buffers.map fun b => (b, n * 4, 4)) b
    let y := eSides r .write ([(r.f 0 8, n * 4, 4)] ++ if r.f 32 8 = 0 then [] else [(r.f 32 8, 8, 8)]) x.2.2
    let p := { r with read := true, dsts := x.2.1 ++ y.2.1 }
    let places := p.buffers.map fun b => (p.dst b 4).map fun pa => (pa, 1, 0)
    let st := setEop 0 p y.2.2
    if n = 1 ∧ r.f 28 1 = 2 ∧ r.f 29 1 = 3 ∧ r.f 30 1 = 3 ∧ r.f 31 1 = 0 ∧ x.1.isNone ∧ y.1.isNone ∧
        st.canAccess 16 ((places.flatten.map fun r => lineOf r.1).eraseDups) = true ∧ (ePoison places.flatten st).1.isNone ∧
        (ePoison places.flatten st).2 = st then
      (writes true { p with phase := 0 } (p.f 0 8) (leBytes (reduced 3 3 (places.map fun r => leNat (st.eBytes p r))) 4) st).bind fun v =>
        let q := { p with phase := 1 }
        let s1 := setEop 0 q v
        if st.walkStop = none ∧ s1.walkStop = none ∧ s1.retireWaits q = false then
          (writes (p.f 32 8 != 0) q (p.f 32 8) (leBytes (p.f 40 8) 8) s1).map fun w => (u, st, eRetire 0 q w)
        else none
    else none

theorem witness_reduce_runs :
    let s := engineWord0 (block sumBlock 8 ++ [(0x500, 7), (0x600, 9)])
    s.eop? s.nextEop = none ∧ mget [] s.redQ 0 = [] ∧ s.nextEop = 0 ∧
      (reduceRun s).map (fun r => decide (r.2.2.walkStop = none)) = some true := by decide +kernel

/-- What a PIMLD for one NBU asks for, up to the words it reads, and a PIMRUN without activations, up to its translations. -/
def loadRun (s : State) : Option (State × List Byte × State) :=
  (begun (execPimld 0 1 0 0 s)).bind fun (u, o) => (eVal (eRead o o.org.block.toNat 16 16 u)).bind fun (bs, b) =>
    let r := { o with blk := bs }
    let n := r.f 13 3 / 2 ^ 11 % 2 ^ 12
    if b.walkStop = none ∧ n ≠ 0 ∧ r.f 13 3 % 2 ^ 11 + n ≤ 2048 ∧ b.selected (r.f 8 4) (r.f 12 1) = [236] then
      (eVal (eRead r (r.f 0 8) (4 * n) 4 b)).bind fun (ws, d) => if d.walkStop = none then some (u, ws, d) else none
    else none
def startRuns (s : State) : Option (State × State) :=
  (begun (execPimrun 0 1 0 0 s)).bind fun (u, o) => (eVal (eRead o o.org.block.toNat 64 64 u)).bind fun (bs, b) =>
    let r := { o with blk := bs }
    let x := eSides r .write [(r.f 56 8, 8, 8), (r.f 16 8, 8, 8)] b
    if b.walkStop = none ∧ x.2.2.walkStop = none ∧ r.f 44 1 % 2 = 0 ∧ r.f 8 8 = 0 ∧ r.f 42 2 = 32 ∧ r.f 38 2 ≠ 0 ∧
        b.selected (r.f 32 4) (r.f 36 1) = [236] ∧ x.1.isNone then some (u, x.2.2) else none

theorem witness_unit_runs :
    let s := { engineWord0 (block loadBlock 2 ++ [(0x400, 0x87654321)]) with priv := [(0x2000, BitVec.ofNat 64 (pmdBase + 0x8001)),
                                                                                     ((0x100000 + 0x100 * 31) / 8, 0xFF000000)] }
    s.eop? s.nextEop = none ∧ (s.chan 31).waiting = [] ∧ (s.chan 31).cmds = [] ∧ nbuChan s.z128 236 = 31 ∧ s.walkStop = none ∧
      s.nbus = [] ∧ s.onTheWay .pimld 31 = [] ∧ s.onTheWay .pimrun 31 = [] ∧ s.slotOf (origin s { id := 4, regs := [0x1000] } 0 0 0) = some 0 ∧
      (s.reg (0x100000 + 0x100 * 31)).toNat.testBit (24 + nbuLocal s.z128 236) = true ∧ (loadRun s).isSome = true ∧
      (startRuns { s with mem := tables (block (runBlock 0) 8) }).isSome = true := by decide +kernel

/-- The block of an operation of the tests, laid at the start of the page. -/
def blockOf (o : EOp) (n : Nat) : List (Nat × Nat) := block (leNat o.blk) n
/-- What a read answers. -/
def arVal {α : Type} (x : AR α) : Option (α × State) := match x with
  | .val a s => some (a, s)
  | _ => none
/-- The state, if no walk of an engine is left waiting in it. -/
def still (s : State) : Option State := if s.walkStop = none then some s else none

/-- What an ATTN asks for from its issue to its end, and the states that the statement names. -/
def attnRun (s : State) : Option (List State) :=
  (begun (execAttn 0 1 0 0 s)).bind fun (u, o) => (eVal (eRead o o.org.block.toNat 64 64 u)).bind fun (bs, b) =>
    let r := { o with blk := bs }
    let p := { r with read := true }
    (arVal (aPathBad r b)).bind fun (bad, d) => (arVal (aResult p (setEop 0 p d))).bind fun (x, f) =>
      let y := eSides p .write [(p.f 56 8, 8 + 4 * p.f 36 2, 8)] f
      let q := { p with dsts := y.2.1 }
      if !bad && r.f 24 4 == 0 && r.f 28 4 == 1 && r.f 36 2 == 32 && r.f 38 1 == 0 && y.1.isNone && !y.2.2.retireWaits q then
        (writes true q (p.f 56 8) (aBytes q x) y.2.2).bind fun w =>
          (still (setEop 0 p d)).bind fun v => (still (eRetire 0 q w)).map fun w => [u, v, w]
      else none
/-- The same of a SAMPLE of 3 tokens. -/
def sampleRun (s : State) : Option (List State) :=
  (begun (execSample 0 1 0 0 s)).bind fun (u, o) => (eVal (eRead o o.org.block.toNat 64 64 u)).bind fun (bs, b) =>
    let r := { o with blk := bs }
    let p := { r with read := true }
    (arVal (sampleMask p (setEop 0 p b))).bind fun (m, d) => (eVal (eRead p (p.f 0 8) 12 4 d)).bind fun (ls, f) =>
      let l := ((List.range 3).filter m.testBit).map fun t => (t, logit (r.f 12 1) 4 ls t)
      let x := choice r l
      let ctr := o.org.block.toNat + 40
      let y := eSides p .write ((p.f 56 8, 8, 8) :: if x.drawn then [(ctr, 8, 8)] else []) f
      let q := { p with dsts := y.2.1, data := leBytes x.word 8, phase := 1 }
      if r.f 8 4 = 3 ∧ r.f 12 1 = 0 ∧ r.f 13 1 = 1 ∧ r.f 14 1 = 0 ∧ r.f 24 4 = 0 ∧ y.1.isNone = true ∧ x.drawn = true then
        (writes x.drawn q ctr (leBytes (p.f 40 8 + 1) 8) y.2.2).bind fun i =>
          if (setEop 0 q i).retireWaits q then none
          else (writes true q (q.f 56 8) q.data (setEop 0 q i)).bind fun w =>
            (still (setEop 0 p b)).bind fun v => (still (setEop 0 q i)).bind fun x => (still (eRetire 0 q w)).map fun w => [u, v, x, w]
      else none
/-- A WNSTEP and the state in which its block is read. -/
def winnowRun (s : State) : Option (State × EOp × State) :=
  (begun (execWnstep 0 1 0 0 s)).bind fun (u, o) => (eVal (eRead o o.org.block.toNat 32 32 u)).bind fun (bs, b) =>
    let p := { o with blk := bs, read := true }
    (still (setEop 0 p b)).map fun z => (u, p, z)
/-- A WNSTEP of the tests at issue. -/
def winnowAt (op t : Nat) (c : WCtx := {}) (l : List (Nat × Nat) := []) : State :=
  { engineWord0 (blockOf (winnow op t) 4 ++ l) with grams := [(3, BitVec.ofNat 512 gram)], wctx := [(5, c)] }

/-- An ATTN over one position whose path, node and block lie behind its own block. -/
def attnWord : State :=
  engineWord0 (block (0x1200 + 0x1100 * 2 ^ 64 + 0x1110 * 2 ^ 128 + 2 ^ (8 * 28) + 32 * 2 ^ (8 * 36) + 0x1800 * 2 ^ (8 * 56)) 8
    ++ [(0x100, 1), (0x110, 64 * 2 ^ 32), (0x118, 0x1120), (0x120, 0x1400)])
/-- A SAMPLE of three tokens by its mask, which allows tokens 1 and 2. -/
def sampleWordAt : State :=
  engineWord0 (block (0x1400 + 3 * 2 ^ (8 * 8) + 2 ^ (8 * 13) + 0x3F800000 * 2 ^ (8 * 16) + 0x3F800000 * 2 ^ (8 * 20)
    + 5 * 2 ^ (8 * 40) + 0x1140 * 2 ^ (8 * 48) + 0x1238 * 2 ^ (8 * 56)) 8 ++ [(0x140, 6)])
/-- The tables of the grammar of the tests. -/
def gramTables : List (Nat × Nat) := [(0xC0, 6), (0x100, 2 ^ 16), (0x180, 20481 + 2 ^ 32), (0x188, 8192)]

theorem witness_engine_words :
    attnWord.nextEop = 0 ∧ attnWord.eops = [] ∧ (attnRun attnWord).isSome = true ∧
    sampleWordAt.sampQ = [] ∧ sampleWordAt.nextEop = 0 ∧ sampleWordAt.eops = [] ∧ (sampleRun sampleWordAt).isSome = true ∧
    (let s := winnowAt 0 0 {} [(0x200, gram % 2 ^ 64), (0x208, gram / 2 ^ 64 % 2 ^ 64), (0x210, 0x1100), (0x218, 0x1180), (0x220, 0x1000)]
     s.winQ = [] ∧ ((winnowRun s).any fun (_, p, z) => p.f 0 1 == 0 && p.f 1 1 == 5 && p.f 2 1 == 3 &&
       (eVal (eRead p (p.f 8 8) 64 64 z)).any fun (ls, d) => leNat ls == gram && !d.retireWaits p && decide (d.walkStop = none)) = true) ∧
    ((winnowRun (winnowAt 1 0)).any fun (_, p, z) => p.f 0 1 == 1 && p.f 2 1 == 3 && z.gram (p.f 2 1) == some gram) = true ∧
    ((winnowRun (winnowAt 2 1 { slot := some 3 })).any fun (_, p, z) => p.f 0 1 == 2 && (z.wctxOf (p.f 1 1)).slot == some 3 &&
      z.gram 3 == some gram) = true := by decide +kernel

/-- The operation of a WNSTEP with its block read, and the state it is read in. -/
def winnowRead (s : State) : EOp × State := ((winnowRun s).map (·.2)).getD ({}, {})

theorem witness_winnow_word :
    let r := winnowRead (winnowAt 2 1 { slot := some 3 } gramTables)
    ∃ u, (r.2.gram 3 = some gram ∧ r.1.f 4 4 = 1) ∧
      StepsBy r.2 r.1 gram 1 (r.2.wctxOf 5) { slot := some 3, state := 1, stack := [1] } u := by
  exact ⟨_, by decide +kernel, 31335291863050310374723394233356115435553815066004238794687746, 0, 20481, _, _, ar_of (by decide +kernel), by decide +kernel, by decide +kernel,
    ar_of (by decide +kernel), by decide +kernel, ar_of (by decide +kernel), by decide +kernel, by decide +kernel,
    by decide +kernel, by show _ ∧ _ ∧ _ ∧ _; decide +kernel⟩

/-! ### Witnesses: the task graph unit -/

/-- A graph descriptor of n nodes and c counters, with its first pending bits. -/
def desc (n c : Nat) : BitVec 512 := BitVec.ofNat 512 (n * 2 ^ 144 + c * 2 ^ 208)
/-- A ready package whose graph 0 has one node of one task of type 0, a task of one member at code address 0x1000. -/
def graphed (t : Tgu) (l : Map Word := []) : State :=
  { at0 slot0 with
      pkg := { stopped := false, gated := 0, linkUp := true, boot := 3 },
      tgu := { t with graphs := [(0, { desc := desc 1 8 })] },
      priv := [(0x2000, 1), (0x8000, 0x1000), (0x8001, 0x0001000000000000), (0xA000, 0x0001000100010000)] ++ l }

theorem witness_launches :
    (let s := graphed {}
     s.graph? 0 = some { desc := desc 1 8 } ∧ HostReaches s ∧ s.tgu.launches.length < 64 ∧ s.tgu.port = [] ∧
       (0 : BitVec 512).toNat / 256 ^ 0 % 256 ^ 1 % 64 = 0) ∧
    (let s := graphed { launches := [{}] }
     s.tguMay 4 = true ∧ s.activeLaunch 0 = none ∧ s.tgu.launches.find? (·.graph == 0) = some {} ∧ s.replay? 0 0 = none) ∧
    (let l : Launch := { active := true, nrep := 2, started := 1 }
     let s := graphed { launches := [l] }
     s.tguMay 4 = true ∧ s.walkStop = none ∧ s.activeLaunch 0 = some l ∧ l.closed = false ∧ l.started < l.nrep ∧
       s.lowestStarted { desc := desc 1 8 } 0 (({ desc := desc 1 8 } : Graph).count - 1) = true ∧ l.stop = 0 ∧ s.replay? 0 0 = none) ∧
    (let l : Launch := { active := true, stop := 0x1000 }
     let s := { graphed { launches := [l] } with tlbs := [(tierEngine 12, [page 0xA1D])], mem := writeLe [] pmdBase 8 1 }
     s.tguMay 4 = true ∧ s.walkStop = none ∧ s.activeLaunch 0 = some l ∧ s.replay? 0 0 = none ∧ l.nrep = 0 ∧
       s.lowestStarted { desc := desc 1 8 } 0 (({ desc := desc 1 8 } : Graph).count - 1) = true ∧
       (match readStop { desc := desc 1 8 } l.stop s with
         | .val b u => b && decide ((endLaunch 0 (setLaunch 0 { l with closed := true } u)).walkStop = none)
         | _ => false) = true) ∧
    (let l : Launch := { active := true, started := 1 }
     let s := graphed { launches := [l], replays := [{}], insts := [(0, { st := .retired, node := some 0 })] }
     s.activeLaunch 0 = some l ∧ s.replay? 0 0 = some {} ∧ s.replayDone { desc := desc 1 8 } 0 0 = true ∧ l.done = 0 ∧
       s.walkStop = none ∧ l.closed = false ∧ l.nrep = 0) := by
  unfold HostReaches; decide +kernel

theorem witness_counter_signals :
    (∀ w ∈ [2, 1 + 2 ^ 32, 7 * 2 ^ 32],
      let s := graphed { sigs := [({}, 0, 0, 7)], replays := [{}] } [((0x200000 + 16 * 7) / 8, BitVec.ofNat 64 w)]
      s.tgu.sigs = ({}, 0, 0, 7) :: [] ∧ s.replay? 0 0 = some {} ∧ s.fq.full = false ∧
        (s.reg (0x200000 + 16 * (({ desc := desc 1 8 } : Graph).ctr0 + 7))).toNat = w) := by decide +kernel

theorem witness_dispatch :
    (let s := { graphed { insts := [(0, {})] } with slots := [] }
     s.pkg.stopped = false ∧ aftermath s = s ∧ s.poolOrder = [0] ∧ s.dispatched < 4 ∧ (s.inst 0).st = .pooled ∧ s.outFree (s.inst 0) = true ∧
       tClass (s.typeEnt 0) = 0 ∧ (s.inst 0).images = [] ∧
       (s.place (s.typeEnt 0) 63).map (fun ps => decide ((ps.map (·.slot)).Nodup)) = some true) ∧
    (let s := { graphed { insts := [(0, {})] } with priv := [(0x8001, 0x0001000300000000)] }
     aftermath s = s ∧ s.poolOrder = [0] ∧ tClass (s.typeEnt 0) = 3) := by decide +kernel

theorem witness_engine_accepts : (graphed { insts := [(0, {})] }).engineAccepts 3 = true := by
  simp [State.engineAccepts, graphed, at0]

/-- Task 0 of one member in slot 0, which is at its end or halted, and a save pool of 16 chunks. -/
def saving (st : BitVec 3) (i : Inst) : State :=
  { at0 { task := some 0, st := st, x := [(5, 7)] } with
      pkg := { stopped := false, gated := 0, linkUp := true, boot := 3 },
      tgu := { insts := [(0, i)], savepool := BitVec.ofNat 64 (pmdBase + 15) },
      priv := [(0x8001, 0x0001000000000000)] }
/-- Task 0 on its way back to slot 0 from an image whose sections are one run of zeros. -/
def restoring : State :=
  let i : Inst := { st := .restoring, slots := [0], images := [pmdBase + 0x10000] }
  { saving 1 i with mem := words [(0x10000, 1), (0x10010, 68320), (0x10018, 16), (0x10200, 2 ^ 62 + 8540), (0x10208, 3 * 2 ^ 62)] }

theorem no_host_holds (s : State) (h : s.lines = []) (l : s.pkg.linkUp = true) (o : s.pkg.cxlOld = false) (e : s.eops = [])
    (ls : List Nat) : s.hostHolds ls = false := by
  simp [State.hostHolds, State.lineCo, State.linkWaits, State.runHolds, State.canOwn, h, l, o, e, mget]

theorem touch_clean (pa n : Nat) (s : State) (f : s.flips = []) (p : s.poison = []) : touchRead pa n s = (none, s) := by
  simp [touchRead, f, p, mget]

theorem read_clean (pa n : Nat) (s : State) (h : n ≤ 65528) (f : s.flips = []) (p : s.poison = []) :
    readChunks 1 pa n s = (.inr (s.physRead pa n), s) := by
  have t : touchChunk pa s = (none, s) := by
    unfold touchChunk
    exact touch_clean _ _ s f p
  simp only [readChunks, t, Nat.min_eq_left h, Nat.le_refl, if_true]

theorem zero_body (a b n : Nat) (h : n ≠ 0) (a0 : a % 2 ^ 40 = n) (a1 : a / 2 ^ 40 % 2 ^ 22 = 0) (a2 : a / 2 ^ 62 = 1)
    (b0 : b % 2 ^ 40 = 0) (b1 : b / 2 ^ 40 % 2 ^ 22 = 0) (b2 : b / 2 ^ 62 = 3) :
    decodeBody 3 [a, b] = some (List.replicate n 0) := by
  simp only [decodeBody, a0, a1, a2, b0, b1, b2]
  simp [h]

theorem image_of (pa coded : Nat) (s : State) (h bs : List Byte) (g body : List Nat) (r : readChunks 1 pa 512 s = (.inr h, s))
    (c : fieldOf (leNat h) 24 8 = coded) (q : readChunks ((512 + coded) / 65528 + 1) pa (512 + coded) s = (.inr bs, s))
    (d : granules (bs.drop 512) = g) (b : decodeBody (g.length + 1) g = some body)
    (e : fieldOf (leNat h) 0 1 = 1 ∧ coded % 8 = 0 ∧ 8 * body.length = fieldOf (leNat h) 16 8 ∧
      fieldOf (leNat h) 16 8 = 67680 + 448 * fieldOf (leNat h) 4 4 + 384 + 4096 * fieldOf (leNat h) 8 2 + 256 + 256 * fieldOf (leNat h) 10 2) :
    readImage pa s = (.inr (some (h, body)), s) := by
  simp only [readImage, r, c, q, d, b]
  rw [if_pos e]

theorem body_zero : decodeBody 3 [4611686018427396444, 13835058055282163712] = some (List.replicate 8540 0) :=
  zero_body 4611686018427396444 13835058055282163712 8540 (by decide) (by decide) (by decide) (by decide) (by decide) (by decide) (by decide)
theorem head_sound (l : Nat) (hl : l = 8540) :
    let h := restoring.physRead (pmdBase + 0x10000) 512
    fieldOf (leNat h) 0 1 = 1 ∧ 16 % 8 = 0 ∧ 8 * l = fieldOf (leNat h) 16 8 ∧
      fieldOf (leNat h) 16 8 = 67680 + 448 * fieldOf (leNat h) 4 4 + 384 + 4096 * fieldOf (leNat h) 8 2 + 256 + 256 * fieldOf (leNat h) 10 2 := by
  subst hl; decide +kernel

theorem image_read : readImage (pmdBase + 0x10000) restoring
    = (.inr (some (restoring.physRead (pmdBase + 0x10000) 512, List.replicate 8540 0)), restoring) :=
  image_of (pmdBase + 0x10000) 16 restoring _ (restoring.physRead (pmdBase + 0x10000) 528)
    [4611686018427396444, 13835058055282163712] _ (read_clean _ 512 _ (by decide) rfl rfl)
    (by decide +kernel) (read_clean _ 528 _ (by decide) rfl rfl) (by decide +kernel) body_zero (head_sound _ List.length_replicate)

theorem witness_image_reads : (restoring.inst 0).images = [pmdBase + 0x10000] ∧ readAll [pmdBase + 0x10000] restoring
    = (.inr [(restoring.physRead (pmdBase + 0x10000) 512, List.replicate 8540 0)], restoring) := by
  refine ⟨by decide +kernel, ?_⟩
  rw [readAll, image_read]
  dsimp only
  rw [readAll]

theorem witness_retirement :
    (let i : Inst := { st := .running, slots := [0] }
     let s := saving 1 i
     s.pkg.stopped = false ∧ s.inst 0 = i ∧ (s.slot 0).task = some 0 ∧ s.memberDone 0 0 = true ∧ s.tguMay 0 = true ∧ i.guarded = false ∧ i.held = [] ∧
       i.nextCut = none ∧ tTlen (s.typeEnt i.type) = 0 ∧ (s.slot 0).drainFor = none ∧ s.tgu.replays = [] ∧
       (∀ p ∈ s.tgu.insts, p.2.st ≠ .parked)) ∧
    (∀ f, let i : Inst := { st := .running, slots := [0], faulted := f }
     let s := saving 5 i
     s.inst 0 = i ∧ (s.slot 0).task = some 0 ∧ (s.slot 0).st = 5 ∧ i.st ≠ .restoring ∧ (s.slot 0).member = 0 ∧ i.images = [] ∧
       s.saveReady 0 = true ∧ chunksFor (s.rawLen 0 (s.cuts 0).length) ≤ s.freeChunks.length ∧ 0 < s.freeChunks.length) ∧
    (let s := restoring
     (s.inst 0).st = .restoring ∧ (∀ j ∈ (s.inst 0).slots, s.coreRuns (coreOf j) = true) ∧
       s.canAccess 16 (s.imageLines 0) = true) := by decide +kernel
theorem witness_no_host (i : Inst) (f : BitVec 3) (ls : List Nat) : (saving f i).hostHolds ls = false :=
  no_host_holds _ rfl rfl rfl rfl ls

theorem witness_coding : ([0, 0, 0, 7, 7, 7, 5] : List Nat).length < 2 ^ 40 := by decide

/-- Graph 0's descriptor staged for LOAD, sound for an enabled space. -/
def loading (w : Word) (space : Word) (t : Tgu := {}) : State :=
  { at0 slot0 with tgu := { t with gcmd := some w },
                   priv := [(0x2000, space), (0x400A, 0x10000), (0x8001, 0x0001000000000000), (0xA000, 0x0001000100010000)] }

theorem witness_graph_commands :
    (let s := { at0 slot0 with cores := [(15, { waking := true })] }
     s.pkg.stopped = false ∧ (s.core 15).waking = true) ∧
    (let s := { at0 slot0 with priv := [(0x26000, 0x100000)], clk := 8192 }
     (s.reg 0x130000).toNat / 2 ^ 20 % 16 = 1 ∧ (s.slot 0).task.isSome = true ∧ (s.slot 0).st ≠ 5 ∧
       (s.slot 0).reported = false ∧ (s.slot 0).lastAct + 2 ^ (1 + 12) ≤ s.clk ∧ s.fq.full = false) ∧
    (let s := loading 0x0100000000000000 1
     s.tgu.gcmd = some 0x0100000000000000 ∧ (0x0100000000000000 : Word).toNat / 2 ^ 56 = 1 ∧ s.graph? 0 = none ∧ s.staged.nnode = 1 ∧
       s.loadFaults s.staged = []) ∧
    (let s := loading 0x0100000000000000 0 { graphs := [(0, { aborted := true })] }
     (∃ q ∈ s.graph? 0, q.aborted = true) ∧ s.loadFaults s.staged ≠ [] ∧ s.fq.full = false) ∧
    (let s := loading 0x0200000000000000 1 { graphs := [(0, {})] }
     s.tguMay 3 = true ∧ (0x0200000000000000 : Word).toNat / 2 ^ 56 = 2 ∧ s.graph? 0 = some {} ∧ ∀ l ∈ s.tgu.launches, l.graph ≠ 0) ∧
    (loading 0x0200000000000000 1).graph? 0 = none ∧ (0x0300000000000000 : Word).toNat / 2 ^ 56 = 3 := by decide +kernel

/-! ### Witnesses: translation, the host, sharers -/

/-- A package that the host can reach. -/
def ready : State := { at0 slot0 with pkg := { gated := 0, linkUp := true, boot := 3 } }

theorem witness_translation :
    (at0 slot0).pkg.stopped = false ∧ bit ((at0 slot0).reg (0x010000 + 8 * 4095)).toNat 0 = false ∧
    (let o := attention 0
     let s := { attending o [] with slots := [(63, { slot0 with misses := [{ page := 1 }, { page := 2 }, { page := 1, failed := some (1, 2) }] })] }
     ((s.slot 63).waits 0 (0x1FFF / 4096) = true ∧ s.canAccess 16 (s.walkLines 0 0x1FFF) = true ∧
       (match s.walk 0 0x1FFF with
         | .leaf l => l.base == 0x1000
         | _ => false) = true) ∧
     ((s.slot 63).waits 0 (0x2000 / 4096) = true ∧ s.canAccess 16 (s.walkLines 0 0x2000) = true ∧
       (match s.walk 0 0x2000 with
         | .bad c q => c == 0x20 && q == 0x50
         | _ => false) = true)) ∧
    (HostReaches ready ∧ ready.tinvCmd = none ∧ ∀ m, m < 3 → (BitVec.ofNat 64 (m * 2 ^ 16 + 4095)).toNat / 2 ^ 16 % 4 ≠ 3) ∧
    (let s := { ready with tinvCmd := some (2, 0, 0), tinv := some (1, 0, 4095) }
     HostReaches s ∧ s.tinvCmd.isSome ∧ s.tinvDone (2, 0, 0) = true ∧ s.tinvDone (1, 0, 4095) = true) := by
  unfold HostReaches; decide +kernel

theorem witness_host_memory :
    HostReaches ready ∧ ready.pkg.fenced = false ∧ ready.pkg.cxlOld = false ∧ ready.runHolds (linesOf (pmdBase + 2 ^ 38 - 1) 1) = false ∧
    ready.flips = [] ∧ ready.poison = [] ∧
    (2 ^ 38 - 1) % 64 + 1 ≤ 64 ∧ 2 ^ 38 - 1 + 1 ≤ ready.cap ∧ ready.pkg.hostFilter.length < 131072 ∧
    ready.cap ≤ 2 ^ 38 ∧ (2 ^ 38 : Nat) < 2 ^ 56 ∧ ready.fq.full = false ∧
    ready.lostReg.contains (regionOf ((pmdBase + 2 ^ 38 - 1) / 64)) = false ∧ ready.pclass (64 * 0) = .host ∧
    (let line := (pmdBase + 2 ^ 38 - 64) / 64
     let s := { ready with lines := [(line, { host := true, bisnp := true, hostMod := true })] }
     let t := { ready with lines := [(line, { host := true, bisnpD := true, hostMod := true })] }
     (t.lineCo line).bisnp = false ∧ (t.lineCo line).bisnpD = true ∧ (t.lineCo line).hostMod = true ∧
     (s.lineCo line).hostMod = true ∧ (s.lineCo line).bisnp = true ∧ pmdBase ≤ 64 * line ∧ 64 * line + 64 ≤ pmdBase + s.cap) := by
  unfold HostReaches; decide +kernel

theorem witness_sharers :
    (let p : Acc := { id := 4, kind := .load, len := 8, parts := part 8 }
     let s := { at0 slot0 with slots := [(61, { slot0 with pend := [p] })], clk := 512 }
     s.missLong 15 (pmdBase / 64) = true ∧
     s.pkg.stopped = false ∧ s.missing 15 (pmdBase / 64) = true ∧ s.pkg.deadCores.getLsbD 15 = false ∧
       ∀ r ∈ (s.lineCo (pmdBase / 64)).preq, r.1 ≠ 15) ∧
    (let o : Offer := { core := 15, line := pmdBase / 64 }
     let s := { at0 slot0 with offers := [o], cores := [(15, { dlvAccepted := 63 })], clk := 255 }
     let t := { s with cores := [(15, { dlvAccepted := 64 })] }
     let d := (s.reg (0x080000 + 0x1000 * 15)).toNat
     s.offers[0]? = some o ∧ (s.core 15).dlvWin = s.clk / (d / 2 ^ 12 % 4096) ∧ 63 < d % 256 ∧
       s.pkg.gated.getLsbD 15 = false ∧ s.pkg.deadCores.getLsbD 15 = false ∧ s.lostReg.contains (regionOf o.line) = false ∧
       (∀ p ∈ s.offers, p.core = o.core → p.clk = o.clk → o.issuer ≤ p.issuer ∧ (p.issuer = o.issuer → o.line ≤ p.line)) ∧
       s.transientWays 15 o.line < 8 ∧ s.dir = [] ∧ s.filt = [] ∧ (s.lineCo o.line).away ≤ 16 ∧ ¬ (t.core 15).dlvAccepted < d % 256 ∧
       (s.core 15).dlvWin ≠ 256 / (d / 2 ^ 12 % 4096)) ∧
    (let s := { at0 slot0 with dir := [(7, 8)], filt := [(31, 8)] }
     s.pkg.stormAt = none ∧ mget (0 : BitVec 4) s.dir (regionOf 56) = 1#4 <<< 3 ∧ s.lostReg.contains (regionOf 56) = false ∧
       mget (0 : BitVec 4) s.filt (filtKey 7 3) = 1#4 <<< 3) ∧
    (∀ c ∈ [149999, 150000], ({ at0 slot0 with pkg := { stormAt := some 0 }, clk := c } : State).pkg.stormAt = some 0) := by decide +kernel

/-! ### Witnesses: power, boot, firmware, agents and link -/

theorem witness_power :
    (let s := { ready with tgu := {} }
     s.idle = true ∧ s.pkg.exiting = false ∧ s.pkg.boot = 3 ∧ s.pkg.power = 0 ∧ s.pkg.stopped = false) ∧
    (let s := { ready with pkg := { linkUp := true, boot := 3, power := 3, exiting := true } }
     s.pkg.power ≠ 0 ∧ s.pkg.linkUp = true ∧ s.pkg.boot = 3 ∧ s.pkg.exiting = true) ∧
    (let s := { at0 slot0 with clk := 15000 }
     s.pkg.gated.getLsbD 15 = false ∧ (s.core 15).waking = false ∧ (∀ i, i < 4 → (s.slot (4 * 15 + i)).task = none) ∧
       (s.core 15).l1 = [] ∧ (s.core 15).xops = [] ∧ (s.core 15).idleSince + (s.reg 0x120000).toNat / 2 ^ 16 % 256 * 1500 ≤ s.clk) ∧
    ready.pkg.sag = false ∧ ready.fq.full = false := by decide +kernel

theorem witness_boot :
    (State.reset.pkg.boot = 0 ∧ State.reset.pkg.stopped = false) ∧
    (let s := { ready with pkg := { boot := 2 } }
     s.pkg.boot = 2 ∧ s.pkg.stopped = false ∧ s.pkg.bootst.toNat % 256 = 0) ∧ ready.pkg.boot ≠ 0 ∧
    (∀ p ∈ ready.lines, p.2.home = none) ∧
    (let h : List Byte := List.replicate 64 7
     let s := { ready with mem := [(pmdBase + 2 ^ 38 - 1, 9)], lines := [((pmdBase + 2 ^ 38) / 64 - 1, { owner := some 2, tok := [(2, 32)], home := some h })] }
     h.length = 64 ∧ 64 * ((pmdBase + 2 ^ 38) / 64 - 1) + 64 ≤ pmdBase + s.cap ∧
       byteAt (logicReset 2 true s).mem (pmdBase + 2 ^ 38 - 1) = 7) := by decide +kernel

theorem witness_mailbox :
    (∀ op ∈ [0, 1, 2, 3, 4],
      let s := { ready with pkg := { boot := 3, mbBusy := true, mbCmd := BitVec.ofNat 64 (op * 2 ^ 56) }, tgu := {} }
      MailRuns s op ∧ s.tasksAbout = false ∧ (s.reg 8).toNat % 2 ^ 57 + (s.reg 0x18).toNat % 2 ^ 32 ≤ 2 ^ 52) ∧
    (let s := { ready with pkg := { boot := 3, mbBusy := true, mbCmd := 0x0100000000000000 } }
     s.pkg.boot ≠ 1 ∧ s.tasksAbout = true) ∧
    (let s := { ready with priv := [(1, 0x000FFFFFFFFFFFFF), (3, 2)] }
     2 ^ 52 < (s.reg 8).toNat % 2 ^ 57 + (s.reg 0x18).toNat % 2 ^ 32) ∧
    ({ boot := 3, mbBusy := true, mbDone := true } : Pkg).mbDone = true := by unfold MailRuns; decide +kernel

theorem witness_spdm :
    ∀ b ∈ [1, 3], let s := { ready with pkg := { boot := b, linkUp := true } }
      s.pkg.stopped = false ∧ s.pkg.linkUp = true ∧ s.pkg.boot ≠ 0 ∧ s.pkg.power = 0 := by decide +kernel

/-- A machine whose line 9 is owned by core 15, with core 0 waiting for it and the lease of R494 run out. -/
def leasing (mode : Nat) (p : List Nat) (i : Inst := { st := .running, slots := [0] }) : State :=
  let a : Acc := { id := 4, kind := .load, len := 8, parts := [(pmdBase + 64, 8, 2, false)] }
  let l : LineCo := { owner := some 15, tok := [(15, 17)], home := some (List.replicate 64 7), preq := [(0, 0)],
                      probe := if p = [] then none else some (0, p) }
  { at0 { slot0 with pend := [a] } with
      clk := 65536, lines := [(pmdBase / 64 + 1, l)], tgu := { insts := [(3, i)] },
      priv := [(0x2600C, BitVec.ofNat 64 (100 * 2 ^ 32 + 3 * 2 ^ 28 + 10 * 2 ^ 16 + 6 * 2 ^ 12 + mode))] }

theorem witness_leases_expire :
    (let s := leasing 5 []
     s.pkg.stopped = false ∧ 2 ^ ((s.reg 0x130060).toNat / 2 ^ 12 % 16 + 10) = 65536 ∧
       (s.lineCo (pmdBase / 64 + 1)).preq.find? (fun r => s.missing r.1 (pmdBase / 64 + 1)) = some (0, 0) ∧
       (s.lineCo (pmdBase / 64 + 1)).probe = none ∧ 0 + 65536 ≤ s.clk) ∧
    (let s := leasing 5 [15, 16]
     (s.lineCo (pmdBase / 64 + 1)).probe = some (0, [15, 16]) ∧ 0 + 65536 ≤ s.clk ∧ 15 ∈ [15, 16] ∧ s.fq.head = s.fq.tail ∧
       s.pkg.deadCores.getLsbD 15 = false ∧ (s.reg 0x130060).toNat % 2 = 1 ∧ (s.reg 0x130060).toNat / 4 % 2 = 1 ∧
       (∀ p ∈ s.tgu.insts, ∀ j ∈ p.2.slots, j / 4 ≠ 15) ∧ (s.lineCo (pmdBase / 64 + 1)).owner = some 15 ∧
       (s.lineCo (pmdBase / 64 + 1)).home = some (List.replicate 64 7) ∧ s.fq.full = false ∧ s.pkg.fenced = false) ∧
    (let s := leasing 5 [15] { st := .running, slots := [63] }
     (s.inst 3).slots = [63] ∧ 63 / 4 = 15 ∧ (∀ p ∈ s.tgu.insts, p.1 ≠ 3 → ∀ j ∈ p.2.slots, j / 4 ≠ 15)) ∧
    (let s := leasing 4 [15]
     (s.reg 0x130060).toNat % 2 = 0) := by decide +kernel

theorem witness_owner_lines (l : Nat) (h : l ≠ pmdBase / 64 + 1) : ((leasing 5 [15, 16]).lineCo l).owner ≠ some 15 := by
  have : (leasing 5 [15, 16]).lineCo l = {} := by
    unfold State.lineCo leasing
    simp [mget]
    intro e
    exact absurd e.symm (by simpa [eq_comm] using h)
  rw [this]
  decide

theorem witness_heartbeats :
    ∀ m ∈ [0, 2], let s := { leasing 6 [] with cores := [(15, { hbMissed := m })] }
      (s.reg 0x130060).toNat / 2 % 2 = 1 ∧ (s.reg 0x130060).toNat / 8 % 2 = 0 ∧ s.fq.head = s.fq.tail ∧
        (∀ j, j < 16 → j ≠ 15 → (0x7FFF : BitVec 17).getLsbD j = true) ∧ (0x7FFF : BitVec 17).getLsbD 15 = false ∧
        (∀ j, j < 16 → j ≠ 15 → (s.core j).mute = false) ∧
        s.pkg.deadCores.getLsbD 15 = false ∧ s.pkg.gated.getLsbD 15 = false ∧ (s.core 15).waking = false ∧
        (∀ p ∈ s.tgu.insts, ∀ j ∈ p.2.slots, j / 4 ≠ 15) ∧
        ((m = 0 → (s.core 15).hbMissed + 1 < (s.reg 0x130060).toNat / 2 ^ 28 % 16) ∧
          (m = 2 → (s.reg 0x130060).toNat / 2 ^ 28 % 16 ≤ (s.core 15).hbMissed + 1)) := by decide +kernel

theorem witness_link :
    ready.pkg.linkUp = true ∧ (at0 slot0).pkg.linkUp = false ∧ ({ ready with pkg := { boot := 3 } } : State).pkg.boot ≠ 0 ∧
    (∀ mode ∈ [0, 4], let s := { leasing mode [] with clk := 150000000, pkg := { boot := 3, downAt := some 0 } }
      s.pkg.downAt = some 0 ∧ 0 + (s.reg 0x130060).toNat / 2 ^ 32 % 256 * 1500000 ≤ s.clk ∧ s.fq.head = s.fq.tail ∧
        s.pkg.fenced = false ∧ ((s.reg 0x130060).toNat / 4 % 4 = 0 ↔ mode = 0)) ∧
    ready.pclass (64 * 5) = .host := by decide +kernel

/-! ### Witnesses: the fault queue, registers and the layout engine -/

/-- A reachable package whose fault record 200 names f, with task 0 stopped. -/
def recorded (f : FTarget) (i : Inst := {}) : State :=
  let t : Tgu := { insts := [(0, i)], nextInst := 1, graphs := [(0, {})] }
  { ready with fq := { recs := [(200, ({}, f))], head := 200, tail := 201 }, tgu := t,
               gctx := [(255, { stopped := true })], cores := [(15, { xops := [{ id := 4, parked := true }] })],
               slots := [(63, { slot0 with mops := [{ id := 4, parked := true }] })] }

theorem witness_fault_actions :
    (∀ f ∈ [FTarget.none, .task 0, .xfer 15 4, .mop 63 4, .ctx 255], HostReaches (recorded f) ∧ Names (recorded f) 200 f) ∧
    (recorded .none).targetWaits .none = false ∧
    (∀ im ∈ [[], [pmdBase]], ∀ g ∈ [true, false],
      let i : Inst := { st := .stopped, faulted := true, images := im, guarded := g }
      let s := recorded (.task 0) i
      s.inst 0 = i ∧ (∀ p ∈ s.tgu.insts, p.1 < s.tgu.nextInst) ∧ s.graph? (s.inst 0).graph = some {} ∧ s.tgu.port = []) ∧
    (recorded (.xfer 15 4)).targetWaits (.xfer 15 4) = true ∧ (recorded (.mop 63 4)).targetWaits (.mop 63 4) = true ∧
    ((recorded (.ctx 255)).ctx 255).stopped = true ∧ (recorded .none).fq.waiting = [] ∧
    (let s := { recorded .none with fq := { head := 1, tail := 0, waiting := [({}, .none)] } }
     s.fq.waiting = [({}, .none)] ∧ s.fq.tail + 1 ≠ (2 : Word).setWidth 8) := by unfold HostReaches Names; decide +kernel

theorem witness_register_writes :
    HostReaches ready ∧ (3 ∉ [1, 2, 4, 8]) ∧ 0x010000 ≤ 0x017FF8 ∧ 0x017FF8 < 0x018000 ∧ 0x017FF8 % 8 = 0 ∧
    ready.tgu.used = [] ∧ ({ ready with tgu := { used := [(0, 0)] } } : State).tgu.used ≠ [] ∧ ready.pkg.mbBusy = false := by
  unfold HostReaches; decide +kernel

/-- A layout descriptor of one page from lbase, with units of 32 words in one pair of NBU 1. -/
def layout (lbase fmt : Nat) : Nat :=
  lbase + 2 ^ 64 + fmt * 2 ^ 96 + 2 ^ 104 + 32 * 2 ^ 112 + 2 ^ 128 + (strBase + 0x100000) * 2 ^ 192 + (pmdBase + 0x40000000) * 2 ^ 256
/-- Region 0 as plain codes, regions 1 and 2 as MI8 with scales in the next row, and a command. -/
def laid (c : LCmd) : State :=
  let d := fun (g l : Nat) => (List.range 8).map fun i => (0x22000 + 8 * g + i, BitVec.ofNat 64 (l / 2 ^ (64 * i) % 2 ^ 64))
  { at0 slot0 with
      layout := { cmds := [c] }, mem := writeLe [] (pmdBase + 0x40000000) 8 (2 ^ 26 + 1),
      priv := d 0 (layout strBase 0) ++ d 1 (layout (strBase + 0x10000) 1) ++ d 2 (layout (strBase + 0x20000) 1) }
/-- Where a cell of such a page stands in it, a scale's cell behind the elements. -/
def cellIndex (a : Nat) : Nat :=
  let o := a - pmdBase
  o % 32 + 32 * (o / 65536 % 2) + 64 * (o / 32 % 8) + 512 * (o / 2 ^ 18 % 8) + 4096 * (o / 2 ^ 21)
/-- A way to decide that cells are good: those of a page in their order, with its scales behind them. -/
theorem good_of {s : State} {a : List Nat} (n : Nat) (h : a.map cellIndex = List.range n)
    (b : (a.all fun x => decide (pmdBase ≤ x) && decide (x < pmdBase + 2 ^ 38)) = true) (c : s.cap = 2 ^ 38) : GoodCells s a := by
  refine ⟨(List.pairwise_map.mp (h ▸ List.nodup_range : (a.map cellIndex).Nodup)).imp fun n e => n (congrArg cellIndex e), fun x hx => ?_⟩
  have := List.all_eq_true.mp b x hx
  rw [c]
  simpa using this

/-- The cell of element byte i, and of scale byte i, of such a page. -/
def elemAt (i : Nat) : Option Nat :=
  let w := i / 32
  let pos := w / 32 * (32 / 2) + w % 32 / 2
  let row := 0 + pos / 64
  (if 32 = 0 ∨ 1 = 0 ∨ 256 ≤ 1 ∨ 131071 < row then none
    else some (32 * colOfNbu false 1 (2 * 0 + w % 32 % 2) row (pos % 64) + i % 32)).map (pmdBase + ·)
def scaleAt (i : Nat) : Option Nat :=
  let k := i / 64
  let row := 1 + k / 64
  (if 1 = 0 ∨ 256 ≤ 1 ∨ 131071 < row then none
    else some (32 * colOfNbu false 1 (2 * 0 + i / 32 % 2) row (k % 64) + i % 32)).map (pmdBase + ·)
/-- Descriptor d places its page as those of laid do. -/
def Placed (s : State) (d : Nat) : Prop := s.z128 = false ∧ dU d = 32 ∧ dNp d = 1 ∧ s.pairEnt d 0 = (1, 0, 0, 1)
theorem elems_of {s : State} {d : Nat} (h : Placed s d) : s.pageCells d 0 = allSome ((List.range 4096).map elemAt) := by
  obtain ⟨z, hu, hp, e⟩ := h
  unfold State.pageCells
  congr 2
  funext i
  simp only [State.elemCell, hu, hp, Nat.mod_one, Nat.div_one, e, z, elemAt, State.nnbu, Nat.mul_zero, Nat.zero_add]
  rfl
theorem scales_of {s : State} {d : Nat} (h : Placed s d) (f : dFmt d = 1) :
    s.pageScales d 0 = allSome ((List.range 256).map scaleAt) := by
  obtain ⟨z, -, hp, e⟩ := h
  unfold State.pageScales
  rw [if_neg (by rw [f]; decide)]
  congr 2
  funext i
  simp only [State.scaleCell, hp, Nat.mod_one, Nat.div_one, e, z, scaleAt, State.nnbu, Nat.mul_zero, Nat.zero_add]
  rfl
theorem cells_listed : ((allSome ((List.range 4096).map elemAt)).bind fun a =>
    (allSome ((List.range 256).map scaleAt)).map fun b => decide (a.map cellIndex = List.range 4096) &&
      decide ((a ++ b).map cellIndex = List.range 4352) &&
      (a ++ b).all fun x => decide (pmdBase ≤ x) && decide (x < pmdBase + 2 ^ 38)) = some true := by decide +kernel

theorem witness_page_cells (c : LCmd) :
    ∃ a as, (∀ g ∈ [0, 1, 2], (laid c).pageCells ((laid c).layDesc g) 0 = some a) ∧
      (∀ g ∈ [1, 2], (laid c).pageScales ((laid c).layDesc g) 0 = some as) ∧ GoodCells (laid c) a ∧ GoodCells (laid c) (a ++ as) := by
  have p : ∀ g ∈ [0, 1, 2], Placed (laid c) ((laid c).layDesc g) := by
    unfold Placed
    show ∀ g ∈ [0, 1, 2], (laid {}).z128 = false ∧ dU ((laid {}).layDesc g) = 32 ∧ dNp ((laid {}).layDesc g) = 1 ∧
      (laid {}).pairEnt ((laid {}).layDesc g) 0 = (1, 0, 0, 1)
    decide +kernel
  have f : ∀ g ∈ [1, 2], dFmt ((laid c).layDesc g) = 1 := by
    show ∀ g ∈ [1, 2], dFmt ((laid {}).layDesc g) = 1
    decide +kernel
  have l := cells_listed
  cases ha : allSome ((List.range 4096).map elemAt) with
  | none => rw [ha] at l; cases l
  | some a =>
    cases hb : allSome ((List.range 256).map scaleAt) with
    | none => rw [ha, hb] at l; cases l
    | some b =>
      rw [ha, hb] at l
      simp only [Option.bind_some, Option.map_some, Option.some.injEq, Bool.and_eq_true, decide_eq_true_eq] at l
      refine ⟨a, b, fun g hg => (elems_of (p g hg)).trans ha, fun g hg => (scales_of (p g (by simp_all)) (f g hg)).trans hb,
        good_of 4096 l.1.1 ?_ rfl, good_of 4352 l.1.2 l.2 rfl⟩
      have := l.2
      rw [List.all_append, Bool.and_eq_true] at this
      exact this.1

/-- The plain page of a command, in PMD memory. -/
theorem witness_plain_page (c : LCmd) : GoodCells (laid c) ((List.range 4096).map (pmdBase + 0x80000000 + 4096 * 0 + ·)) := by
  refine ⟨List.pairwise_map.mpr (List.nodup_range.imp fun n e => n (Nat.add_left_cancel e)), fun a h => ?_⟩
  obtain ⟨i, hi, rfl⟩ := List.mem_map.mp h
  have := List.mem_range.mp hi
  show pmdBase ≤ _ ∧ _ < pmdBase + 2 ^ 38
  omega

theorem witness_layout :
    (∀ k ∈ [0, 1, 2, 3],
      let c : LCmd := { cmd := k, g := if k = 2 then 2 else if k = 3 then 0 else 1, g2 := 1, addr := pmdBase + 0x80000000 }
      let s := laid c
      s.pkg.stopped = false ∧ s.layout.cmds = c :: [] ∧ c.page < s.layPages c ∧ s.runsOn c.g = false ∧ s.runsOn c.g2 = false ∧
        layBad (s.layDesc c.g) = false ∧ layBad (s.layDesc c.g2) = false ∧ s.flips = [] ∧ s.poison = [] ∧ s.lines = [] ∧
        s.layout.gen = [] ∧ dFmt (s.layDesc c.g2) = 1 ∧ (k = 3 → dFmt (s.layDesc c.g) = 0 ∧ ¬ 2 * c.page + 1 < dLen (s.layDesc c.g)) ∧
        (k ≠ 3 → dFmt (s.layDesc c.g) = 1) ∧ s.layPages { c with page := 1 } ≤ 1 ∧ (c.g ≠ c.g2 ∨ k < 2)) ∧
    (∀ k ∈ [0, 1, 2, 3],
      let s := { laid { cmd := k, g := if k < 2 then 5 else 0, g2 := 5 } with fq := {} }
      layBad (s.layDesc 5) = true ∧ layBad (s.layDesc 0) = false ∧ s.fq.full = false) := by decide +kernel

/-! ### Witnesses: steps -/

/-- Slot 0 before word w at 0x1FFC, on the turn of party p. -/
def meeting (p : Party) (w : W32) : State :=
  let q : Seq := { pc := 0x1FFC, ended := false }
  { paged (at0 { slot0 with asq := q, esq := q, helper := { pc := 0x1FFC, run := p == .helper } }) with
      mem := writeLe [] (pmdBase + 0xFFC) 4 w.toNat, sched := [.seq 0 p] }

theorem witness_meets :
    ∀ x ∈ ([(.asq, 0x00A40004), (.esq, 0x400C8500), (.esq, 0xC0810202), (.asq, 0x400C8500), (.esq, 0x1F000000), (.helper, 0x00A40004),
        (.esq, 0xE0000001), (.helper, 0xE0000001), (.asq, 0x1F000000)] : List (Party × W32)),
      let s := meeting x.1 x.2
      let l := page 0xA1D
      let pc := (s.slot 0).pcOf x.1
      s.sched = .seq 0 x.1 :: [] ∧ (s.slot 0).canFetch x.1 = true ∧ s.pkg.stopped = false ∧ s.pkg.gated.getLsbD (coreOf 0) = false ∧
        (s.core (coreOf 0)).waking = false ∧ s.pkg.deadCores.getLsbD (coreOf 0) = false ∧ s.flips = [] ∧ s.poison = [] ∧
        x.2 = BitVec.ofNat 32 (s.physLe (l.pa pc.toNat) 4) ∧
        (match s.xlSlot 0 pc.toNat 4 .fetch with
          | .hit t => decide (t = l)
          | _ => false) = true ∧
        (∀ a ∈ linesOf (l.pa pc.toNat) 4, (s.lineCo a).hostMod = false) ∧ s.asyncNow 0 = false ∧ s.linkWaits (linesOf (l.pa pc.toNat) 4) = false ∧
        (∀ q ∈ [Party.asq, .esq, .helper], (s.slot 0).ranksBefore q x.1 = true →
          stopsSlot 0 { s with sched := [] } (takeTurn (.seq 0 q) { s with sched := [] }) = false) ∧ Pipes 0 x.1 x.2 [] s = false ∧
        (x.1 = .asq → spanBroken (s.slot 0).asq (s.slot 0).esq x.2 (takesWord x.1 x.2) = none ∧ (s.slot 0).slipHeld x.2 = false) ∧
        (x.1 = .esq → spanBroken (s.slot 0).esq (s.slot 0).asq x.2 (takesWord x.1 x.2) = none) ∧ (s.slot 0).upend = [] := by
  decide +kernel

theorem witness_taken :
    takesWord .asq 0x00A40004 = true ∧ takesWord .esq 0x400C8500 = true ∧ takesWord .esq 0xC0810202 = true ∧
    wordTag 0xC0810202 = 6 ∧ ((meeting .esq 0xC0810202).slot 0).rendezvous = true ∧ takesWord .asq 0x400C8500 = false ∧
    wordTag 0x400C8500 ≠ 7 ∧ wordTag 0xE0000001 = 7 ∧ helperWord 0x00A40004 = true ∧ wordTag 0x00A40004 ≠ 7 ∧
    takesWord .asq 0x1F000000 = true ∧ followsWord .asq 0x1F000000 = false ∧
    (match decodeCore 0x1F000000 with
      | .bad _ => true
      | .ok _ => false) = true := by decide +kernel

/-- Slot 0 in exposed mode before a VMOV whose engine another slot of the core, of class c, also wants. -/
def freezing (c : Nat) : State :=
  let e : QEnt := { word := 0x60000000 }
  let s := meeting .esq 0x60B00000
  let t := s.slot 0
  { s with slots := [(0, { t with exposed := true, masks := [(3, 16)] }), (1, { slot0 with task := some 1, cls := BitVec.ofNat 2 c, queues := [(0, [e])] })],
           tgu := { insts := [(0, { st := .running, slots := [0] }), (1, { st := .running, slots := [1] })] } }
theorem witness_freezes :
    (∀ c ∈ [0, 3], let s := freezing c
      let l := page 0xA1D
      s.sched = .seq 0 .esq :: [] ∧ (s.slot 0).canFetch .esq = true ∧ s.pkg.stopped = false ∧ s.pkg.gated.getLsbD 0 = false ∧
        (s.core 0).waking = false ∧ s.pkg.deadCores.getLsbD 0 = false ∧ s.flips = [] ∧ s.poison = [] ∧
        (match s.xlSlot 0 0x1FFC 4 .fetch with
          | .hit t => decide (t = l)
          | _ => false) = true ∧
        0x60B00000 = BitVec.ofNat 32 (s.physLe (l.pa 0x1FFC) 4) ∧ s.lines = [] ∧ s.asyncNow 0 = false ∧ s.linkWaits (linesOf (l.pa 0x1FFC) 4) = false ∧
        (∀ q ∈ [Party.asq, .esq, .helper], (s.slot 0).ranksBefore q .esq = true →
          stopsSlot 0 { s with sched := [] } (takeTurn (.seq 0 q) { s with sched := [] }) = false) ∧
        spanBroken (s.slot 0).esq (s.slot 0).asq 0x60B00000 true = none ∧ (s.slot 0).upend = [] ∧
        Pipes 0 .esq 0x60B00000 [] s = true ∧ State.engineTakes { s with sched := [] } 0 0 = decide (c = 0)) ∧
    (match decodeCore 0x60B00000 with
      | .ok _ => true
      | .bad _ => false) = true := by decide +kernel

/-- Context 255 at a command of one word, or of three. -/
def commanding : State :=
  { gleaning { run := true, pc := 0x1FF4 } with sched := [.glean 255], mem := writeLe [] (pmdBase + 0xFF4) 12 (0x10000000 + 5 * 2 ^ 32) }
theorem fetch_one {va : Nat} {s : State} {v : Nat} {ws : List W32} (h : gRead va 4 4 s = .val v s) :
    gFetch 1 va ws s = .inr (ws ++ [BitVec.ofNat 32 v], s) := by simp [gFetch, h]
theorem fetch_two {va : Nat} {s : State} {v w : Nat} {ws : List W32} (h : gRead va 4 4 s = .val v s)
    (g : gRead (va + 4) 4 4 s = .val w s) :
    gFetch 2 va ws s = .inr (ws ++ [BitVec.ofNat 32 v] ++ [BitVec.ofNat 32 w], s) := by simp [gFetch, h, g]
theorem witness_commands :
    let s := commanding
    let u := { s with sched := [], sel := { kind := .glean, ctx := 255 } }
    s.sched = .glean 255 :: [] ∧ (s.ctx 255).run = true ∧ (s.ctx 255).stopped = false ∧ (s.ctx 255).claim = none ∧
    s.pkg.stopped = false ∧ (∃ ws, gFetch 1 (s.ctx 255).pc.toNat [] u = .inr (ws, u) ∧ (decodeGlean ws).2 = 3) ∧
    ∃ ws, gFetch 2 ((s.ctx 255).pc.toNat + 4) [0x10000000] u = .inr (ws, u) ∧ (decodeGlean ws).1 = .ok (.gbase 0 0 5) :=
  ⟨by decide +kernel, by decide +kernel, by decide +kernel, by decide +kernel, by decide +kernel,
    ⟨_, fetch_one (v := 0x10000000) (val_of (by decide +kernel)), by decide +kernel⟩,
    ⟨_, fetch_two (v := 5) (w := 0) (val_of (by decide +kernel)) (val_of (by decide +kernel)), by rfl⟩⟩

theorem witness_resumed_commands :
    (let s := { commanding with gctx := [(255, { run := true, pc := 0x1FF4, cmd := some [0x28000000] })] }
     (s.ctx 255).cmd = some [0x28000000] ∧ (decodeGlean [0x28000000]).1 = .ok (.gpush 0 0)) ∧
    (let s := { commanding with mem := writeLe [] (pmdBase + 0xFF4) 4 0x01800001 }
     let u := { s with sched := [], sel := { kind := .glean, ctx := 255 } }
     ∃ ws, gFetch 1 (s.ctx 255).pc.toNat [] u = .inr (ws, u) ∧ gLevelBad 0x01800001 = true ∧ ws = [0x01800001]) ∧
    (commanding.ctx 255).cmd = none ∧ gLevelBad 0x10000000 = false :=
  ⟨by decide +kernel, ⟨_, fetch_one (v := 0x01800001) (val_of (by decide +kernel)), by decide +kernel, by rfl⟩, by decide +kernel,
    by decide +kernel⟩

/-- Slot 0 whose sequencers and helper all stand at one word, the ESQ at walk index e. -/
def racing (e : Int) : State :=
  let s := meeting .asq 0x1F000000
  s.modSlot 0 fun v => { v with esq := { v.esq with walk := e }, helper := { pc := 0x1FFC, run := true } }
theorem witness_race :
    let s := racing 0
    let u := { s with sched := [] }
    s.sched = .seq 0 .asq :: [] ∧ u.asyncNow 0 = false ∧ stopsSlot 0 u (takeTurn (.seq 0 .asq) u) = true ∧
      stopsSlot 0 u (takeTurn (.seq 0 .helper) u) = true ∧
      ∀ c ∈ [Party.asq, .esq], (s.slot 0).ranksBefore .helper c = true ∧
      (let v : State := { racing 0 with sched := [], fq := { asyncs := [(0x8000, 0)] } }
       v.asyncNow 0 = true ∧ stopsSlot 0 v (takeTurn (.seq 0 .asq) v) = true) := by decide +kernel

theorem witness_other_turns :
    (let e : QEnt := { word := 0x60000000 }
     let s := { at0 { slot0 with issuing := some (e, 0) } with sched := [.issue 0] }
     s.sched = .issue 0 :: [] ∧ (s.slot 0).issuing = some (e, 0) ∧ s.pkg.stopped = false) ∧
    (let v : Nbu := { nclk := 31, threads := [(15, { run := true, pc := 2047 })], code := [(2047, 0x30180000)] }
     let s := { at0 slot0 with sched := [.nbu 255], nbus := [(255, v)] }
     255 < s.nnbu ∧ s.pkg.stopped = false ∧ (mget ({} : NThread) (s.nbu 255).threads ((s.nbu 255).nclk % 16)).run = true ∧
       (mget ({} : NThread) (s.nbu 255).threads ((s.nbu 255).nclk % 16)).pc < 2048 ∧ decodeNbu (mget 0 (s.nbu 255).code 2047) = .ok (.nact 0 6)) ∧
    (let w : W32 := (encode .halt).headD 0
     let g : Pkg := { gated := 0, boot := 3, linkUp := true }
     let s := { at0 slot0 with sched := [.mgmt], mem := writeLe [] 0x1000 4 w.toNat, mgmt := { pc := 0x1000 }, pkg := g }
     s.mgmt.halted = false ∧ s.tinv = none ∧ s.pkg.stopped = false ∧ s.pkg.boot ≠ 0 ∧
       s.canAccess 16 (linesOf s.mgmt.pc.toNat 4) = true ∧ mgmtWord 0x400C8500 (.addX 3 4 5) = true ∧
       w = BitVec.ofNat 32 (s.physLe s.mgmt.pc.toNat 4) ∧ wordTag w ≠ 7 ∧ privWord w = true ∧ decodeCore w = .ok .halt) ∧
    encode (.supplySag) = [] ∧ (at0 slot0).pkg.stopped = false := by decide +kernel

theorem witness_stopped :
    (let s := { at0 slot0 with pkg := { stopped := true }, sched := [.seq 0 .asq, .event .supplySag] }
     s.pkg.stopped = true ∧ s.popTurn.1 = .seq 0 .asq ∧ s.popTurn.2.popTurn.1 = .event .supplySag) ∧
    Memory.wf State.reset.mem = true := by decide +kernel

/-! ### Words that the spec writes out -/

/-- Words of the scalar formats as the spec writes them: 06: ADDI a9, a0, 4; 06: ADDI a9, a9, -1; 06: ADD x3, x4, x5; 07: 
STG.N64 [a5], a7; 07: LDG.N64 a10, [a6 - 64]; 15: STG.N64 [a10 + 8], a14; 07: FENCE.REL.DIE.GL; 15: FENCE.XP.CORE.GL; 15: 
QLDG lq0, [a4 + 0x50]; 15: SRSET s0, SCALE, a3. -/
theorem test_decode_scalar : [0x00A40004, 0x00A53FFF, 0x400C8500, 0x099CAC00, 0x0928CFC0, 0x09B94C08, 0x0D80005C, 0x0D8000CC, 
0x0B008050, 0x0E006002].map decodeCore =
    [.ok (.addiA 9 0 4), .ok (.addiA 9 9 0x1FFF), .ok (.addX 3 4 5), .ok (.stg 7 5 3 0), .ok (.ldg 10 6 3 0x3C0), .ok (.stg 
14 10 3 8), .ok (.fence 1 3 4), .ok (.fence 3 1 4), .ok (.qldg 0 4 0x50), .ok (.srset 0 3 2)] := by decide +kernel

/-- Words of the system formats as the spec writes them: 13: CSRR x5, SLOTST; 13: CSRW x0, SLIPW, x6; 13: PRIO 3; 13: FGET 
x3, [x4]; 13: UTRET.R; 13: CUTPOST x8, x9; 13: CUTSTOP x10; 15: CSRW x0, COCFG1, x8; 16: CUTGET x18, x0; 18: HALT. -/
theorem test_decode_system : [0xC0140022, 0xC080C020, 0xC3800003, 0xC48C8000, 0xC2800001, 0xC5810900, 0xC6014000, 0xC0810202, 
0xC6C80000, 0xC8000000].map decodeCore =
    [.ok (.csrr 5 0x011), .ok (.csrw 0 6 0x010), .ok (.prio 0 0 3), .ok (.fget 3 4), .ok (.utret 1), .ok (.cutpost 8 9), .ok 
(.cutstop 10), .ok (.csrw 0 8 0x101), .ok (.cutget 18 0), .ok (.halt)] := by decide +kernel

/-- Words of the control formats as the spec writes them: 06: BR.AE.NEZ a9, -2; 15: BR.A.EQZ a13, +2; 06: END.AE; 08: 
BRNONE.EA; 07: WAITV.A.EQ [a6], a9; 15: WAITV.AE.GEN [a10], a9; 15: ABWAIT.AE co1, 3; 16: WAITC.A co1, 1. -/
theorem test_decode_control : [0xB00A7FFE, 0xA0034002, 0xB3400000, 0xB9400002, 0xA2CC9000, 0xB2D49800, 0xB3010003, 
0xA3810001].map decodeCore =
    [.ok (.br 2 1 9 0x3FFE), .ok (.br 0 0 13 2), .ok (.endW 2), .ok (.brnone 3 2), .ok (.waitv 0 6 9 0), .ok (.waitv 2 10 9 
4), .ok (.abwait 2 1 3), .ok (.waitc 0 1 1)] := by decide +kernel

/-- Words of the vector formats as the spec writes them: 08: VSHAPE.BF16.RNE.MI4; 06: VADD v2, v3, v4; 06: the same with 
post:m; 06: the same with wait:t; 08: VCMP.GT.F32 v1, v0; 08: VSUB.F32 v2, v1, v0; 08: MINV; 08: MPOP; 15: VACCR v1, 
acc:0000; 15: VRMAX.F32 v2, v1. -/
theorem test_decode_vector : [0x6000080A, 0x60088640, 0x6A088640, 0x74088640, 0x60A90201, 0x60108201, 0x60B00000, 0x60B80000, 
0x61684000, 0x60E08201].map decodeCore =
    [.ok (.vshape 0 2 0 0 0xA), .ok (.vadd 0 2 3 4 0), .ok (.vadd 5 2 3 4 0), .ok (.vadd 0xA 2 3 4 0), .ok (.vcmp 0 4 1 0 1), 
.ok (.vsub 0 2 1 0 1), .ok (.minv 0), .ok (.mpop 0), .ok (.vaccr 0 1 0), .ok (.vrmax 0 2 1 1)] := by decide +kernel

/-- Words of the matrix formats as the spec writes them: 09: MSTEP acc:0000, s2, x9; 09: MCOMMIT co3, post:t; 15: MSWAP 0, 
10, x12; 15: MWAITB 1; 15: MDRAIN s5, acc:0000, x11; 16: MZERO acc:0002, 2. -/
theorem test_decode_matrix : [0x80424800, 0x8C586000, 0x80300960, 0x80610000, 0x80755800, 0x80800802].map decodeCore =
    [.ok (.mstep 0 2 9 0), .ok (.mcommit 6 1 3), .ok (.mswap 0 0 9 12), .ok (.mwaitb 0 1), .ok (.mdrain 0 5 11 0), .ok 
(.mzero 0 1 2)] := by decide +kernel

/-- Words of the transfer formats as the spec writes them: 10: COPY.SP [a8], s3, co5; 15: COPY.GL [a12], s0, co2; 10: GLLINK 
a12, 0, co1; 10: GLKICK a11, a12, co2; 12: ATTN a10, co4; 12: SAMPLE a11, co5; 12: WNSTEP a12, co6; 16: PIMLD a10, co1; 16: 
PIMRUN a11; 16: REDUCE a10. -/
theorem test_decode_transfer : [0x20034045, 0x20006242, 0x20560001, 0x2045B042, 0x20650044, 0x20A58045, 0x20B60046, 
0x20750041, 0x20858000, 0x20950000].map decodeCore =
    [.ok (.copy 0 3 8 0 0 1 5), .ok (.copy 0 0 12 1 0 1 2), .ok (.gllink 0 12 0 1), .ok (.glkick 0 11 12 1 2), .ok (.attn 0 
10 1 4), .ok (.sample 0 11 1 5), .ok (.wnstep 0 12 1 6), .ok (.pimld 0 10 1 1), .ok (.pimrun 0 11 0 0), .ok (.reduce 0 10 0 
0)] := by decide +kernel

/-- NBU words as the spec writes them: 11: NACT 0, n6; 11: NACT 2, n9; 11: NDOTB.I8 q0, 0, n0, 5, 0; 11: NWRQ.I32 2, n8, q0; 
11: NSYNC; 11: NDONE; 16: NRDW w1, 3, n0, 1; 16: NDOT.I8.G2 q2, w1, 0. -/
theorem test_decode_nbu : [0x30180000, 0x32240000, 0x40028000, 0x46200000, 0x4C000000, 0x50000000, 0x3B800001, 
0x3D500000].map decodeNbu =
    [.ok (.nact 0 6), .ok (.nact 2 9), .ok (.ndotb 0 0 0 5 0 0 0), .ok (.nwrq 2 8 0 0 0), .ok (.nsync), .ok (.ndone), .ok 
(.nrdw 3 1 0 1), .ok (.ndot 2 1 1 0 0 0)] := by decide +kernel

/-- Gleaner words as the spec writes them: 10: GBASE p0, value; 10: GFMT.N8 p0, 0; 10: GNEST p0, 0, 256; 10: GSTRD.SRC p0, 0, 
1; 10: GSTRD.DST p0, 0, 1; 10: GLOOP 2, 6; 10: GPUSH p0, 0; 10: GBASE.ADD p0, 256; 10: GEND. -/
theorem test_decode_gleaner : [[0x10000000, 0x00200000, 0x00000040], [0x18800000], [0x00000100], [0x08000001], [0x08100001], 
[0x40040006], [0x28000000], [0x10400100], [0x50000000]].map decodeGlean =
    [(.ok (.gbase 0 0 0x0000004000200000), 3), (.ok (.gfmt 0 4 0 0), 1), (.ok (.gnest 0 0 0 256 0), 1), (.ok (.gstrd 0 0 0 0 
1 0), 1), (.ok (.gstrd 0 0 0 1 1 0), 1), (.ok (.gloop 2 6), 1), (.ok (.gpush 0 0), 1), (.ok (.gbaseAdd 0 0 256), 1), (.ok 
(.gend), 1)] := by decide +kernel

/-! ### Terms that are not well formed, one for each check -/

/-- Each of these breaks one check: a load of size 7; an LDG of size 7; an STDL of size 7; a load queue past lq3; a store 
queue past sq1; a signed minimum of floats; an AMO operation above 8; an ordered AMO without a scope; the same of REDW; an 
ordered CAS without a scope; a fence of scope 6; a stream past s15; a field past 21; a load queue past lq3; a store queue 
past sq1; a branch condition above 5; a BRNONE of the ASQ; barrier scope 3; the same of BARA; the same of BARW; agent scope 
7; a wait comparison above 5; variant 0xF; a float shift; variant 0xF of a unary word; an integer root; a vector comparison 
above 5; a conversion to no vector type; a 32-bit pack; a 32-bit unpack; a swap past column 63; a ring copy without S; a copy 
to space 2; a G of 3; an NDOTB of L 1; an FP8 NDOTB of L 5; a nest level of 6; a count word without EXT; a stride level of 7; 
a stride word without EXT; type 15; a loop of no words. -/
theorem test_wf_refuses : ([.lds 1 2 7 0, .ldg 1 2 7 0, .stdl 1 2 3 7, .qld 4 1 0, .qst 2 1 0, .amo 1 2 2 2 0 0, .amo 1 2 9 0 
0 0, .amo 1 2 0 0 1 6, .redw 1 2 9 0 0 0, .cas 1 2 3 0 1 7, .fence 0 6 1, .srset 16 1 0, .srget 1 0 22, .qpop 1 4, .qpush 2 
1, .br 0 6 1 0, .brnone 0 1, .bar 0 3 1, .bara 0 3 1, .barw 0 3 1, .barg 0 1 2 7, .waitv 0 1 2 6, .vadd 0 2 3 4 0xF, .vshl 0 
2 3 4 1, .vabs 0 2 3 0xF, .vsqrt 0 2 3 4, .vcmp 0 6 1 2 1, .vcvt 0 1 2 3 1, .vpack 0 1 2 3 1, .vunpk 0 1 2 0 1, .mswap 0 60 4 
1, .copy 0 0 1 0 1 0 0, .copy 0 0 1 2 0 0 0, .ndot 0 0 3 0 0 0, .ndotb 0 0 0 1 0 0 0, .ndotb 0 0 0 5 1 0 0, .gnest 0 6 0 1 0, 
.gnest 0 0 0 1 1, .gstrd 0 7 0 0 1 0, .gstrd 0 0 0 0 1 1, .gfmt 0 15 0 0, .gloop 0 1] : List Instr).all (fun i => !i.wf) = 
true := by decide +kernel
/-! ### Single steps whose results the spec works out -/

/-- The outcome is a next state that meets p. -/
def thenHolds (o : Host.Outcome State Fault Refusal) (p : State → Bool) : Bool :=
  match o with
  | .next s => p s
  | _ => false
/-- Register v of slot 0 after an ESQ word with the X registers given. -/
def xAfter (x : List (Nat × Word)) (i : Instr) (r : BitVec 5) (w : Word) : Bool :=
  thenHolds (exec i (at0 { slot0 with x := x } .esq)) fun s => decide ((s.slot 0).rx r = w)
/-- The value and the write mask of the vector result that an exposed ESQ word puts in flight. -/
def vAfter (v : List (Nat × Vec)) (i : Instr) (p : Nat → Nat → Vec → Bool) (masks : List (BitVec 256 × Nat) := []) : Bool :=
  thenHolds (exec i (at0 { slot0 with exposed := true, v := v, masks := masks } .esq)) fun s =>
    match (s.slot 0).results.map (fun r => (r.due, r.v)) with
    | [(due, some (d, x, _))] => p due d x
    | _ => false

/-- A sum past 2^64 wraps (R159). -/
theorem test_add_wraps : xAfter [(1, -1), (2, 2)] (.addX 3 1 2) 3 1 = true := by decide +kernel
/-- The product of −1 and −1 has upper half 0 signed and 2^64 − 2 unsigned (R159). -/
theorem test_mulh : (xAfter [(1, -1)] (.mulhX 3 1 1) 3 0 && xAfter [(1, -1)] (.mulhnX 3 1 1) 3 0xFFFFFFFFFFFFFFFE) = true := by
  decide +kernel
/-- Division by zero gives all ones and the dividend; the most negative over −1 gives itself and 0 (R69). -/
theorem test_div_corners : (xAfter [(1, 7)] (.divX 3 1 2) 3 (-1) && xAfter [(1, 7)] (.remX 3 1 2) 3 7 &&
    xAfter [(1, 2 ^ 63), (2, -1)] (.divX 3 1 2) 3 (2 ^ 63) && xAfter [(1, 2 ^ 63), (2, -1)] (.remX 3 1 2) 3 0) = true := by
  decide +kernel
/-- A quotient is rounded toward zero (R69): −7 over 2 is −3, remainder −1. -/
theorem test_div_truncates : (xAfter [(1, -7), (2, 2)] (.divX 3 1 2) 3 (-3) && xAfter [(1, -7), (2, 2)] (.remX 3 1 2) 3 (-1)) =
    true := by decide +kernel
/-- x0 reads as zero and discards a write (R5). -/
theorem test_x0 : xAfter [(1, 9)] (.addX 0 1 1) 0 0 = true := by decide +kernel
/-- UTRET.R goes back to the word that trapped, UTRET to the one after it, with both sequencers (R341). -/
theorem test_utret : ([(1, 0x2000), (0, 0x2004)] : List (BitVec 1 × Word)).all (fun (t, w) =>
    thenHolds (exec (.utret t) (at0 { slot0 with handler := true, st := 3, uepc := 0x2000 } .esq)) fun s =>
      decide ((s.slot 0).asq.pc = w ∧ (s.slot 0).esq.pc = w ∧ (s.slot 0).handler = false)) = true := by decide +kernel

/-- The lanes of the worked case of tree order against lane order: 1, 2^24, 1, −2^24 under a mask of four lanes. -/
def treeCase : List (Nat × Vec) := [(1, toVec 32 [0x3F800000, 0x4B800000, 0x3F800000, 0xCB800000])]
/-- VRSUM of them is 2 in lane 0 and 0 in the others (R81, 08's worked case). -/
theorem test_vrsum_tree : vAfter treeCase (.vrsum 0 2 1 1) (fun _ d x => d == 2 && x == toVec 32 [0x40000000]) [(0xF, 32)] =
    true := by decide +kernel
/-- VSCAN of them is 1, 2^24, 2^24 and 0 (R201, 08's worked case). -/
theorem test_vscan_order : vAfter treeCase (.vscan 0 2 1 1)
    (fun _ _ x => x.toNat % 2 ^ 128 == (toVec 32 [0x3F800000, 0x4B800000, 0x4B800000, 0]).toNat) [(0xF, 32)] = true := by
  decide +kernel

/-- The register of the worked case of VQMX: 3.0, about −0.7 and about 0.01. -/
def mxCase : List (Nat × Vec) := [(5, toVec 32 [0x40400000, 0xBF333333, 0x3C23D70A])]
/-- Its MXINT8 codes: bytes 0x60, 0xEA, and scale 0x80 in byte 248 (R204, 08's worked case). -/
theorem test_vqmx : vAfter mxCase (.vqmx 0 6 5 1) (fun _ _ x => x == toVec 32 ([0xEA60] ++ List.replicate 61 0 ++ [0x80])) =
    true := by decide +kernel
/-- And back: 3.0 and −0.6875 (R204, 08's worked case). -/
theorem test_vdqmx : vAfter [(6, toVec 32 ([0xEA60] ++ List.replicate 61 0 ++ [0x80]))] (.vdqmx 0 7 6 1)
    (fun _ _ x => x == toVec 32 [0x40400000, 0xBF300000]) = true := by decide +kernel

/-- PWRCTL at reset has LIMIT 120 and COREIDLE 10 (R373); a host read that is not aligned returns zero (R502). -/
theorem test_host_register_reads : [(0x120000, 2), (0x120002, 2), (0x120001, 2), (0x120000, 8)].map
    (fun x => State.reset.hostRegRead false x.1 x.2) = [0x7800, 10, 0, 0xA7800] := by decide +kernel
end Sys2Proof.Tests
end

