-- ==== Sys2Proof/Proofs/Tables.lean ====
section
/-! PROOF SUPPORT. Lists of numbered values after an entry is left out or put in, a run of writes of a sparse map, and the
graphs that the task graph unit holds after one of them changes. -/

namespace Sys2Proof.Machine

variable {α β : Type}

/-! ### Numbered values -/

theorem lookupN_merase (m : List (Nat × α)) (k j : Nat) :
    lookupN (merase m k) j = if j = k then none else lookupN m j := by
  induction m with
  | nil => simp [merase, lookupN]
  | cons p m ih =>
    obtain ⟨i, v⟩ := p
    by_cases hki : k = i
    · subst hki
      by_cases hjk : j = k
      · subst hjk
        simpa [merase] using ih
      · simp [merase, lookupN, ih, hjk]
    · by_cases hji : j = i
      · subst hji
        simp [merase, hki, lookupN, Ne.symm hki]
      · simp [merase, hki, lookupN, hji, ih]

theorem lookupN_mput_ne (m : List (Nat × α)) {k j : Nat} (v : α) (h : j ≠ k) : lookupN (mput m k v) j = lookupN m j := by
  induction m with
  | nil => simp [mput, lookupN, h]
  | cons p m ih =>
    obtain ⟨i, w⟩ := p
    by_cases hlt : k < i <;> simp [mput, hlt, lookupN, h, ih]

/-- A read after an entry has been replaced. -/
theorem lookupN_replaced (m : List (Nat × α)) (k j : Nat) (v : α) :
    lookupN (mput (merase m k) k v) j = if j = k then some v else lookupN m j := by
  by_cases h : j = k
  · subst h
    simp [lookupN_mput_merase]
  · rw [lookupN_mput_ne _ v h, lookupN_merase, if_neg h, if_neg h]

/-! ### A run of writes of a sparse map -/

/-- A run of writes leaves alone what none of them names. -/
theorem mget_foldl_mset_ne [DecidableEq β] (d : β) (key : α → Nat) (val : α → β) (l : List α) (m : Map β) (k : Nat)
    (h : ∀ x ∈ l, k ≠ key x) : mget d (l.foldl (fun m x => mset d m (key x) (val x)) m) k = mget d m k := by
  induction l generalizing m with
  | nil => rfl
  | cons x l ih =>
    rw [List.foldl_cons, ih _ fun y hy => h y (List.mem_cons_of_mem _ hy)]
    exact mget_mset_ne _ _ _ _ _ (h x List.mem_cons_self)

/-- Of writes at different keys each stands at the end. -/
theorem mget_foldl_mset [DecidableEq β] (d : β) (key : α → Nat) (val : α → β) (l : List α) (m : Map β)
    (hl : (l.map key).Nodup) {x : α} (hx : x ∈ l) :
    mget d (l.foldl (fun m x => mset d m (key x) (val x)) m) (key x) = val x := by
  induction l generalizing m with
  | nil => cases hx
  | cons y l ih =>
    obtain ⟨hy, hl⟩ := List.nodup_cons.mp hl
    rw [List.foldl_cons]
    rcases List.mem_cons.mp hx with rfl | hx
    · rw [mget_foldl_mset_ne _ _ _ _ _ _ fun z hz e => hy (List.mem_map.mpr ⟨z, hz, e.symm⟩)]
      exact mget_mset_self _ _ _ _
    · exact ih _ hl hx

/-! ### Graphs and their edges -/

theorem State.graph?_setGraph (s : State) (g j : Nat) (v : Graph) :
    (setGraph g v s).graph? j = if j = g then some v else s.graph? j := lookupN_replaced _ _ _ _

theorem State.graph?_bindGraph (s : State) (g j : Nat) (d : Graph) :
    (bindGraph g d s).graph? j = if j = g then some d else s.graph? j := lookupN_replaced _ _ _ _

/-- The edges of a graph lie at different places of the edge table. -/
theorem State.edgesOf_places_nodup (s : State) (d : Graph) : ((s.edgesOf d).map fun p => d.edge0 + p.1).Nodup := by
  rw [State.edgesOf, List.map_map]
  exact List.Pairwise.map _ (fun _ _ hne h => hne (Nat.add_left_cancel h)) List.nodup_range

/-- A graph is bound with FREE of each of its edges at SLOTS (R314, R368). -/
theorem bindGraph_edgeFree (s : State) (g : Nat) (d : Graph) {p : Nat × Nat} (hp : p ∈ s.edgesOf d) :
    mget 0 (bindGraph g d s).tgu.edgeFree (d.edge0 + p.1) = eSlots p.2 :=
  mget_foldl_mset 0 (fun p : Nat × Nat => d.edge0 + p.1) (fun p => eSlots p.2) _ _ (s.edgesOf_places_nodup d) hp

end Sys2Proof.Machine
end

