-- ==== Sys2Proof/Proofs/Reports.lean ====
section
/-! PROOF SUPPORT. What a fault record's report writes, and what it leaves unchanged (R413). -/

namespace Sys2Proof.Machine

open Sys2Proof.Claim

/-- The note of an asynchronous cause is all that noteAsync changes. -/
theorem noteAsync_frame (r : FRec) (s : State) : ∃ a, noteAsync r s = { s with fq := { s.fq with asyncs := a } } := by
  unfold noteAsync
  split <;> exact ⟨_, rfl⟩

theorem pushRecord_fq (r : FRec) (t : FTarget) (s : State) :
    (pushRecord r t s).fq = { s.fq with recs := mset ({}, .none) s.fq.recs s.fq.tail.toNat (r, t), tail := s.fq.tail + 1 } := by
  unfold pushRecord
  dsimp only
  split <;> rfl

/-- A report changes the fault queue and what the package sends to the host, and nothing else. -/
theorem report_frame (r : FRec) (t : FTarget) (s : State) : ∃ q p, report r t s = { s with fq := q, pkg := p } := by
  obtain ⟨a, hnote⟩ := noteAsync_frame r s
  unfold report pushRecord
  rw [hnote]
  dsimp only
  split
  · exact ⟨_, _, rfl⟩
  · split <;> exact ⟨_, _, rfl⟩

@[simp] theorem report_slots (r : FRec) (t : FTarget) (s : State) : (report r t s).slots = s.slots := by
  obtain ⟨q, p, h⟩ := report_frame r t s
  rw [h]

@[simp] theorem report_tgu (r : FRec) (t : FTarget) (s : State) : (report r t s).tgu = s.tgu := by
  obtain ⟨q, p, h⟩ := report_frame r t s
  rw [h]

/-- A report to a queue with room is its next record. -/
theorem nextRecord_report {r : FRec} {t : FTarget} {s : State} (h : s.fq.full = false) : NextRecord s (report r t s) r t := by
  obtain ⟨a, hnote⟩ := noteAsync_frame r s
  have hroom : (noteAsync r s).fq.full = false := by
    rw [hnote]
    exact h
  have hpush : report r t s = pushRecord r t (noteAsync r s) := by simp [report, hroom]
  rw [NextRecord, hpush, pushRecord_fq, hnote]
  exact ⟨mget_mset_self _ _ _ _, rfl⟩

end Sys2Proof.Machine
end

