-- ==== Sys2Proof/Proofs/GraphCommands.lean ====
section
/-! PROOF. A core that wakes, the watchdog, and the graph commands of GCMD (R24, R368, R416). -/

namespace Sys2Proof.Machine

open Sys2Proof.Claim

/-! ### The events by name -/

theorem exec_coreWakeComplete (c : Nat) (s : State) : exec (.coreWakeComplete c) s = execCoreWakeComplete c s := rfl
theorem exec_watchdogExpire (k : Nat) (s : State) : exec (.watchdogExpire k) s = execWatchdogExpire k s := rfl
theorem exec_loadG (s : State) : exec .loadG s = execLoadG s := rfl
theorem exec_unloadG (s : State) : exec .unloadG s = execUnloadG s := rfl
theorem exec_publishG (s : State) : exec .publishG s = execPublishG s := rfl

/-! ### Waking and the watchdog -/

/-- A core that wakes runs, its clock no longer gated, and no other core nor any slot changes (R24). -/
theorem coreWakeComplete_wakes {c : Nat} {s : State} (hrun : s.pkg.stopped = false) (hw : (s.core c).waking = true)
    (hc : c < 16) :
    ∃ t, exec (.coreWakeComplete c) s = .next t ∧ (t.core c).waking = false ∧ t.pkg.gated.getLsbD c = false ∧
      (∀ j, j ≠ c → t.core j = s.core j) ∧ t.slots = s.slots := by
  let awake := s.modCore c fun v => { v with waking := false, idleSince := s.clk }
  have hself : awake.core c = { s.core c with waking := false, idleSince := s.clk } := s.core_modCore_self c _
  have hother : ∀ j, j ≠ c → awake.core j = s.core j := fun j hj => by rw [s.core_modCore, if_neg hj]
  refine ⟨{ awake with pkg := { s.pkg with gated := s.pkg.gated &&& ~~~BitVec.twoPow 16 c } }, ?_, ?_, ?_, hother, rfl⟩
  · rw [exec_coreWakeComplete, execCoreWakeComplete, hw, hrun, decide_eq_true hc]
    rfl
  · exact congrArg Core.waking hself
  · simp [hc]

/-- What the watchdog does with a slot that has made no progress for a period and has not been reported (R416). -/
theorem execWatchdogExpire_late {k : Nat} {s : State} (hrun : s.pkg.stopped = false)
    (hp : (s.reg 0x130000).toNat / 2 ^ 20 % 16 ≠ 0) (htask : (s.slot k).task.isSome = true) (hrep : (s.slot k).reported = false)
    (hlate : (s.slot k).lastAct + 2 ^ ((s.reg 0x130000).toNat / 2 ^ 20 % 16 + 12) ≤ s.clk) :
    ∃ r u, execWatchdogExpire k s = .next (report r .none u) ∧ r.cause = 0x48 ∧ r.place = whereOf k ∧ u.fq = s.fq ∧
      u.slots = (s.modSlot k fun sl => { sl with reported := true }).slots := by
  have hdue : ¬ (bits (s.reg 0x130000).toNat 23 20 = 0 ∨ (s.slot k).task.isNone = true ∨ (s.slot k).reported = true ∨
      s.pkg.stopped = true ∨ s.clk < (s.slot k).lastAct + 2 ^ (bits (s.reg 0x130000).toNat 23 20 + 12)) := by
    rintro (h | h | h | h | h)
    · exact hp h
    · simp [Option.isNone_iff_eq_none.mp h] at htask
    · simp [hrep] at h
    · simp [hrun] at h
    · exact Nat.not_lt.mpr hlate h
  unfold execWatchdogExpire
  dsimp only
  rw [if_neg hdue]
  refine ⟨_, _, rfl, rfl, rfl, rfl, ?_⟩
  dsimp only [State.modSlot, State.setSlot, State.slot, State.takeFree]

/-- A slot without progress for a period is reported once and not stopped (R416). -/
theorem watchdogExpire_reports {k : Nat} {s : State} (hrun : s.pkg.stopped = false)
    (hp : (s.reg 0x130000).toNat / 2 ^ 20 % 16 ≠ 0) (htask : (s.slot k).task.isSome = true) (hrep : (s.slot k).reported = false)
    (hlate : (s.slot k).lastAct + 2 ^ ((s.reg 0x130000).toNat / 2 ^ 20 % 16 + 12) ≤ s.clk) (hroom : s.fq.full = false) :
    ∃ t e, exec (.watchdogExpire k) s = .next t ∧ NextRecord s t e .none ∧ e.cause = 0x48 ∧ e.place = k % 64 + 0x8000 ∧
      t.slot k = { s.slot k with reported := true } ∧ ∀ j, j ≠ k → t.slot j = s.slot j := by
  obtain ⟨r, u, hexec, hcause, hplace, hfq, hslots⟩ := execWatchdogExpire_late hrun hp htask hrep hlate
  have hslot : ∀ j, (report r .none u).slot j = if j = k then { s.slot k with reported := true } else s.slot j := fun j => by
    rw [State.slot, report_slots, hslots]
    exact s.slot_modSlot k j _
  have hrec : NextRecord u (report r .none u) r .none := nextRecord_report (hfq ▸ hroom)
  rw [NextRecord, hfq] at hrec
  exact ⟨_, r, (exec_watchdogExpire k s).trans hexec, hrec, hcause, hplace, (hslot k).trans (if_pos rfl),
    fun j hj => (hslot j).trans (if_neg hj)⟩

/-! ### The command in GCMD -/

/-- The command in GCMD has ended for graph g with RESULT r (R368). -/
def GcmdEnded (g r : Nat) (t : State) : Prop := t.tgu.gcmd = none ∧ t.tgu.gcmdst = BitVec.ofNat 64 (g * 256 + r)

theorem endGcmd_ended (g r : Nat) (s : State) : GcmdEnded g r (endGcmd g r s) := ⟨rfl, rfl⟩
@[simp] theorem State.graph?_endGcmd (s : State) (g r j : Nat) : (endGcmd g r s).graph? j = s.graph? j := rfl

theorem gcmdOf_eq_some {w : Word} {op : Nat} {s : State} (hrun : s.pkg.stopped = false) (hw : s.tgu.gcmd = some w)
    (hop : w.toNat / 2 ^ 56 = op) : s.gcmdOf op = some (w.toNat % 64) := by
  have hlt := w.isLt
  have hbits : bits w.toNat 63 56 = op := by
    unfold bits
    omega
  have hid : bits w.toNat 5 0 = w.toNat % 64 := by simp [bits]
  simp [State.gcmdOf, hw, hbits, hid, hrun]

/-! ### LOAD -/

section
variable {g : Nat} {s : State} (hg : s.gcmdOf 1 = some g)
  (hfree : s.graph? g = none ∨ ∃ q, s.graph? g = some q ∧ q.aborted = true)
include hg hfree

/-- LOAD of a sound descriptor, to an id that no graph has but an aborted one, binds it (R368). -/
theorem execLoadG_sound (hsound : s.loadFaults s.staged = []) :
    execLoadG s = .next (endGcmd g 0 (bindGraph g s.staged s)) := by
  rcases hfree with hnone | ⟨q, hq, hab⟩
  · simp [execLoadG, hg, hnone, hsound]
  · simp [execLoadG, hg, hq, hab, hsound]

/-- LOAD of an unsound descriptor ends with one of its findings and reports it (R368, R432). -/
theorem execLoadG_unsound (hbad : s.loadFaults s.staged ≠ []) :
    ∃ f ∈ s.loadFaults s.staged, execLoadG s = .next (endGcmd g f.1
      (report { cause := 0x17, kind := 1, src := 12, info := BitVec.ofNat 64 (f.1 + f.2 % 65536 * 256) } .none s.takeFree.2)) := by
  obtain ⟨f, fs, hf⟩ := List.exists_cons_of_ne_nil hbad
  have hlt : s.takeFree.1.toNat % (fs.length + 1) < (f :: fs).length := Nat.mod_lt _ (Nat.succ_pos _)
  refine ⟨(f :: fs).getD (s.takeFree.1.toNat % (fs.length + 1)) f, ?_, ?_⟩
  · rw [hf, List.getD_eq_getElem?_getD, List.getElem?_eq_getElem hlt, Option.getD_some]
    exact List.getElem_mem hlt
  · rcases hfree with hnone | ⟨q, hq, hab⟩
    · simp [execLoadG, hg, hnone, hf]
    · simp [execLoadG, hg, hq, hab, hf]

theorem loadG_binds (hsound : s.loadFaults s.staged = []) :
    ∃ t, exec .loadG s = .next t ∧ GcmdEnded g 0 t ∧ t.graph? g = some s.staged ∧ (∀ j, j ≠ g → t.graph? j = s.graph? j) ∧
      ∀ p ∈ s.edgesOf s.staged, mget 0 t.tgu.edgeFree (s.staged.edge0 + p.1) = eSlots p.2 :=
  ⟨_, (exec_loadG s).trans (execLoadG_sound hg hfree hsound), endGcmd_ended _ _ _,
    (s.graph?_bindGraph g g _).trans (if_pos rfl), fun j hj => (s.graph?_bindGraph g j _).trans (if_neg hj), fun _ hp => bindGraph_edgeFree s g _ hp⟩

theorem loadG_reports (hbad : s.loadFaults s.staged ≠ []) (hroom : s.fq.full = false) :
    ∃ t e, exec .loadG s = .next t ∧ NextRecord s t e .none ∧ e.cause = 0x17 ∧
      (∃ f ∈ s.loadFaults s.staged, GcmdEnded g f.1 t ∧ e.info = BitVec.ofNat 64 (f.1 + f.2 % 65536 * 256)) ∧
      t.graph? g = s.graph? g := by
  obtain ⟨f, hf, hexec⟩ := execLoadG_unsound hg hfree hbad
  refine ⟨_, _, (exec_loadG s).trans hexec, nextRecord_report (s := s.takeFree.2) hroom, rfl,
    ⟨f, hf, endGcmd_ended _ _ _, rfl⟩, ?_⟩
  rw [State.graph?_endGcmd, State.graph?, report_tgu]
  rfl

end

/-! ### UNLOAD and PUBLISH -/

/-- The state without a graph, its instances and its replays, as UNLOAD leaves it. -/
def unbindGraph (g : Nat) (s : State) : State :=
  { s with tgu := { s.tgu with graphs := merase s.tgu.graphs g, insts := s.tgu.insts.filter (·.2.graph ≠ g),
                               replays := s.tgu.replays.filter (·.graph ≠ g) } }

section
variable {g : Nat} {gr : Graph} {s : State}

/-- UNLOAD of an unbound id (R368). -/
theorem unloadG_unbound (hg : s.gcmdOf 2 = some g) (hnone : s.graph? g = none) :
    ∃ t, exec .unloadG s = .next t ∧ GcmdEnded g 0x20 t :=
  ⟨endGcmd g 0x20 s, by simp [exec_unloadG, execUnloadG, hg, hnone], endGcmd_ended _ _ _⟩

/-- UNLOAD of a graph no launch of which is left takes it away, and no other (R368). -/
theorem unloadG_unbinds (hg : s.gcmdOf 2 = some g) (hgr : s.graph? g = some gr) (hidle : ∀ l ∈ s.tgu.launches, l.graph ≠ g) :
    ∃ t, exec .unloadG s = .next t ∧ GcmdEnded g 0 t ∧ t.graph? g = none ∧ ∀ j, j ≠ g → t.graph? j = s.graph? j := by
  have hany : s.tgu.launches.any (·.graph == g) = false := by simpa using hidle
  have hexec : execUnloadG s = .next (endGcmd g 0 (unbindGraph g s)) := by
    simp [execUnloadG, hg, hgr, hany, unbindGraph]
  exact ⟨_, (exec_unloadG s).trans hexec, endGcmd_ended g 0 _, (lookupN_merase _ g g).trans (if_pos rfl),
    fun j hj => (lookupN_merase _ g j).trans (if_neg hj)⟩

/-- PUBLISH of an unbound id (R368). -/
theorem publishG_unbound (hg : s.gcmdOf 3 = some g) (hnone : s.graph? g = none) :
    ∃ t, exec .publishG s = .next t ∧ GcmdEnded g 0x20 t :=
  ⟨endGcmd g 0x20 s, by simp [exec_publishG, execPublishG, hg, hnone], endGcmd_ended _ _ _⟩

/-- PUBLISH sets the graph's publish request (R321, R368). -/
theorem publishG_requests (hg : s.gcmdOf 3 = some g) (hgr : s.graph? g = some gr) (hmay : s.tguMay 3 = true) :
    ∃ t, exec .publishG s = .next t ∧ GcmdEnded g 0 t ∧ t.graph? g = some { gr with pubreq := true } :=
  ⟨endGcmd g 0 (setGraph g { gr with pubreq := true } (tguDid 3 s)), by simp [exec_publishG, execPublishG, hg, hgr, hmay],
    endGcmd_ended _ _ _, (State.graph?_setGraph _ g g _).trans (if_pos rfl)⟩

end

/-- Settles O20: the commands go by the command in GCMD, of which gcmdOf finds the graph. -/
theorem wakingWatchdogAndGraphCommands : Obligations.WakingWatchdogAndGraphCommands := by
  intro c k g w gr s hrun result
  refine ⟨coreWakeComplete_wakes hrun, watchdogExpire_reports hrun, fun hw hid => ?_⟩
  have hg : ∀ op, w.toNat / 2 ^ 56 = op → s.gcmdOf op = some g := fun op hop => hid ▸ gcmdOf_eq_some hrun hw hop
  exact ⟨fun hop hfree => ⟨loadG_binds (hg 1 hop) hfree, loadG_reports (hg 1 hop) hfree⟩,
    fun hop => unloadG_unbinds (hg 2 hop), fun hop => unloadG_unbound (hg 2 hop),
    fun hop => publishG_requests (hg 3 hop), fun hop => publishG_unbound (hg 3 hop)⟩

end Sys2Proof.Machine
end

