-- ==== Sys2Proof/Proofs/PlaneFormats.lean ====
section
/-! PROOF. The matrix words at issue: an MPLANE whose stream type does not match its weight format (R211, R226). -/

namespace Sys2Proof.Machine

open Sys2Proof.Claim

/-- The cells of a weight hold it plus the offset of its format, so that no plane reads a weight below minus the offset (R211). -/
theorem Plane.neg_wOff_le_weight (p : Plane) (wf row col : Nat) : -wOff wf ≤ p.weight wf row col := by
  unfold Plane.weight
  omega

/-- A plane descriptor (R226): FIRST 0, NMAC 1, WFMT 2 (.MI4), TAG 0. -/
def mi4Desc : Word := 0x4040
/-- 128 runs of 32 elements of type .MI8 from byte 0 of the scratchpad window on, the scales of their blocks from 0x2000 on. -/
def mi8Stream : List Word :=
  [0, 0xB, 0x2000, 1] ++ [32, 128, 1, 1, 1, 1] ++ [0, 32, 0, 0, 0, 0] ++ [0, 0, 0, 0, 0, 0]
/-- An MPLANE that has captured the descriptor of .MI4 planes with the stream of .MI8 elements. -/
def mi8ToMi4 : QEnt := { word := (encode (.mplane 0 1 1)).headD 0, walk := some 0, regs := [mi4Desc], s1 := mi8Stream }
/-- Slot 0 as this word issues: it holds section 0 of its array, nothing stands before the word, and byte 0 of its window is 0x80. -/
def mi8ToMi4AtIssue : State :=
  { pkg := { stopped := false, gated := 0 }
    tgu := { insts := [(0, { st := .running, slots := [0] })] }
    slots := [(0, { task := some 0, st := 1, spwin := 0x00010000, accwin := 0x00100000, asq := { walk := 1 },
                    issuing := some (mi8ToMi4, 1) })]
    cores := [(0, { sp := [(0, 0x80)] })]
    clusters := [(0, { secs := [(0, { holder := some 0 })] })]
    sel := { slot := 0, party := .esq, issue := true } }

theorem mi8ToMi4AtIssue_rowsFree : RowsFree mi8ToMi4AtIssue mi8ToMi4 :=
  ⟨rfl, fun _ h => (nomatch h), rfl, rfl, rfl, rfl, fun _ h => Option.some.inj h ▸ rfl, by decide, rfl, rfl⟩

theorem mi8ToMi4AtIssue_sectionsReady : SectionsReady mi8ToMi4AtIssue 0 (secsOf [0]) := by
  unfold SectionsReady
  decide

/-- The stream meets what R226 asks of it, its number of runs among it, but for its type. -/
theorem mi8Stream_mismatches_only_in_type :
    planeLegal mi4Desc.toNat mi8Stream ∧ sRuns mi8Stream = mdNmac mi4Desc.toNat * wCols (mdWf mi4Desc.toNat) ∧
      sType mi8Stream ≠ 0xB + mdWf mi4Desc.toNat := by
  unfold planeLegal
  decide

/-- The first weight that the stream gives is -128. -/
theorem mi8ToMi4AtIssue_spCode : mi8ToMi4AtIssue.spCode 0 mi8Stream 0 = -128 := by decide

/-- MPLANE cannot leave every weight of its stream in its planes: planes of .MI4 hold nothing below -8, and a stream of .MI8, which
planeLegal lets through, gives -128. -/
theorem not_planesDrainsAndZeroesComplete : ¬ PlanesDrainsAndZeroesComplete := by
  intro h
  obtain ⟨hplane, -, -⟩ := h 0 1 1 0 0 mi8ToMi4 mi8ToMi4AtIssue rfl rfl rfl mi8ToMi4AtIssue_rowsFree
  obtain ⟨v, -, hmacs, -, -⟩ := hplane rfl mi8ToMi4AtIssue_sectionsReady rfl (by decide) mi8Stream_mismatches_only_in_type.1
  obtain ⟨-, -, -, hweight, -⟩ := hmacs 0 (by decide)
  have hstored : (v.mac 0 0).shadow.weight 2 0 0 = -128 := (hweight 0 0 (by decide) (by decide)).trans mi8ToMi4AtIssue_spCode
  have hbound : -8 ≤ (v.mac 0 0).shadow.weight 2 0 0 := Plane.neg_wOff_le_weight _ 2 0 0
  omega

/-- Refutes O50: its part (c) leaves out that the type of an MPLANE's stream matches the weight format (R226, found at take by R428),
and a stream of .MI8 elements for .MI4 planes does not come back from them. -/
theorem not_matrixOperationsBeginAndReport : ¬ Obligations.MatrixOperationsBeginAndReport := by
  unfold Obligations.MatrixOperationsBeginAndReport
  rintro ⟨-, -, hcomplete, -⟩
  exact not_planesDrainsAndZeroesComplete hcomplete

end Sys2Proof.Machine
end

