-- ==== Sys2Proof/Proofs/Encoding.lean ====
section
/-! PROOF. The decoders undo the encoders (R135 to R150, R255, R266): for every instruction, and from it for the words that the
spec writes out. -/

namespace Sys2Proof.Laws.Encode

/-! ### Every instruction -/

/-- Settles O32, by cases on the instruction: the case of each constructor is the lemma of its name, in the order of the opcode
table. -/
theorem everyEncodingIsRecovered : Obligations.EveryEncodingIsRecovered := fun i =>
  i.casesOn (motive := Statement)
    -- A words without access (R146, R147).
    addA subA andA orA xorA sllA srlA sraA sltA sltnA minA maxA minnA maxnA mulA mulhA mulhnA divA divnA remA remnA
    clzA popcA cselA addiA andiA oriA xoriA slliA srliA sraiA sltiA liA lixA
    -- X words on registers (R146, R147).
    addX subX andX orX xorX sllX srlX sraX sltX sltnX minX maxX minnX maxnX mulX mulhX mulhnX divX divnX remX remnX
    clzX popcX cselX addiX andiX oriX xoriX slliX srliX sraiX sltiX liX lixX
    -- A words of memory, streams and buffers (R146).
    lds sts ldg stg stdl qld qldg qst amo cas redw fence srset srget abfree
    -- X words of the queues and the mode (R146).
    qpop qpush xmode
    -- Y words (R146, R336).
    csrr csrw csrs csrc trap utret sret prio tspawn fget fput cutpost cutstop cutget yield tinv halt parampublish
    -- C words (R141, R148).
    br jmp call ret loop brnone bar bara barw barg waitv abwait endW waitc
    -- The hint region (R137).
    hint
    -- V words (R149, R192).
    vshape vadd vsub vmul vfma vfms vmin vmax vabs vneg vdiv vsqrt vrcp vrsq vexp2 vlog2 vand vor vxor vshl vshr
    vcmp minv mpop mget mset vsel vrsum vrmax vrmin vargmax vscan vbcst vmov vxtr vins vperm vslide vcvt vqmx vdqmx
    vpack vunpk vqpop vqpush vaccr vaccw viota
    -- M words (R150, R223).
    mlease mfree mplane mswap mstep mcommit mwaitb mdrain mzero mstat
    -- T words (R150, R244 to R254).
    copy gath scat halo glkick gllink attn pimld pimrun reduce sample wnstep hspawn
    -- Words of a near-bank unit (R266).
    nadd naddi nsub nand nor nshl nshr nli nmul nbnz njmp nloop nact npre nrdw ndot ndotb nwrq nlda nsync ndone
    -- Command words of a gleaner (R255).
    gnest gstrd gbase gbaseAdd gbaseInd gfmt gwaitDrain gwaitGen gpush gpostWord gpostTgu glink glinkInd gloop gflag
    gend
    -- Events and host commands, which have no words.
    notAnInstruction userTrapDeliver engineQueueIssue resultWriteBack accessPerformed waitConditionMet
    homeSliceAtomic pageWalk taskRetire tguDispatch transferOpRetire matrixOpRetire helperEnd waitvReread checkpoint
    launchWrite replayStart pload pactb pstart pgrant prevoke pstat gram initW stepW steprW launchActivate
    replaySettle taskRestore coreWakeComplete tguCounterSignal barrierRelease watchdogExpire tlbEvict tinvComplete
    deliveredCopyOffer leaseGrant sectionRearbitrate recalibrationStart recalibrationEnd ringClaim gleanerPushRetire
    cocfgWrite shapeCsrWrite attnComplete attnAbsentRetry attnAbsentTimeout sampleComplete reduceComplete pimldApply
    pimRunStart pimRunComplete nbuDatapathLand mcsLatencyCut mcsBankRegrant mcsRefresh nbuRevokeTimeout
    nbuStallTimeout patrolScrub hostMemRead hostMemWrite hostSnoop bisnpResponse persistentRequest
    directorySilentDrop discoveryStormHold discoveryStormEnd dlvqWindowStart powerStateEnter powerStateExit
    powerExitComplete coreGate powerLimitWindow supplySag sagEnd supplyCritical clockRestart supplyRetentionLoss
    powerOnBoot firmwareReady getVersion getCapabilities negotiateAlgorithms getDigests getCertificate challenge
    getMeasurements leaseProbe leaseExpire heartbeatPoll flitError linkDown linkRetrained linkDownTimeout
    cxlCacheTimeout hotReset fwload mrextend nopM mailboxCommandDone loadG unloadG publishG stripe unstripe restripe
    requant tinvcmdWrite resumeA requeueA abortA fqheadWrite deadackWrite arrdisWrite savepoolWrite registerWrite

/-! ### Each text by itself -/

section
variable {i : Instr} (hwf : i.wf = true)
include hwf

theorem decodeCore_of_encodeCore {w : W32} (hcore : encodeCore i = some w) : decodeCore w = .ok i := by
  simpa [hcore] using everyEncodingIsRecovered i hwf

theorem decodeNbu_of_encodeNbu {w : W32} (hcore : encodeCore i = none) (hnbu : encodeNbu i = some w) :
    decodeNbu w = .ok i := by
  simpa [hcore, hnbu] using everyEncodingIsRecovered i hwf

theorem decodeGlean_of_encodeGlean {ws : List W32} (hcore : encodeCore i = none) (hnbu : encodeNbu i = none)
    (hglean : encodeGlean i = ws) (hwords : ws ≠ []) : decodeGlean ws = (.ok i, ws.length) := by
  subst hglean
  have hstmt := everyEncodingIsRecovered i hwf
  simp only [hcore, hnbu] at hstmt
  simpa using hstmt.resolve_left hwords []

end

/-! ### The words of the spec -/

/-- Settles O30: each word is the encoding of the well-formed instruction beside it. -/
theorem wordsDecodeAsTheirLayoutsSay : Obligations.WordsDecodeAsTheirLayoutsSay := by
  refine ⟨?_, ?_, ?_, ?_, ?_, ?_, ?_, ?_, ?_, ?_, ?_, ?_, ?_, ?_, ?nact, ?ndotb, ?gnest, ?gloop⟩
  case nact | ndotb => exact decodeNbu_of_encodeNbu rfl rfl rfl
  case gnest | gloop => exact decodeGlean_of_encodeGlean rfl rfl rfl rfl (List.cons_ne_nil _ _)
  all_goals exact decodeCore_of_encodeCore rfl rfl

end Sys2Proof.Laws.Encode
end

