-- ==== Sys2Proof/Proofs/VectorTokens.lean ====
section
/-! PROOF. The vector words that wait for a token: their issue carries the held writes of the operation that posted it (R44, R124,
R129), which the statements about vector words leave out. -/

namespace Sys2Proof.Machine

open Sys2Proof.Claim

/-! ### The words by name -/

theorem exec_vadd (tk : BitVec 4) (d a b : BitVec 5) (v : BitVec 4) (s : State) :
    exec (.vadd tk d a b v) s = execVadd tk d a b v s := rfl
theorem exec_vshape (tk : BitVec 4) (x : BitVec 2) (q : BitVec 1) (r : BitVec 2) (m : BitVec 4) (s : State) :
    exec (.vshape tk x q r m) s = execVshape tk x q r m s := rfl
theorem exec_vsel (tk : BitVec 4) (d a b : BitVec 5) (v : BitVec 4) (s : State) :
    exec (.vsel tk d a b v) s = execVsel tk d a b v s := rfl

/-! ### What the issue of a V word does to the task graph unit -/

@[simp] theorem Slot.tokTake_task (sl : Slot) (e : Nat) (tk : BitVec 4) : (sl.tokTake e tk).task = sl.task := by
  unfold Slot.tokTake
  repeat' split
  all_goals rfl
@[simp] theorem Slot.tokTake_member (sl : Slot) (e : Nat) (tk : BitVec 4) : (sl.tokTake e tk).member = sl.member := by
  unfold Slot.tokTake
  repeat' split
  all_goals rfl

/-- What is carried depends on the writes held for the task alone. -/
theorem carryEnts_tgu_setSlot (k : Nat) (v : Slot) (t scope : Nat) (p : HeldEnt → Bool) (s : State) :
    (carryEnts t scope p (s.setSlot k v)).tgu = (carryEnts t scope p s).tgu := by
  unfold carryEnts
  rw [apply_ite State.tgu, apply_ite State.tgu]
  rfl

/-- What a taken token carries depends on the task and member of the slot, and on nothing else of it. -/
theorem tokCarry_tgu_setSlot {k : Nat} {v : Slot} {s : State} (e : Nat) (tk : BitVec 4) (htask : v.task = (s.slot k).task)
    (hmember : v.member = (s.slot k).member) : (tokCarry k e tk (s.setSlot k v)).tgu = (tokCarry k e tk s).tgu := by
  simp only [tokCarry, carryOps, State.slot_setSlot_self, htask, hmember, apply_ite State.tgu, carryEnts_tgu_setSlot,
    State.setSlot_tgu]

/-- A V word that keeps its slot's task and member leaves the task graph unit as the token it takes does. -/
theorem VOp.perform_tgu {o : VOp} {c : VCtx} {xs : List Word} {k : Nat} {s : State}
    (htask : (o.eff c xs (s.slot k)).2.task = (s.slot k).task) (hmember : (o.eff c xs (s.slot k)).2.member = (s.slot k).member) :
    (o.perform c xs k s).tgu = (tokCarry k 0 o.tk s).tgu := by
  have hcarry := fun res => tokCarry_tgu_setSlot (k := k) (s := s) 0 o.tk
    (v := { (o.eff c xs (s.slot k)).2.tokTake 0 o.tk with results := res })
    ((Slot.tokTake_task _ _ _).trans htask) ((Slot.tokTake_member _ _ _).trans hmember)
  unfold VOp.perform
  dsimp only
  split <;> exact hcarry _

/-- A V word in its issue turn that nothing stops or holds takes effect (R44, R209). -/
theorem runV_issues {o : VOp} {s : State} {e : QEnt} {q : Nat} {c : VCtx} (hissue : s.sel.issue = true)
    (hissuing : s.mySlot.issuing = some (e, q)) (hc : vCtx s.mySlot.shape s.mySlot.exposed (o.var.getD 0) = c)
    (hgood : o.issueBad c s = none) (hready : o.ready s e.id = true) (hfree : (o.lat c).2 = 1)
    (htok : s.mySlot.tokReady 0 o.tk = true) :
    runV o s = .next (progress s.sel.slot ((o.perform c e.regs s.sel.slot s).modSlot s.sel.slot fun sl =>
      { sl with issuing := none })) := by
  unfold State.mySlot at *
  unfold runV
  simp only [hissue, if_true, hissuing, hc, hgood, hready, hfree, htok]
  rfl

/-- A word's result in flight, with the tokens taken in its slot, leaves the task graph unit as it is. -/
theorem flown_tgu (s : State) (r : VRow) (res : Res) (sl' : Slot) : (flown s r res sl').tgu = s.tgu := by
  unfold flown
  dsimp only
  split <;> rfl

/-! ### A V word that observes a transfer -/

/-- W with partner TA (R43): the word waits for a token from the TA queue. -/
def waitsForTa : BitVec 4 := 0b1010
/-- A transfer of the TA queue, posting a token to V as it retires. -/
def postsToV : Origin := { queue := 2, tok := 0b0101 }
/-- Slot 0 of a guarded task as a V word issues: the transfer has retired, its held write has been carried to no agent yet, and its
token waits. -/
def observing : State :=
  { pkg := { stopped := false, gated := 0 }
    tgu := { insts := [(0, { st := .running, slots := [0], guarded := true
                             ents := [{ w := .bytes 0 [1], op := some postsToV, done := true }] })] }
    slots := [(0, { task := some 0, st := 1, tokens := [(8, 1)], issuing := some ({}, 0) })]
    sel := { slot := 0, party := .esq, issue := true } }

/-- As it takes the token the word carries the write of the transfer to every agent (R124). -/
theorem observing_carries : (tokCarry 0 0 waitsForTa observing).tgu ≠ observing.tgu := by decide

/-- A V word of the model that waits for the token changes the task graph unit. -/
theorem runV_observing {o : VOp} {c : VCtx} (htk : o.tk = waitsForTa)
    (hc : vCtx observing.mySlot.shape observing.mySlot.exposed (o.var.getD 0) = c) (hgood : o.issueBad c observing = none)
    (hready : o.ready observing 0 = true) (hfree : (o.lat c).2 = 1)
    (htask : ∀ sl, (o.eff c [] sl).2.task = sl.task) (hmember : ∀ sl, (o.eff c [] sl).2.member = sl.member) :
    ∃ t, runV o observing = .next t ∧ t.tgu ≠ observing.tgu := by
  have hperform : (o.perform c [] 0 observing).tgu = (tokCarry 0 0 waitsForTa observing).tgu :=
    htk ▸ VOp.perform_tgu (htask _) (hmember _)
  have hrun := runV_issues (e := {}) (q := 0) rfl rfl hc hgood hready hfree (htk ▸ by decide)
  exact ⟨_, hrun, fun h => observing_carries (hperform.symm.trans h)⟩

/-- No word whose token carries the write runs there as Runs has it, which puts the result in flight and changes nothing of the
task graph unit. -/
theorem not_runs_observing {r : VRow} {E : VCtx → List Word → Res → Slot → Prop} (hvar : r.v ≠ some 0xF)
    (hfits : r.fits (contextOf observing.mySlot r) = true) (htk : r.tk = waitsForTa)
    (hfree : r.ivl (contextOf observing.mySlot r) = 1)
    (hcarries : ∃ t, exec r.i observing = .next t ∧ t.tgu ≠ observing.tgu) : ¬ Runs observing r (fun _ => True) E := by
  intro hruns
  obtain ⟨hissue, -⟩ := hruns hvar hfits (htk ▸ by decide) (.inl hfree)
  obtain ⟨res, sl', -, hflown⟩ := hissue rfl {} 0 rfl trivial
  obtain ⟨t, hexec, htgu⟩ := hcarries
  cases Host.Outcome.next.inj (hexec.symm.trans hflown)
  exact htgu (flown_tgu observing r res sl')

/-- Refutes O7: a VADD that waits for a token carries the held writes of the operation that posted it, so that more changes than its
result in flight (R44, R124). -/
theorem not_mergingVectorWords : ¬ Obligations.MergingVectorWords := by
  unfold Obligations.MergingVectorWords
  intro h
  have hvadd : ∃ t, exec (.vadd waitsForTa 0 0 0 1) observing = .next t ∧ t.tgu ≠ observing.tgu := by
    rw [exec_vadd, execVadd, vBin]
    exact runV_observing rfl rfl rfl rfl rfl (fun _ => rfl) fun _ => rfl
  exact not_runs_observing (by decide) rfl rfl rfl hvadd (h waitsForTa 1 0 0 0 observing _ (.head _))

/-- Refutes O8: so does a VSHAPE, whose effect is said to be that on SHAPE alone (R44, R124, R190). -/
theorem not_maskQueueAndAccumulatorWords : ¬ Obligations.MaskQueueAndAccumulatorWords := by
  unfold Obligations.MaskQueueAndAccumulatorWords
  intro h
  have hvshape : ∃ t, exec (.vshape waitsForTa 0 0 0 0) observing = .next t ∧ t.tgu ≠ observing.tgu :=
    exec_vshape .. ▸ runV_observing rfl rfl rfl rfl rfl (fun _ => rfl) fun _ => rfl
  obtain ⟨hruns, -⟩ := h waitsForTa 0 0 0 0 0 0 0 0 0 0 0 0 [] observing
  exact not_runs_observing (by decide) rfl rfl rfl hvshape hruns

/-- So does a VSEL, which writes all of vd (R44, R124, R202). -/
theorem not_wholeRegisterVectorWords : ¬ WholeRegisterVectorWords := by
  intro h
  have hvsel : ∃ t, exec (.vsel waitsForTa 0 0 0 1) observing = .next t ∧ t.tgu ≠ observing.tgu :=
    exec_vsel .. ▸ runV_observing rfl rfl rfl rfl rfl (fun _ => rfl) fun _ => rfl
  exact not_runs_observing (by decide) rfl rfl rfl hvsel (h waitsForTa 1 0 0 0 observing _ (.head _))

/-- Refutes O48: its part (a) leaves out what a word's token carries (R44, R124). -/
theorem not_plainVectorWords : ¬ Obligations.PlainVectorWords := by
  unfold Obligations.PlainVectorWords
  rintro ⟨hwhole, -⟩
  exact not_wholeRegisterVectorWords hwhole

end Sys2Proof.Machine
end

