-- ==== Sys2Proof/Proofs/LeaseTokens.lean ====
section
/-! PROOF. The matrix words that wait for a token and retire as they issue: their issue carries the held writes of the operation that
posted it (R44, R124, R129). -/

namespace Sys2Proof.Machine

open Sys2Proof.Claim

theorem exec_mlease (tk m : BitVec 4) (s : State) : exec (.mlease tk m) s = execMlease tk m s := rfl

/-- What a taken token carries is kept in the task graph unit alone. -/
theorem tokCarry_frame (k e : Nat) (tk : BitVec 4) (s : State) : ∃ g, tokCarry k e tk s = { s with tgu := g } := by
  unfold tokCarry carryOps carryEnts
  split
  · dsimp only
    split <;> exact ⟨_, rfl⟩
  · exact ⟨_, rfl⟩

theorem heldSecs_tokCarry_modSlot (k e : Nat) (tk : BitVec 4) (f : Slot → Slot) (s : State) (j : Nat) :
    heldSecs (tokCarry k e tk (s.modSlot k f)) j = heldSecs s j := by
  obtain ⟨g, h⟩ := tokCarry_frame k e tk (s.modSlot k f)
  rw [h]
  rfl

theorem cluster_tokCarry_modSlot (k e : Nat) (tk : BitVec 4) (f : Slot → Slot) (s : State) (j : Nat) :
    (tokCarry k e tk (s.modSlot k f)).cluster j = s.cluster j := by
  obtain ⟨g, h⟩ := tokCarry_frame k e tk (s.modSlot k f)
  rw [h]
  rfl

theorem tokCarry_sel_modSlot (k e : Nat) (tk : BitVec 4) (f : Slot → Slot) (s : State) :
    (tokCarry k e tk (s.modSlot k f)).sel = s.sel := by
  obtain ⟨g, h⟩ := tokCarry_frame k e tk (s.modSlot k f)
  rw [h]
  rfl

/-- The state in which a matrix word of slot k takes effect: it has left its queue, its token is taken, and what the token carries
is carried (R44, R124). -/
def matrixIssued (k : Nat) (tk : BitVec 4) (s : State) : State :=
  tokCarry k 1 tk (s.modSlot k fun sl => { sl.tokTake 1 tk with issuing := none })

/-- An MLEASE of enabled sections that the slot holds takes its token, with what it carries, and retires (R44, R124, R225). -/
theorem execMlease_held {tk m : BitVec 4} {e : QEnt} {q : Nat} {s : State} (hissue : s.sel.issue = true)
    (hissuing : s.mySlot.issuing = some (e, q)) (htok : s.mySlot.tokReady 1 tk = true)
    (hon : (s.cluster (clusterOf s.sel.slot)).arrdis &&& m = 0) (hheld : m &&& ~~~heldSecs s s.sel.slot = 0) :
    execMlease tk m s = .next (progress s.sel.slot
      ((matrixIssued s.sel.slot tk s).modSlot s.sel.slot fun sl => sl.tokGive 1 tk)) := by
  unfold State.mySlot at hissuing htok
  unfold execMlease runM issueWord
  simp only [hissue, if_true, hissuing, htok, Bool.not_true, Bool.false_eq_true, if_false, secOff, tokCarry_sel_modSlot,
    cluster_tokCarry_modSlot, heldSecs_tokCarry_modSlot, hon, hheld, mDone, matrixIssued]

/-- That MLEASE leaves the task graph unit as the token it takes does. -/
theorem execMlease_held_tgu {tk m : BitVec 4} {e : QEnt} {q : Nat} {s : State} (hissue : s.sel.issue = true)
    (hissuing : s.mySlot.issuing = some (e, q)) (htok : s.mySlot.tokReady 1 tk = true)
    (hon : (s.cluster (clusterOf s.sel.slot)).arrdis &&& m = 0) (hheld : m &&& ~~~heldSecs s s.sel.slot = 0) :
    ∃ t, execMlease tk m s = .next t ∧ t.tgu = (tokCarry s.sel.slot 1 tk s).tgu :=
  ⟨_, execMlease_held hissue hissuing htok hon hheld,
    tokCarry_tgu_setSlot 1 tk (Slot.tokTake_task _ _ _) (Slot.tokTake_member _ _ _)⟩

/-! ### An MLEASE that observes a transfer -/

/-- A transfer of the TA queue, posting a token to M as it retires (R43). -/
def postsToM : Origin := { queue := 2, tok := 0b0110 }
/-- Slot 0 of a guarded task as an M word issues: it holds section 0 of its array, the transfer has retired, its held write has been
carried to no agent yet, and its token waits. -/
def leaseObserving : State :=
  { pkg := { stopped := false, gated := 0 }
    tgu := { insts := [(0, { st := .running, slots := [0], guarded := true
                             ents := [{ w := .bytes 0 [1], op := some postsToM, done := true }] })] }
    slots := [(0, { task := some 0, st := 1, tokens := [(9, 1)],
                    issuing := some ({ word := (encode (.mlease waitsForTa 1)).headD 0 }, 1) })]
    clusters := [(0, { secs := [(0, { holder := some 0 })] })]
    sel := { slot := 0, party := .esq, issue := true } }

/-- As it takes the token the word carries the write of the transfer to every agent (R124). -/
theorem leaseObserving_carries : (tokCarry 0 1 waitsForTa leaseObserving).tgu ≠ leaseObserving.tgu := by decide

/-- Refutes O10: the MLEASE of a section that the slot holds, which waits for a token, carries the held writes of the operation that
posted it, so that more changes than its slot's tokens and progress (R44, R124, R225). -/
theorem not_leasesSwapsAndCommits : ¬ Obligations.LeasesSwapsAndCommits := by
  unfold Obligations.LeasesSwapsAndCommits
  intro h
  obtain ⟨hlease, -⟩ := h waitsForTa 1 0 0 0 0 0 _ leaseObserving rfl rfl rfl
  obtain ⟨t, hexec, htgu⟩ := execMlease_held_tgu (tk := waitsForTa) (m := 1) (s := leaseObserving) rfl rfl rfl rfl rfl
  have hclaimed := (exec_mlease waitsForTa 1 leaseObserving).symm.trans (hlease rfl rfl)
  cases Host.Outcome.next.inj (hexec.symm.trans hclaimed)
  exact leaseObserving_carries htgu.symm

end Sys2Proof.Machine
end

