-- ==== Sys2Proof/Proofs/Sections.lean ====
section
/-! PROOF SUPPORT. The sections of an array: what a change of one leaves alone, the sections of a mask, and what the grant of a request
does (R216, R468). -/

namespace Sys2Proof.Machine

/-! ### A change of one section -/

theorem State.sec_setSec (s : State) (cl i j : Nat) (v : Section) :
    (setSec cl i v s).sec cl j = if j = i then v else s.sec cl j := by
  simp [State.sec, setSec, mget_mset]

@[simp] theorem State.sec_setSec_self (s : State) (cl i : Nat) (v : Section) : (setSec cl i v s).sec cl i = v := by
  simp [State.sec_setSec]

@[simp] theorem setSec_slots (cl i : Nat) (v : Section) (s : State) : (setSec cl i v s).slots = s.slots := rfl

@[simp] theorem setSec_reqs (cl i : Nat) (v : Section) (s : State) : ((setSec cl i v s).cluster cl).reqs = (s.cluster cl).reqs := by
  simp [setSec]

@[simp] theorem setSec_arrdis (cl i : Nat) (v : Section) (s : State) :
    ((setSec cl i v s).cluster cl).arrdis = (s.cluster cl).arrdis := by
  simp [setSec]

/-! ### The sections of a mask -/

theorem mem_secsWith {m : BitVec 4} {p : Nat → Bool} {i : Nat} :
    i ∈ secsWith m p ↔ i < 4 ∧ m.getLsbD i = true ∧ p i = true := by
  simp [secsWith]

theorem nodup_secsWith (m : BitVec 4) (p : Nat → Bool) : (secsWith m p).Nodup := List.nodup_range.filter _

theorem secsWith_eq_nil {m : BitVec 4} {p : Nat → Bool} :
    secsWith m p = [] ↔ ∀ i, i < 4 → m.getLsbD i = true → p i = false := by
  simp [secsWith]

@[simp] theorem secsWith_zero (p : Nat → Bool) : secsWith 0#4 p = [] :=
  secsWith_eq_nil.mpr fun i _ h => by simp at h

/-- Sections that each change by themselves. -/
theorem sec_foldl_setSec (cl : Nat) (f : Section → Section) (l : List Nat) (hl : l.Nodup) (s : State) (j : Nat) :
    (l.foldl (fun s i => setSec cl i (f (s.sec cl i)) s) s).sec cl j = if j ∈ l then f (s.sec cl j) else s.sec cl j := by
  induction l generalizing s with
  | nil => simp
  | cons i l ih =>
    obtain ⟨hi, hl⟩ := List.nodup_cons.mp hl
    rw [List.foldl_cons, ih hl, State.sec_setSec]
    by_cases hj : j = i
    · subst hj
      simp [hi]
    · simp [hj]

/-- Requests and slots stay as they are while sections change. -/
theorem foldl_setSec_frame (cl : Nat) (f : Section → Section) (l : List Nat) (s : State) :
    ((l.foldl (fun s i => setSec cl i (f (s.sec cl i)) s) s).cluster cl).reqs = (s.cluster cl).reqs ∧
      (l.foldl (fun s i => setSec cl i (f (s.sec cl i)) s) s).slots = s.slots :=
  foldl_keeps (fun t => (t.cluster cl).reqs = (s.cluster cl).reqs ∧ t.slots = s.slots) _
    (fun t i ⟨hreqs, hslots⟩ => ⟨(setSec_reqs cl i _ t).trans hreqs, hslots⟩) l s ⟨rfl, rfl⟩

/-! ### The grant of a request -/

/-- A request for enabled and free sections can be granted. -/
theorem State.grantable_of_free {s : State} {cl : Nat} {m : BitVec 4}
    (h : ∀ j, j < 4 → m.getLsbD j = true → (s.cluster cl).arrdis.getLsbD j = false ∧ (s.sec cl j).holder = none) :
    s.grantable cl m 0 = true := by
  have hon : m &&& (s.cluster cl).arrdis = 0 := by
    refine BitVec.eq_of_getLsbD_eq fun j hj => ?_
    cases hm : m.getLsbD j
    · simp [hm]
    · simp [(h j hj hm).1]
  have hfree : secsWith m (fun i => !(0 : BitVec 4).getLsbD i && (s.sec cl i).holder.isSome) = [] :=
    secsWith_eq_nil.mpr fun j hj hm => by simp [(h j hj hm).2]
  rw [State.grantable, hon, hfree]
  rfl

variable (cl k : Nat) (m : BitVec 4) (s : State)

/-- A granted section is the requester's, with no use counted. -/
theorem grantSecs_sec {j : Nat} (hj : j < 4) :
    (grantSecs cl k m s).sec cl j
      = if m.getLsbD j then { s.sec cl j with holder := some k, uses := 0, pass := false } else s.sec cl j := by
  refine (sec_foldl_setSec cl (fun v => { v with holder := some k, uses := 0, pass := false }) _ (nodup_secsWith m _) _ j).trans ?_
  simp [State.sec, mem_secsWith, hj]

/-- The requester waits no longer. -/
theorem grantSecs_reqs : ((grantSecs cl k m s).cluster cl).reqs = (s.cluster cl).reqs.filter (·.1 ≠ k) := by
  refine (foldl_setSec_frame cl (fun v => { v with holder := some k, uses := 0, pass := false }) _ _).1.trans ?_
  simp

/-- No slot but the requester's changes. -/
theorem grantSecs_slot_ne {j : Nat} (h : j ≠ k) : (grantSecs cl k m s).slot j = s.slot j := by
  unfold grantSecs
  dsimp only
  rw [State.slot_modSlot, if_neg h, State.slot,
    (foldl_setSec_frame cl (fun v => { v with holder := some k, uses := 0, pass := false }) _ _).2]
  rfl

end Sys2Proof.Machine
end

