-- ==== Sys2Proof/Proofs/MatrixEvents.lean ====
section
/-! PROOF. The row turns and the retirement of M words, and the grants, re-arbitrations and recalibrations of the sections (R216, R217,
R219, R221, R234, R468). -/

namespace Sys2Proof.Machine

/-! ### The events by name -/

theorem exec_matrixOpRetire (k id : Nat) (s : State) : exec (.matrixOpRetire k id) s = execMatrixOpRetire k id s := rfl
theorem exec_leaseGrant (cl i : Nat) (s : State) : exec (.leaseGrant cl i) s = execLeaseGrant cl i s := rfl
theorem exec_sectionRearbitrate (cl i : Nat) (s : State) :
    exec (.sectionRearbitrate cl i) s = execSectionRearbitrate cl i s := rfl
theorem exec_recalibrationStart (cl i : Nat) (s : State) :
    exec (.recalibrationStart cl i) s = execRecalibrationStart cl i s := rfl
theorem exec_recalibrationEnd (cl i : Nat) (good : Bool) (bad : List Nat) (s : State) :
    exec (.recalibrationEnd cl i good bad) s = execRecalibrationEnd cl i good bad s := rfl

/-! ### A row of zeroes -/

/-- Writing zeroes to entries of an accumulator row writes the store of its core. -/
theorem foldl_setAcc_zero_acc (k r : Nat) (l : List Nat) (s : State) :
    ((l.foldl (fun s e => setAcc k r e 0 s) s).core (coreOf k)).acc
      = l.foldl (fun m e => mset 0 m (((s.slot k).accBase + r) * 64 + e) 0) (s.core (coreOf k)).acc := by
  induction l generalizing s with
  | nil => rfl
  | cons e l ih =>
    rw [List.foldl_cons, ih, List.foldl_cons]
    simp [setAcc, State.modCore]

/-- Writing zeroes to an accumulator row changes no slot and no byte of memory. -/
theorem foldl_setAcc_zero_frame (k r : Nat) (l : List Nat) (s : State) :
    (l.foldl (fun s e => setAcc k r e 0 s) s).slots = s.slots ∧ (l.foldl (fun s e => setAcc k r e 0 s) s).mem = s.mem :=
  foldl_keeps (fun t => t.slots = s.slots ∧ t.mem = s.mem) (fun s e => setAcc k r e 0 s) (fun _ _ ht => ht) l s ⟨rfl, rfl⟩

/-- The accumulator store of the core after the row is zeroed. -/
theorem zeroRow_acc (k r : Nat) (s : State) :
    ((zeroRow k r s).core (coreOf k)).acc
      = (List.range 64).foldl (fun m e => mset 0 m (((s.slot k).accBase + r) * 64 + e) 0) (s.core (coreOf k)).acc := by
  rw [zeroRow, dirtyRow, State.modSlot, State.core_setSlot, foldl_setAcc_zero_acc]

theorem zeroRow_acc_row (k r : Nat) (s : State) {e : Nat} (he : e < 64) :
    mget 0 ((zeroRow k r s).core (coreOf k)).acc (64 * ((s.slot k).accBase + r) + e) = 0 := by
  rw [zeroRow_acc, Nat.mul_comm 64]
  refine mget_foldl_mset 0 (((s.slot k).accBase + r) * 64 + ·) (fun _ => 0) _ _ ?_ (List.mem_range.mpr he)
  exact List.Pairwise.map _ (fun _ _ hne h => hne (Nat.add_left_cancel h)) List.nodup_range

theorem zeroRow_acc_other (k r : Nat) (s : State) {e : Nat}
    (he : e < 64 * ((s.slot k).accBase + r) ∨ 64 * ((s.slot k).accBase + r) + 64 ≤ e) :
    mget 0 ((zeroRow k r s).core (coreOf k)).acc e = mget 0 (s.core (coreOf k)).acc e := by
  rw [zeroRow_acc]
  refine mget_foldl_mset_ne 0 (((s.slot k).accBase + r) * 64 + ·) (fun _ => 0) _ _ _ fun x hx => ?_
  have := List.mem_range.mp hx
  omega

theorem zeroRow_mops (k r : Nat) (s : State) : ((zeroRow k r s).slot k).mops = (s.slot k).mops := by
  unfold zeroRow dirtyRow
  rw [State.slot_modSlot_self, State.slot, (foldl_setAcc_zero_frame k r (List.range 64) s).1]
  rfl

theorem zeroRow_mem (k r : Nat) (s : State) : (zeroRow k r s).mem = s.mem := by
  rw [zeroRow, dirtyRow, State.modSlot, State.setSlot_mem, (foldl_setAcc_zero_frame k r (List.range 64) s).2]

/-! ### The row turn of an MZERO -/

/-- The word in flight after one more of its rows. -/
def MOp.rowDone (o : MOp) : MOp := { o with cursor := o.cursor + 1, forced := false, resumed := false }

/-- The end of a row turn: the word has done one more row, and with its last its intervals leave the checker. -/
def endRow (k : Nat) (o : MOp) (s : State) : State :=
  if o.cursor + 1 = o.rows then dropIvals k o.id (setMop k o.rowDone s) else setMop k o.rowDone s

theorem endRow_core (k : Nat) (o : MOp) (s : State) (j : Nat) : (endRow k o s).core j = s.core j := by
  unfold endRow
  split <;> rfl

theorem endRow_mem (k : Nat) (o : MOp) (s : State) : (endRow k o s).mem = s.mem := by
  unfold endRow
  split <;> rfl

theorem endRow_mops {k : Nat} {o : MOp} {s : State} (h : (s.slot k).mops = [o]) : ((endRow k o s).slot k).mops = [o.rowDone] := by
  unfold endRow dropIvals setMop
  split <;> simp [h, MOp.rowDone]

/-- An MZERO uses no plane of the array (R234). -/
theorem MOp.macs_mzero {o : MOp} {tk : BitVec 4} {z : BitVec 9} {row : BitVec 11} (h : decodeCore o.org.word = .ok (.mzero tk z row)) :
    o.macs = [] := by
  simp [MOp.macs, mMacs, h]

/-- The turn of an MZERO that nothing holds back zeroes its next row (R219, R234). -/
theorem mrow_mzero {k : Nat} {o : MOp} {tk : BitVec 4} {z : BitVec 9} {row : BitVec 11} {s : State} (hmops : (s.slot k).mops = [o])
    (hparked : o.parked = false) (hrows : o.cursor < o.rows) (hready : (s.slot k).mopReady o = true)
    (hword : decodeCore o.org.word = .ok (.mzero tk z row)) (hrestored : o.restored = false) (hst : (s.slot k).st ≠ 5)
    (hrun : s.pkg.stopped = false) : mrow k o.id none s = endRow k o (zeroRow k (row.toNat + o.cursor) s) := by
  have hmacs : secsOf o.macs = 0 := by
    rw [MOp.macs_mzero hword]
    rfl
  have hfind : (s.slot k).mops.find? (·.id == o.id) = some o := by simp [hmops]
  have hleft : decide (o.rows ≤ o.cursor) = false := decide_eq_false (Nat.not_le.mpr hrows)
  have hrunning : ((s.slot k).st == 5) = false := beq_false_of_ne hst
  unfold mrow
  simp only [hfind, hparked, hleft, hready, hmacs, hword, hrestored, hrun, hrunning]
  simp [hparked, hrestored, endRow, MOp.rowDone]

/-! ### The retirement of an M word -/

/-- The words in flight and the open batches of every slot are those of s, and no walk has stopped the step since. -/
def SameMatrixWork (s t : State) : Prop :=
  (∀ j, (t.slot j).mops = (s.slot j).mops ∧ (t.slot j).batches = (s.slot j).batches) ∧ t.walkStop = s.walkStop

theorem SameMatrixWork.trans {s t u : State} (h : SameMatrixWork s t) (h' : SameMatrixWork t u) : SameMatrixWork s u := by
  obtain ⟨hslot, hwalk⟩ := h
  obtain ⟨hslot', hwalk'⟩ := h'
  refine ⟨fun j => ?_, hwalk'.trans hwalk⟩
  obtain ⟨hmops, hbatches⟩ := hslot' j
  rw [hmops, hbatches]
  exact hslot j

theorem sameMatrixWork_of_slots {s t : State} (hslots : t.slots = s.slots) (hwalk : t.walkStop = s.walkStop) :
    SameMatrixWork s t :=
  ⟨fun j => by simp [State.slot, hslots], hwalk⟩

theorem sameMatrixWork_modSlot (s : State) (k : Nat) {f : Slot → Slot}
    (hf : (f (s.slot k)).mops = (s.slot k).mops ∧ (f (s.slot k)).batches = (s.slot k).batches) :
    SameMatrixWork s (s.modSlot k f) := by
  refine ⟨fun j => ?_, rfl⟩
  rw [State.slot_modSlot]
  by_cases hj : j = k
  · subst hj
    simpa using hf
  · simp [hj]

theorem Slot.tokGive_matrixWork (sl : Slot) (e : Nat) (tk : BitVec 4) :
    (sl.tokGive e tk).mops = sl.mops ∧ (sl.tokGive e tk).batches = sl.batches := by
  unfold Slot.tokGive
  repeat' split
  all_goals exact ⟨rfl, rfl⟩

theorem postToken_sameMatrixWork (o : Origin) (s : State) : SameMatrixWork s (postToken o s) := by
  unfold postToken
  split
  · exact sameMatrixWork_modSlot s _ (Slot.tokGive_matrixWork _ _ _)
  · repeat' split
    all_goals exact sameMatrixWork_of_slots rfl rfl

theorem endEnts_sameMatrixWork (o : Origin) (s : State) : SameMatrixWork s (endEnts o s) := by
  unfold endEnts
  dsimp only
  split <;> exact sameMatrixWork_of_slots rfl rfl

/-- An operation without a signal retires without a change of the words in flight (R44, R240). -/
theorem retireOp_sameMatrixWork {o : Origin} (src : Nat) (never : Bool) (s : State) (h : o.sbit = false) :
    SameMatrixWork s (retireOp o src never s) := by
  have hsignal : signal o src never s = s := by simp [signal, h]
  have hends := (postToken_sameMatrixWork o s).trans (endEnts_sameMatrixWork o _)
  unfold retireOp
  rw [hsignal]
  dsimp only
  split
  · exact hends.trans (sameMatrixWork_modSlot _ _ ⟨rfl, rfl⟩)
  · exact hends

/-- Where no batch is committed none completes. -/
theorem endBatches_none {k : Nat} {s : State} (h : (s.slot k).batches = []) (n : Nat) : endBatches k n s = s := by
  cases n with
  | zero => rfl
  | succ n => simp [endBatches, h]

/-- The only word of a slot, its rows done, retires (R220, R221). -/
theorem matrixOpRetire_retires {k : Nat} {o : MOp} {s : State} (hmops : (s.slot k).mops = [o]) (hrows : o.cursor = o.rows)
    (hsbit : o.org.sbit = false) (hbatches : (s.slot k).batches = []) (hwalk : s.walkStop = none) :
    ∃ t, exec (.matrixOpRetire k o.id) s = .next t ∧ (t.slot k).mops = [] ∧ (t.slot k).batches = [] := by
  obtain ⟨hsame, hwalk'⟩ := retireOp_sameMatrixWork 4 false (s.setSlot k { s.slot k with mops := [] }) hsbit
  obtain ⟨hnone, hclosed⟩ := hsame k
  rw [State.slot_setSlot_self] at hnone hclosed
  have hfind : (s.slot k).mops.find? (fun q => q.id == o.id && q.cursor == q.rows) = some o := by simp [hmops, hrows]
  have hleft : (s.slot k).mops.filter (·.id ≠ o.id) = [] := by simp [hmops]
  refine ⟨_, ?_, hnone, hclosed.trans hbatches⟩
  rw [exec_matrixOpRetire, execMatrixOpRetire]
  simp only [hfind, hleft]
  rw [endBatches_none (hclosed.trans hbatches), putOff_next (hwalk'.trans hwalk)]

/-! ### Grants and re-arbitration -/

/-- A request for enabled and free sections is granted whole (R216, R468). -/
theorem leaseGrant_grants {cl i k : Nat} {m : BitVec 4} {s : State} (hreq : (s.cluster cl).reqs[i]? = some (k, m))
    (hfree : ∀ j, j < 4 → m.getLsbD j = true → (s.cluster cl).arrdis.getLsbD j = false ∧ (s.sec cl j).holder = none) :
    ∃ t, exec (.leaseGrant cl i) s = .next t ∧ (∀ r ∈ (t.cluster cl).reqs, r.1 ≠ k) ∧
      ∀ j, j < 4 → t.sec cl j
        = if m.getLsbD j then { s.sec cl j with holder := some k, uses := 0, pass := false } else s.sec cl j := by
  refine ⟨grantSecs cl k m s, ?_, ?_, fun j hj => grantSecs_sec cl k m s hj⟩
  · simp only [exec_leaseGrant, execLeaseGrant, hreq, State.grantable_of_free hfree, if_true]
  · rw [grantSecs_reqs]
    intro r hr
    simpa using (List.mem_filter.mp hr).2

section
variable {cl i h : Nat} {s : State} (hholder : (s.sec cl i).holder = some h) (hspent : (s.sec cl i).spent = true)
  (hrecal : (s.sec cl i).recal = false) (hbusy : s.secBusy h i = false)
include hholder hspent hrecal hbusy

/-- Spent uses without another request start again (R216). -/
theorem sectionRearbitrate_goes_on (hreqs : ∀ r ∈ (s.cluster cl).reqs, r.1 = h) :
    ∃ t, exec (.sectionRearbitrate cl i) s = .next t ∧ t.sec cl i = { s.sec cl i with uses := 0 } ∧ t.slots = s.slots := by
  have hrivals : (s.cluster cl).reqs.filter (fun r => r.1 ≠ h ∧ r.2.getLsbD i) = [] :=
    List.filter_eq_nil_iff.mpr fun r hr => by simp [hreqs r hr]
  have hpass : (s.sec cl i).pass = false := by
    simp only [Section.spent, Bool.and_eq_true, Bool.not_eq_true'] at hspent
    exact hspent.2
  refine ⟨setSec cl i { s.sec cl i with uses := 0, pass := false } s, ?_, ?_, rfl⟩
  · simp only [exec_sectionRearbitrate, execSectionRearbitrate, hholder, hspent, hrecal, hbusy, hrivals]
    rfl
  · rw [State.sec_setSec_self, ← hpass]

/-- A request that the holder's sections at this point can fill, and that comes before the holder's next, takes them (R216). -/
theorem sectionRearbitrate_passes {k : Nat} {m : BitVec 4} (hreqs : (s.cluster cl).reqs = [(k, m)]) (hk : k ≠ h)
    (hm : m.getLsbD i = true) (hgrant : s.grantable cl m (s.atPoint cl h) = true)
    (hfirst : (s.nextUses h i && s.reqFirst cl h k) = false) :
    ∃ t, exec (.sectionRearbitrate cl i) s = .next t ∧ (t.cluster cl).reqs = [] ∧
      ((t.slot h).lostSecs).getLsbD i = ((s.atPoint cl h).getLsbD i || (s.slot h).lostSecs.getLsbD i) ∧
      ∀ j, j < 4 → m.getLsbD j = true →
        t.sec cl j = { s.sec cl j with holder := some k, uses := 0, pass := false } := by
  refine ⟨(grantSecs cl k m s).modSlot h fun sl => { sl with lostSecs := sl.lostSecs ||| (m &&& s.atPoint cl h) }, ?_, ?_, ?_,
    fun j hj hmj => ?_⟩
  · have hrivals : (s.cluster cl).reqs.filter (fun r => r.1 ≠ h ∧ r.2.getLsbD i) = [(k, m)] := by simp [hreqs, hk, hm]
    have hfilled : [(k, m)].filter (fun r => s.grantable cl r.2 (s.atPoint cl h)) = [(k, m)] := by simp [hgrant]
    simp only [exec_sectionRearbitrate, execSectionRearbitrate, hholder, hspent, hrecal, hbusy, hrivals, hfilled,
      List.foldl_nil, hfirst]
    rfl
  · refine (grantSecs_reqs cl k m s).trans ?_
    simp [hreqs]
  · rw [State.slot_modSlot_self, grantSecs_slot_ne cl k m s hk.symm]
    simp [hm, Bool.or_comm]
  · exact (grantSecs_sec cl k m s hj).trans (if_pos hmj)

end

/-! ### Recalibration -/

/-- Recalibration begins in an enabled section that no slot holds (R217). -/
theorem recalibrationStart_begins {cl i : Nat} {s : State} (hcl : cl < 4) (hi : i < 4) (hrecal : (s.sec cl i).recal = false)
    (hon : (s.cluster cl).arrdis.getLsbD i = false) (hfree : (s.sec cl i).holder = none) :
    ∃ t, exec (.recalibrationStart cl i) s = .next t ∧ t.sec cl i = { s.sec cl i with recal := true } ∧ t.slots = s.slots := by
  refine ⟨setSec cl i { s.sec cl i with recal := true } s, ?_, State.sec_setSec_self _ _ _ _, rfl⟩
  simp only [exec_recalibrationStart, execRecalibrationStart, decide_eq_false (Nat.not_le.mpr hcl),
    decide_eq_false (Nat.not_le.mpr hi), hrecal, hon, hfree]
  rfl

/-- A report changes no section and no other part of a cluster. -/
theorem cluster_arrayRecord (unit reason : Nat) (s : State) (j : Nat) : (arrayRecord unit reason s).cluster j = s.cluster j := by
  obtain ⟨q, p, h⟩ := report_frame { cause := 0x39, kind := 1, src := 4, unit := unit, info := BitVec.ofNat 64 reason } .none s
  rw [arrayRecord, h]
  rfl

section
variable {cl i : Nat} {s : State} (hrecal : (s.sec cl i).recal = true)
include hrecal

/-- Recalibration that succeeds leaves the section usable (R217). -/
theorem recalibrationEnd_succeeds :
    ∃ t, exec (.recalibrationEnd cl i true []) s = .next t ∧ t.sec cl i = { s.sec cl i with recal := false } ∧
      (t.cluster cl).arrdis = (s.cluster cl).arrdis := by
  refine ⟨setSec cl i { s.sec cl i with recal := false } s, ?_, State.sec_setSec_self _ _ _ _, setSec_arrdis _ _ _ _⟩
  simp [exec_recalibrationEnd, execRecalibrationEnd, hrecal]

/-- Recalibration that fails disables the section and ends its lease (R468). -/
theorem recalibrationEnd_fails :
    ∃ t, exec (.recalibrationEnd cl i false []) s = .next t ∧
      t.sec cl i = { s.sec cl i with recal := false, holder := none, uses := 0, pass := false } ∧
      (t.cluster cl).arrdis = (s.cluster cl).arrdis ||| BitVec.twoPow 4 i := by
  let ended := setSec cl i { s.sec cl i with recal := false } s
  let off := ended.setCluster cl { ended.cluster cl with arrdis := (ended.cluster cl).arrdis ||| BitVec.twoPow 4 i }
  refine ⟨arrayRecord (64 * cl + 16 * i) 2 (setSec cl i {} off), ?_, ?_, ?_⟩
  · simp [exec_recalibrationEnd, execRecalibrationEnd, hrecal, off, ended]
  · rw [State.sec, cluster_arrayRecord]
    exact State.sec_setSec_self off cl i {}
  · simp [cluster_arrayRecord, off, ended]

end

/-- Settles O11, event by event: the row turn of an MZERO is mrow_mzero, and every other event has a lemma of its own. -/
theorem matrixAndSectionEvents : Obligations.MatrixAndSectionEvents := by
  unfold Obligations.MatrixAndSectionEvents
  intro k id cl i m tk z row o h s
  refine ⟨?_, ?_, leaseGrant_grants, fun hholder hspent hrecal hbusy =>
    ⟨sectionRearbitrate_goes_on hholder hspent hrecal hbusy, fun hreqs hk _ hm hgrant hfirst =>
      sectionRearbitrate_passes hholder hspent hrecal hbusy hreqs hk hm hgrant hfirst⟩,
    recalibrationStart_begins, fun _ hrecal => ⟨recalibrationEnd_succeeds hrecal, recalibrationEnd_fails hrecal⟩⟩
  · rintro hmops rfl hparked hrows hready hword - hrestored hst hrun
    have hturn := mrow_mzero hmops hparked hrows hready hword hrestored hst hrun
    simp only [hturn, endRow_core, Nat.add_assoc]
    exact ⟨fun e he => zeroRow_acc_row k _ s he, fun e he => zeroRow_acc_other k _ s he,
      endRow_mops ((zeroRow_mops k _ s).trans hmops), fun b => by rw [endRow_mem, zeroRow_mem]⟩
  · rintro hmops rfl
    exact matrixOpRetire_retires hmops

end Sys2Proof.Machine
end
